-- ==== Sys2Proof/Word.lean ====
section
/-!
DEFINITION. Sys2Proof/Word.lean: the word types of the model (R217: bytes, little-endian words, 64-byte lines).
-/
namespace Sys2Proof

/-- One byte (u8). -/
abbrev Byte := BitVec 8
/-- A 32-bit number: u32 fields, counters, hall times. -/
abbrev Word := BitVec 32
/-- A 64-byte line; byte `k` is bits `8k` to `8k+7` (little-endian, R217). -/
abbrev Line := BitVec 512
/-- A 32-byte record: a segment step, a mark entry, a crane ring element. -/
abbrev Raw := BitVec 256

end Sys2Proof
end

