-- ==== Sys2Proof/Syntax.lean ====
section
/-!
DEFINITION. Sys2Proof/Syntax.lean: the commands of the PH412, one constructor per row of spec/opcode_table.json.
A command is one taking; its operands are what comes from outside with it (R181, R85, R141, R182).
-/
namespace Sys2Proof

/-- The four beds B0 to B3. -/
inductive BedId
  | b0 | b1 | b2 | b3
deriving DecidableEq, Repr

/-- A memory transaction of either port (R181): `beats` beats of 8 bytes from `addr`; for a write, byte `addr + k`
is enabled by bit `k` of `enables` and holds byte `k` of `data`. -/
structure Transaction where
  addr : Word
  write : Bool
  beats : Nat
  enables : BitVec 64
  data : Line
deriving DecidableEq, Repr

/-- An MSP answer to a write (R182). -/
inductive Ack
  | done | refused
deriving DecidableEq, Repr

/-- An MSP answer to a read: DONE with the data read (byte `k` is the byte at the read's address plus `k`), or REFUSED. -/
inductive ReadAnswer
  | done (data : Line)
  | refused
deriving DecidableEq, Repr

/-- The records that the record engine writes back (R194); `scan i` is a record of the table under verification (R205). -/
inductive RecId
  | plate (i : Nat) | hall | bed (b : BedId) | crane | fault | violations | stats | scan (i : Nat) | verdict
deriving DecidableEq, Repr

/-- Causes of a crane FAULT message (Table 12-12). -/
inductive CraneCause
  | loadDrop | blocked | drive
deriving DecidableEq, Repr

/-- The commands. A row of Table 11-2 is the taking in which the read of the command slot is answered DONE with that
code; its operand is the slot line read (R209, R210). -/
inductive Instr
  /-- HARD_RESET (R200): Power-on or the reset line samples the straps and puts every block into its hard-reset state, with the hall mode START_UP. -/
  | hardReset (as1 as0 : Bool)
  /-- MEMORY_READY (R200): The first rise of memory-ready after hard reset lets the MSP arbiter begin granting and starts the start-up verification as commit number 1. -/
  | memoryReady
  /-- SSP_TRANSACTION (R181): A host transaction offered at the SSP is refused if malformed, answered DONE if it is a write with no byte enabled, and otherwise joins the tail of the SSP queue. -/
  | sspTransaction (t : Transaction)
  /-- HOST_CLASSIFY (R185): The path classifier takes the transaction at the head of the SSP queue and answers it RETRY, drops it, or forwards it as the host forward in progress. -/
  | hostClassify
  /-- MSP_GRANT (R195): When the MSP is free, the arbiter grants it to one claimant by the urgent-fetch, host/engine policy and round-robin order; a forwarded host write is judged again against the protected places at its grant. -/
  | mspGrant
  /-- HOST_WRITE_ANSWER (R182): The MSP's answer to a forwarded host write that carries no snooped effect is relayed to the host. -/
  | hostWriteAnswer (a : Ack)
  /-- BRACKET_CLOSE (R192): The MSP's answer to a host read of a bracketed record's last line closes the bracket and presents its pending image for write-back. -/
  | bracketClose (a : ReadAnswer)
  /-- BRACKET_EXPIRY (R192): A bracket's 250 µs limit runs out; the bracket closes, the brackets-expired counter advances and the pending image is presented. -/
  | bracketExpiry (r : RecId)
  /-- BURN_RING_ISSUED_WRITE (R42): A forwarded host write of ISSUED covering a burn ring ownership word is answered DONE; if it lands at the ring position of a WAITING bed it is a take. -/
  | burnRingIssuedWrite
  /-- CRANE_RING_ISSUED_WRITE (R132): A forwarded host write of ISSUED covering a crane ring ownership word is answered DONE; if the ring is running, the element is at the ring position and fewer than 8 orders are held, it is a take. -/
  | craneRingIssuedWrite
  /-- ACKNOWLEDGE_WRITE (R213): A forwarded host write covering the acknowledge word removes the named pending attention causes, and the attention line follows. -/
  | acknowledgeWrite
  /-- COMMIT (R208): A forwarded host write covering the commit word in HALT starts a commit verification, or leaves the commit pending until the command in execution ends. -/
  | commit
  /-- COMMAND_SLOT_READ_REFUSED (R209): The MSP refuses the read of the command slot; WRITE_BACK is set and the command ends with PARAM, detail 2 equal to 1. -/
  | commandSlotReadRefused
  /-- HALL_RUN (R161): Brings the hall from HALT or HOLD to RUN, removing pause cause HOLD from every bed and restarting grants, selection and ring taking. -/
  | hallRun (slot : Line)
  /-- HALL_HOLD (R162): Puts the hall from RUN into HOLD and adds pause cause HOLD to every marking, burning or paused bed; the command completes when every bed reports its torch off. -/
  | hallHold (slot : Line)
  /-- HALL_HALT (R164): Puts the hall in HALTING, stops the crane ring, returns queued crane orders ABORTED_HALT and ends each bed's work by its state. -/
  | hallHalt (slot : Line)
  /-- HALL_RESET (R166): Puts the hall in RESETTING, clears the detail flags except RESET_LOADED, stops the host watch and starts each block's reset. -/
  | hallReset (slot : Line)
  /-- FAULT_CLEAR (R179): Clears the named detail flags of a group except those whose persisting condition stands, and optionally clears the combined flag. -/
  | faultClear (slot : Line)
  /-- FAULT_MASK (R178): Replaces the detail masks of one group; unmasking a set flag sets the combined flag. -/
  | faultMask (slot : Line)
  /-- MONITOR_TEST (R127): Feeds a stopped or waiting bed's arc monitor N synthetic samples beyond the HIGH or LOW limit, setting ARC_HIGH or ARC_LOW without other effect. -/
  | monitorTest (slot : Line)
  /-- BED_START (R66): Brings a STOPPED bed with a live link to WAITING and reads its ring position. -/
  | bedStart (slot : Line)
  /-- BED_STOP (R67): Stops a bed's ring and ends its order by its state, through STOPPING for a marking, burning or paused bed. -/
  | bedStop (slot : Line)
  /-- BED_PAUSE (R95): Adds pause cause COMMAND to a marking or burning bed, sending PAUSE if none is outstanding and the set was empty. -/
  | bedPause (slot : Line)
  /-- BED_RESUME (R96): Removes causes COMMAND, ARC and PIERCE from a paused bed's pause cause set, resuming the bed if the set becomes empty. -/
  | bedResume (slot : Line)
  /-- BED_RESUME_WAIVE (R107): BED_RESUME with option WAIVE also makes every FAILED mark WAIVED and removes MARK_INTERLOCK. -/
  | bedResumeWaive (slot : Line)
  /-- BED_RESUME_REMARK (R108): BED_RESUME with option REMARK, in PAUSED only, makes a remark pass over FAILED marks whose unmarked flag is clear, then removes MARK_INTERLOCK. -/
  | bedResumeRemark (slot : Line)
  /-- BED_RELEASE (R62): Lets a bed waiting in UNLOADING with wait cause RELEASE post its unloading requests. -/
  | bedRelease (slot : Line)
  /-- BED_RECOVER (R68): Returns a FAULTED bed with a live link to STOPPED and empties its pause cause set. -/
  | bedRecover (slot : Line)
  /-- CRANE_CANCEL (R148): Cancels a queued host crane order, or the move in flight by ABORT or by a return reservation, according to the order's state. -/
  | craneCancel (slot : Line)
  /-- CRANE_RECOVER_NONE (R152): CRANE_RECOVER with outcome NONE makes a FAULTED crane with no failed move IDLE. -/
  | craneRecoverNone (slot : Line)
  /-- CRANE_RECOVER_AT_SOURCE (R153): CRANE_RECOVER with outcome AT_SOURCE places the failed move's piece at its source, reports the end of the move and makes the crane IDLE. -/
  | craneRecoverAtSource (slot : Line)
  /-- CRANE_RECOVER_AT_DESTINATION (R153): CRANE_RECOVER with outcome AT_DESTINATION places the failed move's piece at its destination, reports the end of the move and makes the crane IDLE. -/
  | craneRecoverAtDestination (slot : Line)
  /-- CRANE_RECOVER_LOST (R153): CRANE_RECOVER with outcome LOST makes the failed move's piece LOST, releases the move's reservations and makes the crane IDLE. -/
  | craneRecoverLost (slot : Line)
  /-- PLATE_REGISTER (R18): Enters a new plate into the lowest EMPTY record, at the top of the infeed stack. -/
  | plateRegister (slot : Line)
  /-- PLATE_AMEND (R19): Changes the heat number, grade or mass of a record, or gives a LOST record a new place. -/
  | plateAmend (slot : Line)
  /-- PLATE_RETIRE (R20): Makes an unclaimed record EMPTY and frees its place. -/
  | plateRetire (slot : Line)
  /-- REMNANT_FIND (R21): Finds the smallest fitting stock piece and gives it a HOLD claim with the next token and an expiry. -/
  | remnantFind (slot : Line)
  /-- HOLD_DROP (R22): Ends a HOLD claim named by plate ID and token before its expiry. -/
  | holdDrop (slot : Line)
  /-- STATS_SNAPSHOT (R215): Copies all 31 statistics counters, with the hall clock and the snapshot number, into the statistics record, optionally clearing the counters. -/
  | statsSnapshot (slot : Line)
  /-- ATTENTION_MASK (R214): Replaces the line mask of the attention line. -/
  | attentionMask (slot : Line)
  /-- RESULT_WRITE_ANSWER (R211): A result write answered DONE adds cause COMMAND, ends the command's execution and starts any pending commit. -/
  | resultWriteAnswer (a : Ack)
  /-- WRITE_BACK_ANSWER (R16): The MSP answers a record write-back; a refusal sets WRITE_BACK, and waiting results, HOLD_EXPIRED or FAULT follow the answer. -/
  | writeBackAnswer (a : Ack)
  /-- TAKEN_WRITE_ANSWER (R42): The MSP answers a TAKEN ownership write; a refusal sets WRITE_BACK and the write is not repeated. -/
  | takenWriteAnswer (a : Ack)
  /-- BED_ELEMENT_READ_ANSWER (R42): The read of a taken burn order element is answered; the bed keeps its copy of the order fields and runs the acceptance checks, or faults with MEMORY if the read is refused. -/
  | bedElementReadAnswer (a : ReadAnswer)
  /-- BED_OWNERSHIP_READ_ANSWER (R43): The read of the ownership word at the bed's ring position is answered; ISSUED is a take, any other value leaves the bed WAITING, and a refusal faults the bed. -/
  | bedOwnershipReadAnswer (a : ReadAnswer)
  /-- MARK_LIST_READ_ANSWER (R98): A line of the mark list is answered into the mark table, and at its end check 9 (MARK_FORM) judges the entries. -/
  | markListReadAnswer (a : ReadAnswer)
  /-- DESCRIPTOR_READ_ANSWER (R34): The read of a remnant descriptor is answered; the bed keeps a copy and judges check 10 (REMNANT_FORM). -/
  | descriptorReadAnswer (a : ReadAnswer)
  /-- PLATE_LOOKUP (R49): The stock unit answers a bed's plate lookup, against which checks 2 to 5 and 11 are judged. -/
  | plateLookup (b : BedId)
  /-- REMNANT_ID_RESERVE (R7): The stock unit takes a bed's request to reserve a remnant plate ID, granting it or refusing it as a duplicate. -/
  | remnantIdReserve (b : BedId)
  /-- BURN_REQUEST (R9): The stock unit takes a bed's BURN claim request and grants it, refuses it, or enters the bed as a claim waiter. -/
  | burnRequest (b : BedId)
  /-- CLAIM_RELEASE (R11): The stock unit takes a claim release, sets the claim to NONE if it still matches, and tells the claim waiters. -/
  | claimRelease
  /-- LOCK_REQUEST (R53): The lock table grants a bed's lock ranges whole, or puts the bed on the lock-wait list. -/
  | lockRequest (b : BedId)
  /-- CHECK_READ_ANSWER (R55): A line of the segment list read in CHECKING is answered and judged; the first invalid step returns CHECK_FAILED, and a list that passes leads to STAGING. -/
  | checkReadAnswer (a : ReadAnswer)
  /-- STREAM_FETCH_ANSWER (R78): A stream fetch line is answered into the prefetch FIFO, the cursor draws and sends steps, and a refused fetch faults the bed. -/
  | streamFetchAnswer (a : ReadAnswer)
  /-- PERMIT_REQUEST (R113): The permit arbiter takes a bed's request, which joins the permit wait list, and grants free permits to the head of the list in RUN. -/
  | permitRequest (b : BedId)
  /-- PERMIT_GRANT (R113): A permit grant is delivered to a bed, which asks for the token if BURNING or releases the permit if its order has ended. -/
  | permitGrant (b : BedId)
  /-- TOKEN_REQUEST (R116): The permit arbiter takes a bed's pierce token request, which joins the token wait list. -/
  | tokenRequest (b : BedId)
  /-- TOKEN_OFFER (R117): A bed takes the offer of the pierce token and accepts it, sending its PIERCE and starting the pierce timer, if it is ready, or declines it. -/
  | tokenOffer
  /-- READY_REPORT (R117): A bed on the token wait list reports that it has become ready, and the arbiter offers it the token. -/
  | readyReport (b : BedId)
  /-- GANTRY_STEP_DONE (R82): A STEP_DONE from the gantry removes the oldest sent window entry as executed, or faults the bed on a mismatch. -/
  | gantryStepDone (b : BedId) (seq : Byte)
  /-- GANTRY_PIERCE_DONE (R118): A PIERCE_DONE ends the outstanding pierce and releases the pierce token. -/
  | gantryPierceDone (b : BedId)
  /-- GANTRY_PIERCE_FAIL (R119): A PIERCE_FAIL ends the pierce as failed, releases the token, sets PIERCE_FAIL and adds pause cause PIERCE. -/
  | gantryPierceFail (b : BedId)
  /-- GANTRY_ARC (R123): An ARC voltage sample is counted by the arc monitor against the bed's window. -/
  | gantryArc (b : BedId) (volts : Byte)
  /-- GANTRY_HOLD (R87): A HOLD from the gantry sets the link hold. -/
  | gantryHold (b : BedId)
  /-- GANTRY_GO (R87): A GO from the gantry clears the link hold. -/
  | gantryGo (b : BedId)
  /-- GANTRY_PAUSED (R91): A PAUSED reply trims the sent window into the resend list and puts the bed in PAUSED, or resumes it at once if the pause cause set is empty. -/
  | gantryPaused (b : BedId) (last : Byte)
  /-- GANTRY_STOPPED (R64): A STOPPED reply ends STOPPING; the order is returned with the pending outcome and the bed goes to STOPPED. -/
  | gantryStopped (b : BedId)
  /-- GANTRY_MARK_DONE (R104): A MARK_DONE makes the SENT mark DONE and advances marking. -/
  | gantryMarkDone (b : BedId)
  /-- GANTRY_MARK_FAIL (R104): A MARK_FAIL counts the attempt as failed; the mark becomes PENDING for another attempt, or FAILED with MARK_FAIL set. -/
  | gantryMarkFail (b : BedId)
  /-- GANTRY_FAULT (R86): A FAULT from the gantry sets GANTRY, records its cause and faults the bed according to its state. -/
  | gantryFault (b : BedId) (cause : Byte)
  /-- GANTRY_ALIVE (R85): An ALIVE makes a DOWN bed link LIVE and, like every gantry message, restarts the link timer. -/
  | gantryAlive (b : BedId)
  /-- BED_LINK_TIMEOUT (R85): 50 ms pass with no gantry message; the link becomes DOWN, LINK_LOST is set and the bed acts by its state. -/
  | bedLinkTimeout (b : BedId)
  /-- STOP_LIMIT (R64): 10 s pass in STOPPING without STOPPED; GANTRY is set and the bed enters FAULTED. -/
  | stopLimit (b : BedId)
  /-- PIERCE_TIMEOUT (R120): The 8 s pierce timer runs out; the pierce ends as failed in BURNING, or only the token is released in STOPPING. -/
  | pierceTimeout (b : BedId)
  /-- MARK_REPLY_LIMIT (R104): 20 s pass without a reply to a MARK; the attempt counts as failed with cause TIMEOUT. -/
  | markReplyLimit (b : BedId)
  /-- HEAT_NUMBER_REQUEST (R101): The stock unit answers a bed's request for the plate's heat number, from which the mark text is composed. -/
  | heatNumberRequest (b : BedId)
  /-- REMNANT_CREATION (R35): The stock unit takes a bed's creation request at END, allocating and filling the remnant record and choosing its place. -/
  | remnantCreation (b : BedId)
  /-- CRANE_REQUEST_POST (R130): The crane controller takes a bed's posting of a crane request to the tail of its list in the BED bank. -/
  | craneRequestPost (b : BedId)
  /-- CRANE_REQUEST_WITHDRAW (R130): The crane controller takes a bed's withdrawal, removing the bed's queued requests and releasing their reservations. -/
  | craneRequestWithdraw (b : BedId)
  /-- BED_RETURN_ANSWER (R44): A burn ring return write answered DONE advances the ring position, passes the element to the host and raises RETURN_Bn; a refused one is queued again. -/
  | bedReturnAnswer (a : Ack)
  /-- CRANE_OWNERSHIP_READ_ANSWER (R132): The read of the crane ring ownership word at the ring position is answered; ISSUED is a take. -/
  | craneOwnershipReadAnswer (a : ReadAnswer)
  /-- CRANE_ELEMENT_READ_ANSWER (R132): The read of a taken crane order element is answered, the TAKEN write follows and the order is judged for acceptance; a refused read is queued again. -/
  | craneElementReadAnswer (a : ReadAnswer)
  /-- CRANE_RETURN_ANSWER (R136): A crane ring return write answered DONE removes the order from the STOCK bank, raises RETURN_CRANE and rereads the ring position; a refused one is queued again. -/
  | craneReturnAnswer (a : Ack)
  /-- CRANE_ACCEPT (R144): An ACCEPT in DISPATCHED puts the crane in LIFTING and zeroes the refusal count. -/
  | craneAccept (id : Byte)
  /-- CRANE_REFUSE (R144): A REFUSE in DISPATCHED returns the request to its bank, or ends a cancel; a third consecutive refusal faults the crane. -/
  | craneRefuse (id : Byte)
  /-- CRANE_LIFTED (R145): A LIFTED locates the piece at CRANE and starts TRAVELLING, or turns the move back on a mass mismatch or for a cancel. -/
  | craneLifted (id : Byte) (mass : Word)
  /-- CRANE_ARRIVED (R146): An ARRIVED in TRAVELLING puts the crane in SETTING. -/
  | craneArrived (id : Byte)
  /-- CRANE_SET (R146): A SET ends the move at its destination, or at its source after a confirmed return, updating the record and reporting the end. -/
  | craneSet (id : Byte)
  /-- CRANE_DROPPED (R149): A DROPPED after an ABORT ends a cancel with nothing lifted. -/
  | craneDropped (id : Byte)
  /-- CRANE_RETURNING (R147): A RETURNING in RETURNING confirms that the crane is carrying the piece back to its source. -/
  | craneReturning (id : Byte)
  /-- CRANE_FAULT (R151): A FAULT from the crane puts it in FAULTED and, for LOAD_DROP, makes the carried record LOST. -/
  | craneFault (id : Byte) (cause : CraneCause)
  /-- CRANE_READY (R141): A READY makes the crane link LIVE if it was DOWN and sets the load state, possibly faulting the crane with RESET_LOADED. -/
  | craneReady (loaded : Bool)
  /-- CRANE_LINK_TIMEOUT (R141): 1 s passes with no crane message; the link becomes DOWN, LINK_LOST is set and the crane enters FAULTED. -/
  | craneLinkTimeout
  /-- PHASE_LIMIT (R143): The limit of the current move phase runs out; TIMEOUT is set and the crane enters FAULTED. -/
  | phaseLimit
  /-- CRANE_RESET_LIMIT (R155): 2 s pass without an answer to the hall reset's ABORT, ending the crane's part of the reset. -/
  | craneResetLimit
  /-- HOST_WATCH_EXPIRY (R170): The host watch timer runs out; HOST_SILENT is set and a running hall enters HOLD. -/
  | hostWatchExpiry
  /-- HOLD_EXPIRY (R12): A HOLD claim reaches its expiry; the claim becomes NONE and HOLD_EXPIRED follows the record's write-back. -/
  | holdExpiry (i : Nat)
  /-- ANCHOR_READ_ANSWER (R201): A line of the anchor block read during verification is answered and judged; a refused read ends the verification with MEMORY. -/
  | anchorReadAnswer (a : ReadAnswer)
  /-- TABLE_SCAN_READ_ANSWER (R203): A plate record read by the table scan is answered, judged and fixed up, and the collection checks follow the last record. -/
  | tableScanReadAnswer (a : ReadAnswer)
  /-- VERDICT_WRITE_ANSWER (R205): The verdict record write is answered and the verification ends, putting the new anchor in force or keeping the previous one. -/
  | verdictWriteAnswer (a : Ack)
  /-- COMMAND_TRIGGER (R209): A forwarded host write covering the command code word is answered DONE while no command is in execution; the engine copies the code, target and tag, puts the command in execution and reads the slot line. -/
  | commandTrigger
  /-- UNKNOWN_COMMAND (R210): The command slot read is answered DONE with a code that names no command of Table 11-2, and the engine writes a result with outcome UNKNOWN. -/
  | unknownCommand (slot : Line)
  /-- HOST_READ_ANSWER (R182): The MSP answers a forwarded host read that is not a last-line read of a bracketed record; the data or REFUSED is relayed to the host and the host forward in progress ends, so the classifier may take the next transaction. -/
  | hostReadAnswer (a : ReadAnswer)
deriving DecidableEq, Repr

end Sys2Proof
end

