-- ==== Sys2Proof/Decode.lean ====
section
/-!
DEFINITION. Sys2Proof/Decode.lean: the command that a word spells by the bits of spec/opcode_table.json.
-/
namespace Sys2Proof

/-- No row of the table gives its command any bits: no word spells one. -/
def decodeTableWord (_nbits _w : Nat) : Option Instr := none

end Sys2Proof
end

