-- ==== Sys2Proof/Config.lean ====
section
/-!
DEFINITION. Sys2Proof/Config.lean: the fixed numbers of the PH412, each with the rule that fixes it.
Times are in milliseconds of the hall clock.
-/
namespace Sys2Proof.Config

/-- SSP queue length (R181). -/
def sspQueue : Nat := 8
/-- Bracket table entries (R191). -/
def brackets : Nat := 4
/-- Violation log records (R188). -/
def violationLog : Nat := 8
/-- Lock table entries (R52). -/
def lockEntries : Nat := 6
/-- Sent window entries (R82). -/
def window : Nat := 16
/-- Prefetch FIFO steps (R78). -/
def fifo : Nat := 32
/-- Recent buffer steps (R80). -/
def recent : Nat := 32
/-- A fetch is urgent below this FIFO fill (R79). -/
def urgentBelow : Nat := 8
/-- STOCK bank orders (R129). -/
def stockBank : Nat := 8
/-- Overflow bay places (R30). -/
def overflow : Nat := 8
/-- Infeed capacity (R5). -/
def infeed : Nat := 4
/-- Bed link timer (R85). -/
def bedLink : Nat := 50
/-- Stop limit (R64). -/
def stopLimit : Nat := 10000
/-- Pierce timer (R117). -/
def pierce : Nat := 8000
/-- Mark reply limit (R103). -/
def markReply : Nat := 20000
/-- Crane link timer (R141). -/
def craneLink : Nat := 1000
/-- Limit of the crane's part of a hall reset (R155). -/
def craneReset : Nat := 2000
/-- Phase limits of Table R143. -/
def dispatched : Nat := 2000
def lifting : Nat := 90000
def travelling : Nat := 240000
def setting : Nat := 90000
def returning : Nat := 330000
/-- Consecutive refusals that fault the crane (R144). -/
def refusals : Nat := 3
/-- Highest aging count (R139). -/
def agingMax : Nat := 15
/-- Size of the anchor block (Table 0-1) and offset of the verdict record (R198). -/
def anchorSize : Nat := 1024
def verdictOffset : Nat := 960
/-- Size of the control area (Table 0-1). -/
def controlSize : Nat := 4096
/-- Signature (field 1 of Table 10-2). -/
def signature : Nat := 0x31344850

end Sys2Proof.Config
end

