-- ==== Sys2Proof/Machine/State.lean ====
section
/-!
DEFINITION. Sys2Proof/Machine/State.lean: everything the spec gives the PH412 as state, as plain data, and its values
after hard reset. Each field names the rule of spec/ it comes from; the assumption log (notes/assumptions/) is cited as "log <n>".
-/
namespace Sys2Proof.Machine

/-- No command of the block ends in a fault: every event of the spec has an effect (NOTES.md, "Stops"). -/
inductive Fault
deriving DecidableEq, Repr

/-- Why a command has no meaning in the model. -/
inductive Refusal
  /-- Raised by an arm of `exec` for a command not yet modelled. Safe: nothing is said about the command. -/
  | notModelled (mnemonic : String)
deriving DecidableEq, Repr

/-- One value per bed. -/
structure PerBed (α : Type) where
  b0 : α
  b1 : α
  b2 : α
  b3 : α
deriving DecidableEq, Repr

/-- A place of the hall, or where a piece ended (R4, final location of Table 12-12). -/
inductive Loc
  | none | infeed (level : Nat) | bed (b : BedId) | crane | rack (slot : Nat) | overflow | scrap | lost
deriving DecidableEq, Repr

/-- Record state (R3). -/
inductive PlateState
  | empty | stock | skeleton | lost
deriving DecidableEq, Repr

/-- A claim with its holder (R8). -/
inductive Claim
  | none | burn (b : BedId) | lift (element : Nat) | hold (token : BitVec 16) (expiry : Word)
deriving DecidableEq, Repr

/-- Who holds a reservation or a move: a host crane order by its element index, or a bed request by bed,
kind and plate ID. -/
inductive ReqKind
  | loadBed | remnantOut | skeletonOut | move
deriving DecidableEq, Repr
inductive ReqId
  | host (element : Nat) | bed (b : BedId) (kind : ReqKind) (plate : Nat)
deriving DecidableEq, Repr

/-- A plate record (R2). `heatLen` and the outline's length are the counts; 0 is absent. -/
structure Plate where
  st : PlateState
  remnant : Bool
  loc : Loc
  claim : Claim
  suspect : Bool
  id : Nat
  parent : Nat
  thickness : Nat
  length : Nat
  width : Nat
  heatLen : Nat
  heat : BitVec 96
  outline : List (Nat × Nat)
  mass : Nat
  regTime : Word
  grade : BitVec 64
deriving DecidableEq, Repr

/-! ## Anchor loader -/

/-- Bed entry of the anchor (Table 12-3). -/
structure BedCfg where
  present : Bool
  full : Bool
  count : Nat
  base : Nat
  len : Nat
  wid : Nat
  thick : Nat
  arcHigh : Nat
  arcLow : Nat
  arcN : Nat
deriving DecidableEq, Repr

/-- Class limits and count (fields 26, 27). -/
structure ClassCfg where
  len : Nat
  wid : Nat
  count : Nat
deriving DecidableEq, Repr

/-- The fields of an anchor block that the part acts on (Table 10-2). -/
structure Anchor where
  memMiB : Nat
  control : Nat
  table : Nat
  capacity : Nat
  craneBase : Nat
  craneCount : Nat
  beds : PerBed BedCfg
  permits : Nat
  rated : Nat
  tolerance : Nat
  aging : Nat
  classS : ClassCfg
  classM : ClassCfg
  classL : ClassCfg
  holdMin : Nat
  watch : Nat
  dropDone : Bool
  alternate : Bool
  retries : Nat
deriving DecidableEq, Repr

/-- A verdict record (R207, Table 12-4). -/
structure Verdict where
  code : Nat
  kept : Bool
  lost : Nat
  d1 : Word
  d2 : Word
  no : Word
  val : Word
  time : Word
deriving DecidableEq, Repr

/-- Where a verification stands (R201, R203, R205). -/
inductive VerStage
  | anchor | scan (i : Nat) | writing
deriving DecidableEq, Repr

/-- A verification in progress: the lines of the field area read, the candidate anchor, the first line of the record
being read, the candidate table image, the records changed and the number made LOST. -/
structure Verif where
  stage : VerStage
  lines : List Line
  cand : Option Anchor
  first : Option Line
  table : List Plate
  changed : List Nat
  lost : Nat
  verdict : Option Verdict
deriving DecidableEq, Repr

structure Loader where
  /-- Strap-selected base (R198, R200). -/
  base : Nat
  /-- Anchor in force (R198). -/
  inForce : Option Anchor
  /-- Verdict of the latest verification to end (R207). -/
  verdict : Option Verdict
  commitNo : Word
  commitVal : Word
  /-- Commit waiting for the command in execution, with its value (R208). -/
  pendingCommit : Option Word
  ver : Option Verif
deriving DecidableEq, Repr

/-! ## Memory path -/

/-- Violation causes (Table 12-12). -/
inductive VCause
  | element | range | table | area | anchor
deriving DecidableEq, Repr

structure Violation where
  addr : Word
  cause : VCause
  time : Word
deriving DecidableEq, Repr

/-- The host forward in progress, and whether the MSP has been granted to it (R181, R195). -/
structure Forward where
  t : Transaction
  granted : Bool
deriving DecidableEq, Repr

/-- Whose transaction the MSP has in progress (R195). -/
inductive MspUse
  | host | engine | fetch (b : BedId)
deriving DecidableEq, Repr

/-- An open read bracket: its record and the hall time of its last start (R191). -/
structure Bracket where
  record : RecId
  start : Word
deriving DecidableEq, Repr

inductive Side
  | host | engine
deriving DecidableEq, Repr

structure Path where
  memReady : Bool
  ssp : List Transaction
  held : List Transaction
  fwd : Option Forward
  msp : Option MspUse
  brackets : List Bracket
  log : List Violation
  logTotal : Word
  violElement : Word
  violRange : Word
  violTable : Word
  violArea : Word
  violAnchor : Word
  retries : Word
  expired : Word
  lastUrgent : BedId
  lastFetch : BedId
  lastSide : Side
deriving DecidableEq, Repr

/-! ## Record engine -/

/-- What a request of the record engine is (R194). -/
inductive ReqOf
  | bedElement (b : BedId) | bedOwner (b : BedId) | bedTaken (b : BedId) | bedReturn (b : BedId) | descriptor (b : BedId)
  | craneOwner (idx : Nat) | craneElement (idx : Nat) | craneTaken (idx : Nat) | craneReturn (idx : Nat)
  | slotRead | result | busyResult | writeBack (r : RecId) | anchorLine (q : Nat) | scanRead (i : Nat) (second : Bool)
deriving DecidableEq, Repr

/-- A request: its number, what it is, its address, and for a return or result write its data and byte enables.
The lines of a write-back are composed when its first line is granted (log 9). -/
structure Req where
  ticket : Nat
  what : ReqOf
  addr : Nat
  data : Line
  enables : BitVec 64
  /-- The MSP has refused it before (R174). -/
  refused : Bool
deriving DecidableEq, Repr

/-- The request begun: the lines of a write-back still to be granted, the next line's address, whether a line was refused. -/
structure Current where
  req : Req
  lines : List Line
  next : Nat
  refused : Bool
deriving DecidableEq, Repr

/-- What waits for answers (R16, R47, R66, R176, R211). -/
inductive Act
  | result (code : BitVec 16) (target : Byte) (tag : Word) (outcome : Byte) (d1 d2 d3 : Word)
  | cause (bit : Nat)
  | ownerRead (b : BedId)
deriving DecidableEq, Repr

structure Deferred where
  waits : List Nat
  act : Act
deriving DecidableEq, Repr

structure Engine where
  queue : List Req
  cur : Option Current
  refused : List RecId
  deferred : List Deferred
  nextTicket : Nat
deriving DecidableEq, Repr

/-! ## Command engine, faults and attention -/

/-- Hall modes (R158). -/
inductive Mode
  | startUp | halt | run | hold | halting | resetting
deriving DecidableEq, Repr

/-- Hold origin (R172). -/
inductive Origin
  | none | command | hostWatch
deriving DecidableEq, Repr

/-- What the command in execution does: its slot is being read, it waits for an event, or its result is on its way. -/
inductive CmdStage
  | reading | hold (n : Nat) | halting | resetting | stopping (b : BedId) | remark (b : BedId) | ended
deriving DecidableEq, Repr

structure Cmd where
  code : BitVec 16
  target : Byte
  tag : Word
  stage : CmdStage
deriving DecidableEq, Repr

/-- A result given in a taking: outcome and details (R211), the requests queued in that taking whose answers it waits for
(a status record's write-back when its content changed, `always` in any case), and the bed whose ring position is read once it
is written (R66). -/
structure Result where
  outcome : Byte
  d1 : Word
  d2 : Word
  d3 : Word
  waits : List ReqOf
  always : List ReqOf
  after : Option BedId
deriving DecidableEq, Repr

structure CmdEngine where
  mode : Mode
  origin : Origin
  torch : List BedId
  current : Option Cmd
  owed : Option Result
  resultNo : Word
  haltBurn : Word
  haltCrane : Word
  resetStopped : Word
  resetOther : Word
  snapNo : Word
  snapshot : List Word
deriving DecidableEq, Repr

/-- One fault group (R173): bits by Table 12-12. -/
structure FaultGroup where
  flags : Byte
  masks : Byte
  comb : Bool
deriving DecidableEq, Repr

structure Faults where
  beds : PerBed FaultGroup
  crane : FaultGroup
  hall : FaultGroup
  owed : Bool
  pending : Byte
  mask : Byte
  watch : Option Word
deriving DecidableEq, Repr

/-! ## Stock unit, lock table, permit arbiter -/

structure Release where
  ix : Nat
  plate : Nat
  claim : Claim
deriving DecidableEq, Repr

structure SlotRes where
  slot : Nat
  plate : Nat
  req : ReqId
deriving DecidableEq, Repr

structure OverRes where
  plate : Nat
  req : ReqId
deriving DecidableEq, Repr

structure Stock where
  table : List Plate
  reservedIds : List (Nat × BedId)
  tokenCtr : BitVec 16
  waiters : List (Nat × BedId)
  slotRes : List SlotRes
  overRes : List OverRes
  infeedRes : Option ReqId
  releases : List Release
  created : Word
  toRack : Word
  toOverflow : Word
  scrapped : Word
  unregistered : Word
deriving DecidableEq, Repr

structure LockEntry where
  addr : Nat
  len : Nat
  owners : List BedId
deriving DecidableEq, Repr

structure Locks where
  entries : List LockEntry
  waits : List (BedId × List (Nat × Nat))
deriving DecidableEq, Repr

structure Arbiter where
  pool : Option Nat
  holders : List BedId
  waits : List BedId
  /-- Grants made and not yet delivered (R113), and the beds among them whose order has ended since. -/
  grants : List BedId
  ended : List BedId
  token : Option BedId
  tokenWaits : List BedId
  /-- The token offered and the offer not yet taken (R117), and whether the bed has left the list since. -/
  offer : Option BedId
  offerLeft : Bool
deriving DecidableEq, Repr

/-! ## Bed controllers -/

/-- Bed states (R47). -/
inductive BedState
  | absent | stopped | waiting | accepting | checking | staging | marking | burning | paused | unloading | stopping | faulted
deriving DecidableEq, Repr

/-- Bed zone (R59). -/
inductive Zone
  | free | torch | crane
deriving DecidableEq, Repr

/-- What ACCEPTING waits for (R48 to R53). -/
inductive AccStage
  | element | lookup (fresh : Bool) | marks | descriptor | reserve | burn | claimWait | lockReq | lockWait
deriving DecidableEq, Repr

/-- What UNLOADING waits for (R60, R61). -/
inductive UnlStage
  | creation | release | posted
deriving DecidableEq, Repr

/-- Remnant result (Table 12-12). -/
inductive RemnantResult
  | none | rack (slot : Nat) | overflow | scrapped | notRegistered
deriving DecidableEq, Repr

/-- The answer of the plate lookup that a bed keeps (R49, R74, R100). -/
structure Look where
  ix : Nat
  thickness : Nat
  length : Nat
  width : Nat
  /-- Mass suspect and not located at this bed (check 11). -/
  away : Bool
deriving DecidableEq, Repr

/-- The order in hand: its element, the copy of the element read, and what the order holds so far. -/
structure Hand where
  addr : Nat
  idx : Nat
  order : Line
  look : Option Look
  desc : Option Line
  claimed : Bool
  remnant : RemnantResult
  remRec : Nat
  remDest : Loc
  burnStart : Option Word
  burnEnd : Option Word
  /-- The order has entered UNLOADING (R46, R60). -/
  unloading : Bool
deriving DecidableEq, Repr

/-- Geometry state of a list being drawn (R73), in 0.01 mm. -/
structure Geo where
  x : Int
  y : Int
  arc : Bool
deriving DecidableEq, Repr

/-- A step with its coordinates as expanded (R72, R75): `frees` is the mark index named, `num` the speed or dwell,
`height` the pierce height. -/
structure Step where
  kind : Nat
  dir : Nat
  frees : Option Nat
  x : Int
  y : Int
  i : Int
  j : Int
  num : Nat
  height : Nat
deriving DecidableEq, Repr

/-- An expansion of the REPEAT at list index `m` (R75): repetition `rep` of `n`, body step `pos` of `k`. -/
structure Expansion where
  raw : Raw
  m : Nat
  k : Nat
  n : Nat
  dx : Int
  dy : Int
  rep : Nat
  pos : Nat
deriving DecidableEq, Repr

/-- A cursor over a segment list (R80, R81): next list index, expansion, geometry, recent buffer. -/
structure Cursor where
  idx : Nat
  exp : Option Expansion
  geo : Geo
  recent : List (Nat × Raw)
deriving DecidableEq, Repr

/-- A step drawn, with its list index and repetition number; `seq` is that of a window entry (R82), `synth` marks a synthetic
PIERCE in the window or the resend list (R91, R94). -/
structure Entry where
  idx : Nat
  rep : Nat
  step : Step
  seq : Byte
  synth : Bool
deriving DecidableEq, Repr

/-- A form stop (R77), also a failed whole-list check: position and form code. -/
structure FormStop where
  idx : Nat
  rep : Nat
  code : Nat
deriving DecidableEq, Repr

/-- Stream state of a bed (R78 to R97). -/
structure Stream where
  fifo : List Raw
  nextLine : Nat
  cursor : Cursor
  held : Option Entry
  window : List Entry
  resend : List Entry
  seq : Byte
  anySent : Bool
  endSent : Bool
  pierceSent : Bool
  steps : Word
  exX : Int
  exY : Int
  exArc : Bool
  lastPierce : Option Step
  synth : Bool
  pausing : Bool
  form : Option FormStop
  fromMarking : Bool
  arcAtPause : Bool
deriving DecidableEq, Repr

/-- Mark states and failure causes (R102). -/
inductive MarkState
  | pending | sent | done | failed | waived
deriving DecidableEq, Repr
inductive MarkCause
  | none | replyFail | timeout | noHeat
deriving DecidableEq, Repr

structure Mark where
  raw : Raw
  st : MarkState
  attempts : Nat
  cause : MarkCause
  unmarked : Bool
deriving DecidableEq, Repr

/-- A remark pass (R108): waiting for the mark SENT at its start, or the chosen marks. -/
inductive Pass
  | waiting | chosen (marks : List Nat)
deriving DecidableEq, Repr

/-- Marking state of a bed (R98 to R111). `begun` tells that the marks have their records of R102. -/
structure Marks where
  table : List Mark
  begun : Bool
  cursor : Nat
  limit : Option Word
  pass : Option Pass
  heatAsk : Option Nat
  formFail : Option (Nat × Nat)
deriving DecidableEq, Repr

/-- What a stream fetcher read is for (R55, R78, R98). -/
inductive FetchFor
  | stream | check | marks
deriving DecidableEq, Repr

structure Fetch where
  use : FetchFor
  addr : Nat
  granted : Bool
  discard : Bool
deriving DecidableEq, Repr

/-- A return write not yet answered DONE (R44). -/
structure Return where
  idx : Nat
  attn : Bool
deriving DecidableEq, Repr

/-- A pierce outstanding (R117): the start of its timer and the sequence number of its PIERCE. -/
structure Pierce where
  start : Word
  seq : Byte
deriving DecidableEq, Repr

/-- Burn outcomes (Table 12-12). -/
inductive Outcome
  | done | rejected | checkFailed | formAbort | stopped | abortedHalt | abortedReset | faultAbort
deriving DecidableEq, Repr

/-- STOPPING's pending outcome and the time of its ABORT (R64). -/
structure Stopping where
  outcome : Outcome
  start : Word
deriving DecidableEq, Repr

/-- How the bed's part of a hall reset ended (R167). -/
inductive ResetEnd
  | stopped | other
deriving DecidableEq, Repr

/-- The remark pass that ended in this taking (R108, R109): chosen marks left FAILED, or the pass cut short. -/
inductive RemarkEnd
  | finished (failed : Nat) | early (notDone : Nat)
deriving DecidableEq, Repr

/-- The bed link (R85 to R87). -/
structure BedLink where
  live : Bool
  since : Word
  hold : Bool
  lastFault : Byte
deriving DecidableEq, Repr

/-- The burn ring as the bed keeps it (R41). -/
structure Ring where
  pos : Nat
  taken : Word
  returned : Word
  raised : Word
deriving DecidableEq, Repr

structure Arc where
  high : Nat
  low : Nat
deriving DecidableEq, Repr

structure BedRun where
  state : BedState
  hand : Option Hand
  acc : AccStage
  unl : UnlStage
  ret : Option Return
  pause : Byte
  chk : Option Cursor
  stream : Stream
  marks : Marks
  fetch : Option Fetch
  permit : Bool
  permitAsk : Bool
  tokenAsk : Bool
  readyRpt : Bool
  ready : Bool
  pierce : Option Pierce
  stop : Option Stopping
  remarkEnd : Option RemarkEnd
  resetEnd : Option ResetEnd
  arc : Arc
deriving DecidableEq, Repr

structure Bed where
  lk : BedLink
  ring : Ring
  run : BedRun
deriving DecidableEq, Repr

/-! ## Crane controller -/

/-- Crane states (R142). -/
inductive CraneState
  | idle | dispatched | lifting | travelling | setting | returning | faulted
deriving DecidableEq, Repr

inductive Load
  | unknown | absent | present
deriving DecidableEq, Repr

structure CraneLink where
  live : Bool
  since : Word
  load : Load
  seen : Bool
deriving DecidableEq, Repr

/-- A bed request in the BED bank (R129); `orphan` tells that its bed's order has ended (R130). -/
structure BedReq where
  kind : ReqKind
  ix : Nat
  plate : Nat
  dest : Loc
  inFlight : Bool
  orphan : Bool
deriving DecidableEq, Repr

/-- A posting or withdrawal on its way to the crane controller (R130). -/
inductive Post
  | post (r : BedReq) | withdraw
deriving DecidableEq, Repr

/-- Where a host order of the STOCK bank stands (R129, R132, R136). -/
inductive OrderStage
  | reading | queued | inFlight | failed | returning
deriving DecidableEq, Repr

structure StockOrder where
  idx : Nat
  addr : Nat
  order : Raw
  ix : Nat
  dest : Loc
  age : Nat
  stage : OrderStage
deriving DecidableEq, Repr

/-- The move in flight or failed move (R140, R151): `live` tells that its request still stands in its bank (R153, R155),
`reserves` that the stock unit keeps its reservations (R31; a hall reset and a commit end them all), `phase` is the phase in
which a failed move failed. -/
structure Move where
  id : Byte
  kind : ReqKind
  req : ReqId
  live : Bool
  ix : Nat
  plate : Nat
  src : Loc
  dst : Loc
  expected : Option Nat
  measured : Option Nat
  abort : Bool
  turned : Bool
  massBad : Bool
  confirmed : Bool
  lifted : Bool
  zones : List BedId
  reserves : Bool
  phase : Option CraneState
deriving DecidableEq, Repr

structure Crane where
  state : CraneState
  lk : CraneLink
  bank : PerBed (List BedReq)
  inbox : PerBed (List Post)
  stock : List StockOrder
  ringPos : Nat
  taken : Word
  returned : Word
  raised : Word
  ownRead : Bool
  move : Option Move
  nextId : Byte
  refusals : Nat
  lastServed : BedId
  lastFault : Byte
  moved : Word
  cancelled : Word
  faulted : Word
  mismatched : Word
  phaseSince : Word
  /-- The crane's part of a hall reset in progress, and the time of its start (R155). -/
  resetAt : Option Word
  resetEnded : Bool
  loadedStands : Bool
deriving DecidableEq, Repr

/-! ## Outputs and the whole -/

/-- What the part put on its ports in the latest taking (log 6). -/
inductive Output
  | sspDone | sspData (data : Line) | sspRetry | sspRefused
  | msp (t : Transaction)
  | step (b : BedId) (seq : Byte) (s : Step)
  | pause (b : BedId) | resume (b : BedId) | abort (b : BedId)
  | mark (b : BedId) (i : Nat) (text : List Byte) (x y rotation height : Nat)
  | craneMove (id : Byte) (src dst : Loc) (expected : Option Nat)
  | craneAbort (id : Byte)
deriving DecidableEq, Repr

structure State where
  /-- Hall clock in ms (R216). -/
  clock : Word
  /-- Commands waiting to be taken, first in, first out (the model's own). -/
  pending : List Instr
  /-- Outputs of the latest taking (the model's own). -/
  out : List Output
  path : Path
  engine : Engine
  loader : Loader
  cmd : CmdEngine
  faults : Faults
  stock : Stock
  locks : Locks
  arb : Arbiter
  beds : PerBed Bed
  zones : PerBed Zone
  crane : Crane
deriving DecidableEq, Repr

/-! ## Values after hard reset -/

/-- The same value for every bed. -/
abbrev PerBed.const {α : Type} (a : α) : PerBed α := ⟨a, a, a, a⟩

abbrev Cursor.start : Cursor := ⟨0, none, ⟨0, 0, false⟩, []⟩

/-- Stream state after hard reset and whenever it is cleared (R97). -/
abbrev Stream.empty : Stream :=
  { fifo := [], nextLine := 0, cursor := .start, held := none, window := [], resend := [], seq := 0, anySent := false,
    endSent := false, pierceSent := false, steps := 0, exX := 0, exY := 0, exArc := false, lastPierce := none,
    synth := false, pausing := false, form := none, fromMarking := false, arcAtPause := false }

/-- Marking state after hard reset (R111). -/
abbrev Marks.empty : Marks :=
  { table := [], begun := false, cursor := 0, limit := none, pass := none, heatAsk := none, formFail := none }

/-- A bed controller after hard reset (R71, R97, R111, R128; log 28). -/
abbrev BedRun.reset : BedRun :=
  { state := .stopped, hand := none, acc := .element, unl := .creation, ret := none, pause := 0, chk := none,
    stream := .empty, marks := .empty, fetch := none, permit := false, permitAsk := false, tokenAsk := false,
    readyRpt := false, ready := false, pierce := none, stop := none, remarkEnd := none, resetEnd := none, arc := ⟨0, 0⟩ }
abbrev Bed.reset : Bed := ⟨⟨false, 0, false, 0⟩, ⟨0, 0, 0, 0⟩, .reset⟩

/-- R197. -/
abbrev Path.reset : Path :=
  { memReady := false, ssp := [], held := [], fwd := none, msp := none, brackets := [], log := [], logTotal := 0,
    violElement := 0, violRange := 0, violTable := 0, violArea := 0, violAnchor := 0, retries := 0, expired := 0,
    lastUrgent := .b3, lastFetch := .b3, lastSide := .engine }

abbrev FaultGroup.clear : FaultGroup := ⟨0, 0, false⟩

/-- R157. -/
abbrev Crane.reset : Crane :=
  { state := .idle, lk := ⟨false, 0, .unknown, false⟩, bank := .const [], inbox := .const [], stock := [], ringPos := 0,
    taken := 0, returned := 0, raised := 0, ownRead := false, move := none, nextId := 1, refusals := 0, lastServed := .b3,
    lastFault := 0, moved := 0, cancelled := 0, faulted := 0, mismatched := 0, phaseSince := 0, resetAt := none,
    resetEnded := false, loadedStands := false }

/-- Bases of the anchor block by the straps AS1, AS0 (00_scope, "Lines and strap pins"). -/
abbrev strapBase (as1 as0 : Bool) : Nat :=
  match as1, as0 with
  | false, false => 0
  | false, true => 0x10000
  | true, false => 0x1000000
  | true, true => 0xFFF0000

/-- The permit arbiter with its pool and nothing held, waiting or offered (R112, R115). -/
abbrev Arbiter.empty (pool : Option Nat) : Arbiter :=
  { pool := pool, holders := [], waits := [], grants := [], ended := [], token := none, tokenWaits := [], offer := none,
    offerLeft := false }

/-- The machine right after a hard reset with the straps at the given levels. -/
def State.hardReset (as1 as0 : Bool) : State :=
  { clock := 0, pending := [], out := [], path := .reset,
    engine := { queue := [], cur := none, refused := [], deferred := [], nextTicket := 0 },
    loader := { base := strapBase as1 as0, inForce := none, verdict := none, commitNo := 0, commitVal := 0,
                pendingCommit := none, ver := none },
    cmd := { mode := .startUp, origin := .none, torch := [], current := none, owed := none, resultNo := 0, haltBurn := 0,
             haltCrane := 0, resetStopped := 0, resetOther := 0, snapNo := 0, snapshot := [] },
    faults := { beds := .const .clear, crane := .clear, hall := .clear, owed := false, pending := 0, mask := 0, watch := none },
    stock := { table := [], reservedIds := [], tokenCtr := 1, waiters := [], slotRes := [], overRes := [], infeedRes := none,
               releases := [], created := 0, toRack := 0, toOverflow := 0, scrapped := 0, unregistered := 0 },
    locks := { entries := [], waits := [] },
    arb := .empty none,
    beds := .const .reset, zones := .const .free, crane := .reset }

/-- The machine right after reset: straps low (DESIGN CHOICE, log 1). -/
def State.reset : State := State.hardReset false false

end Sys2Proof.Machine
end

