-- ==== Sys2Proof/Machine/Operands.lean ====
section
/-!
DEFINITION. Sys2Proof/Machine/Operands.lean: the record layouts of chapter 12, read and composed (R217, Tables 12-2 to 12-12).
-/
namespace Sys2Proof.Machine

/-! ## Fields (R217) -/

/-- The `n`-byte little-endian field at byte offset `off` of a record held as a number. -/
def fld (x off n : Nat) : Nat := (x >>> (8 * off)) % 2 ^ (8 * n)
/-- The number whose `n`-byte field at `off` is `v` and whose other bytes are 0. -/
def put (off n v : Nat) : Nat := (v % 2 ^ (8 * n)) <<< (8 * off)
def bit (x i : Nat) : Bool := (x >>> i) % 2 == 1
/-- A signed 32-bit number. -/
def s32 (n : Nat) : Int := if n < 2 ^ 31 then n else (n : Int) - 2 ^ 32
/-- Bytes `off` to `off + n - 1` as ones. -/
def ones (off n : Nat) : Nat := put off n (2 ^ (8 * n) - 1)
/-- Every byte of an `n`-byte record outside the fields listed is 0. -/
def zeroBut (x n : Nat) (used : List (Nat × Nat)) : Bool :=
  used.foldl (fun y u => y - put u.1 u.2 (fld x u.1 u.2)) (x % 2 ^ (8 * n)) == 0
def word (n : Nat) : Word := BitVec.ofNat 32 n
def byte (n : Nat) : Byte := BitVec.ofNat 8 n
def lineOf (n : Nat) : Line := BitVec.ofNat 512 n

/-! ## Beds -/

def bedIds : List BedId := [.b0, .b1, .b2, .b3]
def bedNum : BedId → Nat
  | .b0 => 0 | .b1 => 1 | .b2 => 2 | .b3 => 3
def bedOf? : Nat → Option BedId
  | 0 => some .b0 | 1 => some .b1 | 2 => some .b2 | 3 => some .b3 | _ => none
/-- The bed after `b` in the order B0, B1, B2, B3, B0. -/
def bedNext : BedId → BedId
  | .b0 => .b1 | .b1 => .b2 | .b2 => .b3 | .b3 => .b0
/-- The four beds in round-robin order after `b`. -/
def bedsAfter (b : BedId) : List BedId :=
  [bedNext b, bedNext (bedNext b), bedNext (bedNext (bedNext b)), b]
def PerBed.get {α : Type} (p : PerBed α) : BedId → α
  | .b0 => p.b0 | .b1 => p.b1 | .b2 => p.b2 | .b3 => p.b3
def PerBed.set {α : Type} (p : PerBed α) (b : BedId) (a : α) : PerBed α :=
  match b with
  | .b0 => { p with b0 := a } | .b1 => { p with b1 := a } | .b2 => { p with b2 := a } | .b3 => { p with b3 := a }

/-! ## Encodings (Table 12-12) -/

def Loc.num : Loc → Nat × Nat
  | .none => (0, 0) | .infeed l => (1, l) | .bed b => (2, bedNum b) | .crane => (3, 0) | .rack n => (4, n)
  | .overflow => (5, 0) | .scrap => (6, 0) | .lost => (7, 0)
def PlateState.num : PlateState → Nat
  | .empty => 0 | .stock => 1 | .skeleton => 2 | .lost => 3
def Claim.num : Claim → Nat
  | .none => 0 | .burn _ => 1 | .lift _ => 2 | .hold _ _ => 3
def Claim.holder : Claim → Nat
  | .none => 0 | .burn b => bedNum b | .lift e => e | .hold t _ => t.toNat
def Claim.expiry : Claim → Nat
  | .hold _ e => e.toNat | _ => 0
def BedState.num : BedState → Nat
  | .absent => 0 | .stopped => 1 | .waiting => 2 | .accepting => 3 | .checking => 4 | .staging => 5 | .marking => 6
  | .burning => 7 | .paused => 8 | .unloading => 9 | .stopping => 10 | .faulted => 11
def Zone.num : Zone → Nat
  | .free => 0 | .torch => 1 | .crane => 2
def MarkState.num : MarkState → Nat
  | .pending => 0 | .sent => 1 | .done => 2 | .failed => 3 | .waived => 4
def MarkCause.num : MarkCause → Nat
  | .none => 0 | .replyFail => 1 | .timeout => 2 | .noHeat => 3
def CraneState.num : CraneState → Nat
  | .idle => 0 | .dispatched => 1 | .lifting => 2 | .travelling => 3 | .setting => 4 | .returning => 5 | .faulted => 6
def Load.num : Load → Nat
  | .unknown => 0 | .absent => 1 | .present => 2
def ReqKind.num : ReqKind → Nat
  | .loadBed => 1 | .remnantOut => 2 | .skeletonOut => 3 | .move => 4
def CraneCause.num : CraneCause → Nat
  | .loadDrop => 1 | .blocked => 2 | .drive => 3
def Mode.num : Mode → Nat
  | .startUp => 0 | .halt => 1 | .run => 2 | .hold => 3 | .halting => 4 | .resetting => 5
def Origin.num : Origin → Nat
  | .none => 0 | .command => 1 | .hostWatch => 2
def VCause.num : VCause → Nat
  | .element => 1 | .range => 2 | .table => 3 | .area => 4 | .anchor => 5
def Outcome.num : Outcome → Nat
  | .done => 0 | .rejected => 1 | .checkFailed => 2 | .formAbort => 3 | .stopped => 4 | .abortedHalt => 5
  | .abortedReset => 6 | .faultAbort => 7
def RemnantResult.num : RemnantResult → Nat
  | .none => 0 | .rack _ => 1 | .overflow => 2 | .scrapped => 3 | .notRegistered => 4
def RemnantResult.slot : RemnantResult → Nat
  | .rack n => n | _ => 0

/-! ## Burn order element (Table 12-8) -/

def ISSUED : Nat := 1
def TAKEN : Nat := 2
def RETURNED : Nat := 3

def ordOwner (l : Line) : Nat := fld l.toNat 0 4
def ordAttn (l : Line) : Bool := bit (fld l.toNat 4 1) 0
def ordPartsHold (l : Line) : Bool := bit (fld l.toNat 4 1) 1
def ordStrict (l : Line) : Bool := fld l.toNat 5 1 == 0
def ordFull (l : Line) : Bool := fld l.toNat 6 1 == 1
def ordTag (l : Line) : Nat := fld l.toNat 8 4
def ordPlate (l : Line) : Nat := fld l.toNat 0xC 2
def ordToken (l : Line) : BitVec 16 := BitVec.ofNat 16 (fld l.toNat 0xE 2)
def ordSteps (l : Line) : Nat := fld l.toNat 0x10 2
def ordMarks (l : Line) : Nat := fld l.toNat 0x12 1
def ordSegAddr (l : Line) : Nat := fld l.toNat 0x14 4
def ordMarkAddr (l : Line) : Nat := fld l.toNat 0x18 4
def ordDescAddr (l : Line) : Nat := fld l.toNat 0x1C 4
/-- Burn detail codes of Table 12-12. -/
def detailDefined (n : Nat) : Bool := n ≤ 13 || (16 ≤ n && n ≤ 30) || (32 ≤ n && n ≤ 36)
/-- The enumerations and flags of the result fields, as the host left them, that Table 12-12 does not define (log 53). -/
def ordResultBad (l : Line) : Bool :=
  8 ≤ fld l.toNat 0x20 1 || !detailDefined (fld l.toNat 0x21 1) || 5 ≤ fld l.toNat 0x22 1 || 2 ≤ fld l.toNat 0x23 1
/-- Check 1 of R48, RESERVED_SET (R217). -/
def ordReservedSet (l : Line) : Bool :=
  fld l.toNat 7 1 != 0 || fld l.toNat 0x13 1 != 0 || fld l.toNat 0x2F 1 != 0 || fld l.toNat 0x34 12 != 0 ||
    4 ≤ fld l.toNat 4 1 || 2 ≤ fld l.toNat 5 1 || 2 ≤ fld l.toNat 6 1 || ordResultBad l

/-! ## Crane order element (Table 12-9) -/

def crOwner (r : Raw) : Nat := fld r.toNat 0 4
def crAttn (r : Raw) : Bool := bit (fld r.toNat 4 1) 0
def crKind (r : Raw) : Nat := fld r.toNat 5 1
def crNum (r : Raw) : Nat := fld r.toNat 6 1
def crPlate (r : Raw) : Nat := fld r.toNat 0xC 2
def crToken (r : Raw) : BitVec 16 := BitVec.ofNat 16 (fld r.toNat 0xE 2)
/-- Crane order outcomes of Table 12-12. -/
def crOutcomeDefined (n : Nat) : Bool := n ≤ 13 || (16 ≤ n && n ≤ 20)
/-- Check 1 of R134: reserved fields, destination kind 1..6, number 0 where 0 is required (R133), the enumerations of the result
fields (R217; log 53). -/
def crReservedSet (r : Raw) : Bool :=
  fld r.toNat 7 1 != 0 || fld r.toNat 0x10 4 != 0 || fld r.toNat 0x17 1 != 0 || fld r.toNat 0x1C 4 != 0 ||
    2 ≤ fld r.toNat 4 1 || crKind r == 0 || 7 ≤ crKind r || (crKind r != 1 && crKind r != 3 && crNum r != 0) ||
    !crOutcomeDefined (fld r.toNat 0x14 1) || 8 ≤ fld r.toNat 0x15 1

/-! ## Characters (R217) -/

/-- Label and heat number characters: A to Z, 0 to 9, "-", "/", "." (R2, R99). -/
def labelChar (c : Nat) : Bool := (0x2D ≤ c && c ≤ 0x39) || (0x41 ≤ c && c ≤ 0x5A)
def chars (x n : Nat) : List Nat := (List.range n).map (fun k => fld x k 1)
/-- A heat number of `n` characters (R2). -/
def heatOk (x n : Nat) : Bool := n ≤ 12 && (chars x n).all labelChar
/-- A grade of eight characters, not all spaces (R2). -/
def gradeOk (x : Nat) : Bool := (chars x 8).all (fun c => 0x20 ≤ c && c ≤ 0x7E) && (chars x 8).any (· != 0x20)

/-! ## Plate record (Table 12-10) -/

def Plate.blank : Plate :=
  { st := .empty, remnant := false, loc := .none, claim := .none, suspect := false, id := 0, parent := 0, thickness := 0,
    length := 0, width := 0, heatLen := 0, heat := 0, outline := [], mass := 0, regTime := 0, grade := 0 }

/-- The two lines of a record; an EMPTY record is all zero (R2). -/
def Plate.lines (p : Plate) : List Line :=
  let l0 := put 0 1 p.st.num + put 1 1 p.remnant.toNat + put 2 1 p.loc.num.1 + put 3 1 p.loc.num.2 + put 4 1 p.claim.num +
    put 5 1 p.suspect.toNat + put 6 2 p.claim.holder + put 8 2 p.id + put 0xA 2 p.parent + put 0xC 2 p.thickness +
    put 0xE 2 p.length + put 0x10 2 p.width + put 0x12 1 p.heatLen + put 0x13 1 p.outline.length + put 0x14 4 p.mass +
    put 0x18 4 p.claim.expiry + put 0x1C 4 p.regTime.toNat + put 0x20 8 p.grade.toNat + put 0x28 12 p.heat.toNat
  let l1 := ((p.outline.take 12).foldr (fun v acc => put 0 2 v.1 + put 2 2 v.2 + put 4 60 acc) 0)
  [lineOf l0, lineOf l1]

/-- A location kind and number of a record (R4, R203). -/
def locOf? (kind num : Nat) : Option Loc :=
  match kind with
  | 1 => if 1 ≤ num && num ≤ 4 then some (.infeed num) else none
  | 2 => (bedOf? num).map .bed
  | 3 => if num == 0 then some .crane else none
  | 4 => if num < 64 then some (.rack num) else none
  | 5 => if num == 0 then some .overflow else none
  | _ => none

/-- Vertices of an outline held from byte offset `off` (Table 12-10, Table 12-11). -/
def vertices (x off n : Nat) : List (Nat × Nat) :=
  (List.range n).map (fun k => (fld x (off + 4 * k) 2, fld x (off + 4 * k + 2) 2))

/-- A record as the table scan judges it (R203); the claim, its holder and expiry are not judged and come out NONE.
Flags, reserved bytes, the bytes behind the heat number's count, the vertices behind the vertex count and the ranges of vertices are
not judged; such a byte is not taken into the image, which holds it as 0 (the model's reading, log 26). -/
def Plate.scan? (a b : Line) : Option Plate :=
  let x := a.toNat
  let st := fld x 0 1
  if st == 0 then some .blank else
  match locOf? (fld x 2 1) (fld x 3 1) with
  | none => none
  | some loc =>
    let n := fld x 0x12 1
    let v := fld x 0x13 1
    if st ≤ 3 && fld x 1 1 ≤ 1 && 1 ≤ fld x 8 2 && 30 ≤ fld x 0xC 2 && fld x 0xC 2 ≤ 1500 && 1 ≤ fld x 0xE 2 &&
        fld x 0xE 2 ≤ 24000 && 1 ≤ fld x 0x10 2 && fld x 0x10 2 ≤ 4000 && heatOk (fld x 0x28 12) n &&
        (v == 0 || (3 ≤ v && v ≤ 12)) && 1 ≤ fld x 0x14 4 && fld x 0x14 4 ≤ 1000000 && gradeOk (fld x 0x20 8) then
      some { st := if st == 1 then .stock else if st == 2 then .skeleton else .lost, remnant := fld x 1 1 == 1, loc := loc,
             claim := .none, suspect := bit (fld x 5 1) 0, id := fld x 8 2, parent := fld x 0xA 2, thickness := fld x 0xC 2,
             length := fld x 0xE 2, width := fld x 0x10 2, heatLen := n, heat := BitVec.ofNat 96 (fld x 0x28 n),
             outline := vertices b.toNat 0 v, mass := fld x 0x14 4, regTime := word (fld x 0x1C 4),
             grade := BitVec.ofNat 64 (fld x 0x20 8) }
    else none

/-- A piece located at a place: STOCK or SKELETON (R3). -/
def Plate.located (p : Plate) : Bool := p.st == .stock || p.st == .skeleton

/-! ## Steps, marks, descriptors (Table 12-11) -/

/-- The bytes each kind uses (Table 12-11); `none` for an unknown kind. -/
def stepUsed : Nat → Option (List (Nat × Nat))
  | 1 => some [(0, 1), (4, 8)]
  | 2 => some [(0, 1), (0x14, 2), (0x16, 2)]
  | 3 => some [(0, 1), (2, 1), (4, 8), (0x14, 2)]
  | 4 => some [(0, 1), (1, 1), (2, 1), (4, 16), (0x14, 2)]
  | 5 => some [(0, 1)]
  | 6 => some [(0, 1), (4, 8), (0x14, 1), (0x16, 1)]
  | 7 => some [(0, 1)]
  | _ => none
def rawKind (r : Raw) : Nat := fld r.toNat 0 1
/-- Check 2 of R74, STEP_RESERVED. -/
def stepReserved (r : Raw) : Bool :=
  match stepUsed (rawKind r) with
  | none => false
  | some u => !zeroBut r.toNat 32 u || (rawKind r == 4 && fld r.toNat 1 1 != 1 && fld r.toNat 1 1 != 2)
/-- The frees-part index of a LINE or ARC. -/
def rawFrees (r : Raw) : Option Nat :=
  if (rawKind r == 3 || rawKind r == 4) && fld r.toNat 2 1 != 0 then some (fld r.toNat 2 1 - 1) else none
/-- A list step, unshifted. -/
def stepOf (r : Raw) : Step :=
  { kind := rawKind r, dir := fld r.toNat 1 1, frees := rawFrees r, x := s32 (fld r.toNat 4 4), y := s32 (fld r.toNat 8 4),
    i := s32 (fld r.toNat 0xC 4), j := s32 (fld r.toNat 0x10 4), num := fld r.toNat 0x14 2, height := fld r.toNat 0x16 2 }
def repCount (r : Raw) : Nat := fld r.toNat 0x14 1
def repBody (r : Raw) : Nat := fld r.toNat 0x16 1

/-- The two 32-byte records of a line. -/
def lineHalves (l : Line) : Raw × Raw := (BitVec.ofNat 256 (fld l.toNat 0 32), BitVec.ofNat 256 (fld l.toNat 32 32))

def markX (r : Raw) : Nat := fld r.toNat 0 2
def markY (r : Raw) : Nat := fld r.toNat 2 2
def markRot (r : Raw) : Nat := fld r.toNat 4 2
def markHeight (r : Raw) : Nat := fld r.toNat 6 1
def markAddHeat (r : Raw) : Bool := bit (fld r.toNat 7 1) 0
def markLen (r : Raw) : Nat := fld r.toNat 8 1
/-- The condition a mark entry breaks, by its number in Table 12-12, on a plate of length `len` and width `wid` (R99, R100). Of
several the first in the order of those numbers; a label of length above 16 has no tail to judge (the model's choice, log 54). -/
def markForm (r : Raw) (len wid : Nat) : Option Nat :=
  let n := markLen r
  if fld r.toNat 9 7 != 0 || 2 ≤ fld r.toNat 7 1 || (n ≤ 16 && fld r.toNat (0x10 + n) (16 - n) != 0) then some 1
  else if markRot r != 0 && markRot r != 90 && markRot r != 180 && markRot r != 270 then some 2
  else if markHeight r < 5 || 40 < markHeight r then some 3
  else if n < 1 || 16 < n then some 4
  else if !(chars (fld r.toNat 0x10 16) n).all labelChar then some 5
  else if len < markX r || wid < markY r then some 6
  else none

def descId (l : Line) : Nat := fld l.toNat 0 2
def descCount (l : Line) : Nat := fld l.toNat 2 1
def descMass (l : Line) : Nat := fld l.toNat 4 4
def descVertices (l : Line) : List (Nat × Nat) := vertices l.toNat 0x10 (descCount l)
def spread (l : List Nat) : Nat := l.foldl max 0 - l.foldl min 65535
def descLength (l : Line) : Nat := spread ((descVertices l).map (·.1))
def descWidth (l : Line) : Nat := spread ((descVertices l).map (·.2))
/-- The content of a descriptor keeps R34: ranges, reserved bytes and unused vertices 0, a rectangle of some size. -/
def descOk (l : Line) : Bool :=
  1 ≤ descId l && 1 ≤ descMass l && descMass l ≤ 1000000 && 3 ≤ descCount l && descCount l ≤ 12 &&
    (descVertices l).all (fun v => v.1 ≤ 24000 && v.2 ≤ 4000) && 1 ≤ descLength l && 1 ≤ descWidth l &&
    zeroBut l.toNat 64 [(0, 3), (4, 4), (0x10, 4 * descCount l)]

/-! ## Anchor block (Tables 12-2, 12-3) -/

/-- Field of the anchor held as the lines of its field area, in line order. -/
def anchorNat (lines : List Line) : Nat := lines.foldr (fun l acc => l.toNat + acc <<< 512) 0

def bedCfgOf (x n : Nat) : BedCfg :=
  let o := 0x40 + 32 * n
  { present := fld x o 1 == 1, full := fld x (o + 1) 1 == 1, count := fld x (o + 2) 2, base := fld x (o + 4) 4,
    len := fld x (o + 8) 2, wid := fld x (o + 0xA) 2, thick := fld x (o + 0xC) 2, arcHigh := fld x (o + 0xE) 1,
    arcLow := fld x (o + 0xF) 1, arcN := fld x (o + 0x10) 1 }
def classCfgOf (x c : Nat) : ClassCfg :=
  let o := 0xC0 + 8 * c
  { len := fld x o 2, wid := fld x (o + 2) 2, count := fld x (o + 4) 1 }
/-- The anchor as its block gives it. -/
def anchorOf (x : Nat) : Anchor :=
  { memMiB := fld x 0x10 2, control := fld x 0x14 4, table := fld x 0x18 4, capacity := fld x 0x1C 2,
    craneBase := fld x 0x20 4, craneCount := fld x 0x1E 1,
    beds := ⟨bedCfgOf x 0, bedCfgOf x 1, bedCfgOf x 2, bedCfgOf x 3⟩, permits := fld x 0x24 1, tolerance := fld x 0x25 1,
    aging := fld x 0x26 1, retries := fld x 0x27 1, rated := fld x 0x28 4, holdMin := fld x 0x2C 1, watch := fld x 0x2D 1,
    dropDone := fld x 0x2E 1 == 1, alternate := fld x 0x2F 1 == 1, classS := classCfgOf x 0, classM := classCfgOf x 1,
    classL := classCfgOf x 2 }

/-! ## Command parameters (Table 12-7) -/

def par (slot : Line) (off n : Nat) : Nat := fld slot.toNat (0x10 + off) n
/-- Every parameter byte outside the fields listed is 0. -/
def parZeroBut (slot : Line) (used : List (Nat × Nat)) : Bool := zeroBut (fld slot.toNat 0x10 48) 48 used

end Sys2Proof.Machine
end

