-- ==== Sys2Proof/Machine/Flags.lean ====
section
/-!
DEFINITION. Sys2Proof/Machine/Flags.lean: fault flags, combined flags and attention causes (R173 to R180, R212).
-/
namespace Sys2Proof.Machine

/-- A fault group (Table 12-12). -/
inductive Group
  | bed (b : BedId) | crane | hall
deriving DecidableEq, Repr

/-! Detail flag bits (Table 12-12). -/
def fARC_HIGH : Nat := 0
def fARC_LOW : Nat := 1
def fLINK_LOST : Nat := 2
def fPIERCE_FAIL : Nat := 3
def fSTEP_FORM : Nat := 4
def fMARK_FAIL : Nat := 5
def fGANTRY : Nat := 6
def fMEMORY : Nat := 7
def fcLINK_LOST : Nat := 0
def fcTIMEOUT : Nat := 1
def fcLOAD_DROP : Nat := 2
def fcMASS : Nat := 3
def fcREFUSED : Nat := 4
def fcRESET_LOADED : Nat := 5
def fhHOST_SILENT : Nat := 0
def fhWRITE_BACK : Nat := 1
def fhVIOLATION : Nat := 2

/-! Attention cause bits (Table 12-12); RETURN_Bn is bit n. -/
def aRETURN_CRANE : Nat := 4
def aCOMMAND : Nat := 5
def aFAULT : Nat := 6
def aHOLD_EXPIRED : Nat := 7

def setBit (x : Byte) (i : Nat) : Byte := x ||| byte (2 ^ i)
def clearBits (x m : Byte) : Byte := x &&& ~~~m
def hasBit (x : Byte) (i : Nat) : Bool := bit x.toNat i
/-- Members of a set held as bits. -/
def setSize (x : Byte) : Nat := ((List.range 8).filter (hasBit x)).length

def Faults.get (f : Faults) : Group → FaultGroup
  | .bed b => f.beds.get b | .crane => f.crane | .hall => f.hall
def Faults.set (f : Faults) (g : Group) (v : FaultGroup) : Faults :=
  match g with
  | .bed b => { f with beds := f.beds.set b v } | .crane => { f with crane := v } | .hall => { f with hall := v }
/-- The flags a group has (R173). -/
def groupFlags : Group → Byte
  | .bed _ => 0xFF | .crane => 0x3F | .hall => 0x07
def groupOf? (n : Nat) : Option Group :=
  match n with
  | 4 => some .crane | 5 => some .hall | n => (bedOf? n).map .bed

/-- Setting a detail flag (R173, R175, R176): under no mask it sets the combined flag, and a rise of that is owed as FAULT. -/
def Faults.raise (f : Faults) (g : Group) (i : Nat) : Faults :=
  let fg := f.get g
  if hasBit fg.flags i then f else
  let seen := !hasBit fg.masks i
  { f.set g { fg with flags := setBit fg.flags i, comb := fg.comb || seen } with owed := f.owed || (seen && !fg.comb) }

def setFaults (s : State) (f : Faults) : State := { s with faults := f }
def setFlag (s : State) (g : Group) (i : Nat) : State := setFaults s (s.faults.raise g i)
def bedFlag (s : State) (b : BedId) (i : Nat) : State := setFlag s (.bed b) i

/-- Adding a cause to the pending attention set (R212). -/
def addCause (s : State) (i : Nat) : State := setFaults s { s.faults with pending := setBit s.faults.pending i }

/-- The attention line (R212). -/
def attentionLine (s : State) : Bool := clearBits s.faults.pending s.faults.mask != 0

/-- The record engine holds a write that the MSP has refused and has not answered DONE since (R174, R196). -/
def writeBackStands (s : State) : Bool :=
  !s.engine.refused.isEmpty || s.engine.queue.any (·.refused) || (s.engine.cur.map (·.req.refused)).getD false

/-- The persisting conditions of a group that stand (R174). -/
def persisting (s : State) : Group → Byte
  | .bed b =>
    let bd := s.beds.get b
    if bd.run.state != .absent && !bd.lk.live then byte (2 ^ fLINK_LOST) else 0
  | .crane =>
    (if !s.crane.lk.live then byte (2 ^ fcLINK_LOST) else 0) ||| (if s.crane.loadedStands then byte (2 ^ fcRESET_LOADED) else 0)
  | .hall => if writeBackStands s then byte (2 ^ fhWRITE_BACK) else 0

/-- Clearing of the flags at hall reset (R166, R180). -/
def FaultGroup.reset (g : FaultGroup) : FaultGroup := { g with flags := 0, comb := false }
def Faults.hallReset (f : Faults) : Faults :=
  let loaded := hasBit f.crane.flags fcRESET_LOADED
  let c := f.crane
  { f with
    beds := ⟨f.beds.b0.reset, f.beds.b1.reset, f.beds.b2.reset, f.beds.b3.reset⟩,
    crane := { c with flags := if loaded then byte (2 ^ fcRESET_LOADED) else 0,
                      comb := c.comb && loaded && !hasBit c.masks fcRESET_LOADED },
    hall := f.hall.reset, owed := f.owed, watch := none }

end Sys2Proof.Machine
end

