-- ==== Sys2Proof/Machine/Ops.lean ====
section
/-!
DEFINITION. Sys2Proof/Machine/Ops.lean: the operations the meanings share: the clock, outputs, access to one bed, the record
engine's queue, the plate table image, results of commands.
-/
namespace Sys2Proof.Machine

/-! ## Fields replaced whole -/

def setPath (s : State) (p : Path) : State := { s with path := p }
def setEngine (s : State) (e : Engine) : State := { s with engine := e }
def setLoader (s : State) (l : Loader) : State := { s with loader := l }
def setCmd (s : State) (k : CmdEngine) : State := { s with cmd := k }
def setStock (s : State) (k : Stock) : State := { s with stock := k }
def setLocks (s : State) (l : Locks) : State := { s with locks := l }
def setArb (s : State) (a : Arbiter) : State := { s with arb := a }
def setCrane (s : State) (c : Crane) : State := { s with crane := c }

/-! ## Clock and outputs -/

/-- One millisecond passes (R216; log 2). -/
def tick (s : State) : State := { s with clock := s.clock + 1, out := [] }
/-- A timer started at `start` has run for `limit` ms (R216; log 4). -/
def due (s : State) (start : Word) (limit : Nat) : Bool := limit ≤ (s.clock - start).toNat
/-- Outputs belong to one taking (log 6). -/
def fresh (s : State) : State := { s with out := [] }
def emit (s : State) (o : Output) : State := { s with out := s.out ++ [o] }

/-! ## Anchor in force -/

def anchor? (s : State) : Option Anchor := s.loader.inForce
/-- A parameter of the anchor in force; `d` where none is in force. -/
def param {α : Type} (s : State) (f : Anchor → α) (d : α) : α := (s.loader.inForce.map f).getD d
def BedCfg.absent : BedCfg :=
  { present := false, full := false, count := 0, base := 0, len := 0, wid := 0, thick := 0, arcHigh := 0, arcLow := 0, arcN := 0 }
def bedCfg (s : State) (b : BedId) : BedCfg := param s (·.beds.get b) .absent

/-! ## One bed -/

def bedOf (s : State) (b : BedId) : Bed := s.beds.get b
def runOf (s : State) (b : BedId) : BedRun := (s.beds.get b).run
def setRun (s : State) (b : BedId) (r : BedRun) : State :=
  { s with beds := s.beds.set b { s.beds.get b with run := r } }
def setLink (s : State) (b : BedId) (l : BedLink) : State :=
  { s with beds := s.beds.set b { s.beds.get b with lk := l } }
def setRing (s : State) (b : BedId) (r : Ring) : State :=
  { s with beds := s.beds.set b { s.beds.get b with ring := r } }
def zoneOf (s : State) (b : BedId) : Zone := s.zones.get b
def setZone (s : State) (b : BedId) (z : Zone) : State := { s with zones := s.zones.set b z }
def isLive (s : State) (b : BedId) : Bool := (bedOf s b).lk.live
/-- The part sends no message on a DOWN link (R85). -/
def sendBed (s : State) (b : BedId) (o : Output) : State := if isLive s b then emit s o else s
def present (s : State) (b : BedId) : Bool := (runOf s b).state != .absent
/-- The plate of the order that a bed holds, if it holds one (R134, R137). -/
def handPlate (s : State) (b : BedId) : Option Nat := (runOf s b).hand.map (fun h => ordPlate h.order)

/-! ## Record engine queue (R194) -/

def push (s : State) (what : ReqOf) (addr : Nat) (data : Line) (enables : BitVec 64) : State :=
  setEngine s { s.engine with
      queue := s.engine.queue ++ [⟨s.engine.nextTicket, what, addr, data, enables, false⟩],
      nextTicket := s.engine.nextTicket + 1 }
def pushRead (s : State) (what : ReqOf) (addr : Nat) : State := push s what addr 0 0
def queued (s : State) (what : ReqOf) : Bool := s.engine.queue.any (·.what == what)
/-- A record has at most one write-back in the queue; a newer image keeps its place (R16, R194; log 9). -/
def pushWb (s : State) (r : RecId) : State :=
  if queued s (.writeBack r) then s else push s (.writeBack r) 0 0 0
/-- A control-area record is written once there is a control area (R172, R205). -/
def pushControl (s : State) (r : RecId) : State := if s.loader.inForce.isSome then pushWb s r else s
/-- The number of the newest request of that kind, queued or begun. -/
def ticketOf (s : State) (what : ReqOf) : Option Nat :=
  match (s.engine.queue.filter (·.what == what)).getLast? with
  | some r => some r.ticket
  | none => match s.engine.cur with
    | some c => if c.req.what == what then some c.req.ticket else none
    | none => none
def defer (s : State) (waits : List Nat) (a : Act) : State :=
  setEngine s { s.engine with deferred := s.engine.deferred ++ [⟨waits, a⟩] }

/-- Byte enables of bytes `off` to `off + n - 1`. -/
def enable (off n : Nat) : BitVec 64 := BitVec.ofNat 64 ((2 ^ n - 1) <<< off)

/-! ## Plate table image (R1, R6, R16) -/

def plateAt (s : State) (i : Nat) : Plate := s.stock.table.getD i .blank
/-- A change of a record's image queues its write-back (R16). -/
def setPlate (s : State) (i : Nat) (p : Plate) : State :=
  pushWb (setStock s { s.stock with table := s.stock.table.set i p }) (.plate i)
/-- The ID index (R6; log 7). -/
def findPlate (s : State) (id : Nat) : Option Nat :=
  if id == 0 then none else
  let i := s.stock.table.findIdx (fun p => p.st != .empty && p.id == id)
  if i < s.stock.table.length then some i else none
/-- A record named by index and plate ID together (R1). -/
def holds (s : State) (i id : Nat) : Bool := (plateAt s i).st != .empty && (plateAt s i).id == id
def lowestEmpty (s : State) : Option Nat :=
  let i := s.stock.table.findIdx (·.st == .empty)
  if i < s.stock.table.length then some i else none
def locatedAt (s : State) (l : Loc) : List Plate := s.stock.table.filter (fun p => p.located && p.loc == l)
def locatedInfeed (s : State) : Nat :=
  (s.stock.table.filter (fun p => p.located && match p.loc with | .infeed _ => true | _ => false)).length
/-- Pieces the infeed counts for room checks (R5). -/
def infeedCount (s : State) : Nat := locatedInfeed s + (if s.stock.infeedRes.isSome then 1 else 0)
/-- Used places of the overflow bay (R30). -/
def overflowUsed (s : State) : Nat := (locatedAt s .overflow).length + s.stock.overRes.length

/-- Every reservation of the request is released (R31). -/
def releaseRes (s : State) (q : ReqId) : State :=
  setStock s { s.stock with slotRes := s.stock.slotRes.filter (·.req != q), overRes := s.stock.overRes.filter (·.req != q),
                            infeedRes := if s.stock.infeedRes == some q then none else s.stock.infeedRes }

/-! ## Rack (R25 to R29) -/

def rackSlots (s : State) : Nat := param s (fun a => a.classS.count + a.classM.count + a.classL.count) 0
def slotClass (a : Anchor) (n : Nat) : ClassCfg :=
  if n < a.classS.count then a.classS else if n < a.classS.count + a.classM.count then a.classM else a.classL
def fits (c : ClassCfg) (len wid : Nat) : Bool := (len ≤ c.len && wid ≤ c.wid) || (wid ≤ c.len && len ≤ c.wid)
def fitsSlot (s : State) (n len wid : Nat) : Bool := param s (fun a => fits (slotClass a n) len wid) false
def slotReserved (s : State) (n : Nat) : Bool := s.stock.slotRes.any (·.slot == n)
def slotFree (s : State) (n : Nat) : Bool := !slotReserved s n && (locatedAt s (.rack n)).isEmpty
/-- FREE slots of the class whose slots are `lo` to `lo + n - 1`. -/
def freeSlots (s : State) (lo n : Nat) : List Nat := ((List.range n).map (lo + ·)).filter (slotFree s)
/-- Automatic slot selection (R28). -/
def autoSlot (s : State) (len wid : Nat) : Option Nat :=
  match s.loader.inForce with
  | none => none
  | some a =>
    let nS := a.classS.count
    let nM := a.classM.count
    let free := (if fits a.classS len wid then freeSlots s 0 nS else []) ++
      (if fits a.classM len wid then freeSlots s nS nM else []) ++
      (if fits a.classL len wid then freeSlots s (nS + nM) a.classL.count else [])
    free.head?

/-! ## Beds, crane and hall at rest -/

/-- A bed reports its torch off (R90, R163). -/
def torchOff (s : State) (b : BedId) : Bool := (runOf s b).state != .burning && (runOf s b).state != .stopping
/-- A dispatched move of the bed runs (R69, R165). -/
def movesFor (s : State) (b : BedId) : Bool :=
  s.crane.state != .faulted &&
    match s.crane.move with
    | some m => (match m.req with | .bed b' _ _ => b' == b | .host _ => false)
    | none => false
/-- A bed reports itself idle (R69, R165); an ABSENT bed is not asked. -/
def bedIdle (s : State) (b : BedId) : Bool :=
  let r := runOf s b
  r.state == .absent || ((r.state == .stopped || r.state == .faulted) && r.ret.isNone && !movesFor s b)
/-- The crane reports itself idle (R154). -/
def craneIdle (s : State) : Bool :=
  (s.crane.state == .idle || s.crane.state == .faulted) && s.crane.stock.all (·.stage == .failed)
/-- A bed has made its part of a hall reset (R167). -/
def bedReset (s : State) (b : BedId) : Bool :=
  let r := runOf s b
  r.state == .absent || (r.resetEnd.isSome && r.ret.isNone)

/-! ## Commands -/

def oDONE : Byte := 0
def oBUSY : Byte := 1
def oMODE : Byte := 2
def oSTATE : Byte := 3
def oPARAM : Byte := 4
def oUNKNOWN : Byte := 5
def oNOT_FOUND : Byte := 6
def oFULL : Byte := 7
def oTOO_LATE : Byte := 8
def oDUPLICATE : Byte := 9

def setStage (s : State) (g : CmdStage) : State :=
  setCmd s { s.cmd with current := s.cmd.current.map (fun c => { c with stage := g }) }
/-- The owner gives the result of the command in execution (R210, R211). -/
def giveWith (s : State) (outcome : Byte) (d1 d2 d3 : Nat) (waits always : List ReqOf) (after : Option BedId) : State :=
  let s := setStage s .ended
  setCmd s { s.cmd with owed := some ⟨outcome, word d1, word d2, word d3, waits, always, after⟩ }
def give (s : State) (outcome : Byte) (d1 d2 d3 : Nat) (waits : List ReqOf) : State := giveWith s outcome d1 d2 d3 waits [] none
/-- A result that is not DONE waits for nothing. -/
def deny (s : State) (outcome : Byte) (d1 d2 : Nat) : State := give s outcome d1 d2 0 []

/-- Result record line (Table 12-6). -/
def resultLine (no : Word) (code : BitVec 16) (target : Byte) (tag : Word) (outcome : Byte) (d1 d2 d3 : Word) : Line :=
  lineOf (put 0 4 no.toNat + put 4 2 code.toNat + put 6 1 target.toNat + put 7 1 outcome.toNat + put 8 4 tag.toNat +
    put 0xC 4 d1.toNat + put 0x10 4 d2.toNat + put 0x14 4 d3.toNat)
/-- One result is handed to the record engine (R211): the result of the command in execution, or of a BUSY trigger. Its address is that
of the control area in force now, also where a commit moves the area before it is written (the model's choice, log 84). -/
def pushResultAs (s : State) (what : ReqOf) (code : BitVec 16) (target : Byte) (tag : Word) (outcome : Byte) (d1 d2 d3 : Word) : State :=
  let no := s.cmd.resultNo + 1
  let s := setCmd s { s.cmd with resultNo := no }
  push s what (param s (·.control) 0 + 0x80) (resultLine no code target tag outcome d1 d2 d3) (enable 0 64)
def pushResult (s : State) (code : BitVec 16) (target : Byte) (tag : Word) (outcome : Byte) (d1 d2 d3 : Word) : State :=
  pushResultAs s .result code target tag outcome d1 d2 d3

/-- The host watch restarts from the full window on a valid event (R168). -/
def watchEvent (s : State) : State :=
  setFaults s { s.faults with watch := s.faults.watch.map (fun _ => s.clock) }
/-- The host watch starts with the window of the anchor in force (R169); with window OFF it does not run. -/
def watchStart (s : State) : State :=
  setFaults s { s.faults with watch := if param s (·.watch) 0 == 0 then none else some s.clock }
/-- Host watch windows in ms (Table 12-12). -/
def watchMs (n : Nat) : Nat := match n with | 1 => 200 | 2 => 1000 | 3 => 5000 | _ => 0

end Sys2Proof.Machine
end

