-- ==== Sys2Proof/Machine/Stream.lean ====
section
/-!
DEFINITION. Sys2Proof/Machine/Stream.lean: form checks, the expansion of REPEAT, and the cursor over a segment list
(R72 to R77, R80, R81).
-/
namespace Sys2Proof.Machine

/-- What the form checks judge against (R73, R74): plate and bed in mm, thickness, mark count, step count. -/
structure FormCfg where
  plateLen : Nat
  plateWid : Nat
  thickness : Nat
  bedLen : Nat
  bedWid : Nat
  marks : Nat
  steps : Nat
deriving DecidableEq, Repr

def formCfg (s : State) (b : BedId) (h : Hand) : FormCfg :=
  let c := bedCfg s b
  let k := h.look.getD ⟨0, 0, 0, 0, false⟩
  { plateLen := k.length, plateWid := k.width, thickness := k.thickness, bedLen := c.len, bedWid := c.wid,
    marks := ordMarks h.order, steps := ordSteps h.order }

def kRAPID : Nat := 1
def kPIERCE : Nat := 2
def kLINE : Nat := 3
def kARC : Nat := 4
def kTORCH_OFF : Nat := 5
def kREPEAT : Nat := 6
def kEND : Nat := 7

def isCut (k : Nat) : Bool := k == kLINE || k == kARC
def hasPoint (k : Nat) : Bool := k == kRAPID || isCut k

/-- Outside the rectangle 0..100·len by 0..100·wid, grown by `slack` (R73, R74). -/
def outside (x y : Int) (len wid : Nat) (slack : Int) : Bool :=
  x < -slack || (100 * len : Int) + slack < x || y < -slack || (100 * wid : Int) + slack < y

/-- Radii whose squares are `a` and `b` differ by more than 50 units. -/
def radiiApart (a b : Int) : Bool :=
  let hi := max a b
  let lo := min a b
  let d := hi - lo - 2500
  0 < d && 10000 * lo < d * d

/-- Check 8 of R74. -/
def arcBad (g : Geo) (t : Step) : Bool :=
  let a := t.i * t.i + t.j * t.j
  let ex := t.x - (g.x + t.i)
  let ey := t.y - (g.y + t.j)
  a == 0 || radiiApart a (ex * ex + ey * ey)

/-- Checks 3 to 10 of R74, for a list step or a repetition's step, with check 14. -/
def geoCheck (c : FormCfg) (g : Geo) (t : Step) : Option Nat :=
  if isCut t.kind && !g.arc then some 18
  else if t.kind == kPIERCE && g.arc then some 19
  else if t.kind == kRAPID && g.arc then some 20
  else if hasPoint t.kind && outside t.x t.y c.bedLen c.bedWid 0 then some 21
  else if isCut t.kind && outside t.x t.y c.plateLen c.plateWid 2000 then some 22
  else if t.kind == kPIERCE && outside g.x g.y c.plateLen c.plateWid 2000 then some 22
  else if t.kind == kARC && arcBad g t then some 23
  else if isCut t.kind && (t.num < 50 || 12000 < t.num) then some 24
  else if t.kind == kPIERCE && (5000 < t.num || (t.num == 0 && 60 < c.thickness)) then some 25
  else none
def freeCheck (c : FormCfg) (t : Step) : Option Nat :=
  match t.frees with
  | some f => if c.marks ≤ f then some 29 else none
  | none => none

/-- The body of a REPEAT at list index `m`, from the recent buffer (R75, R80). -/
def bodyOf (recent : List (Nat × Raw)) (m k : Nat) : List Raw :=
  (recent.filter (fun p => m - k ≤ p.1 && p.1 < m)).map (·.2)
/-- Checks 11 to 13 of R74. -/
def repeatCheck (recent : List (Nat × Raw)) (m : Nat) (r : Raw) : Option Nat :=
  let k := repBody r
  let body := bodyOf recent m k
  if k == 0 || 32 < k || m < k || repCount r == 0 then some 26
  else if body.any (fun q => rawKind q == kREPEAT || rawKind q == kEND) then some 27
  else if (body.head?.map rawKind) != some kRAPID || (body.getLast?.map rawKind) != some kTORCH_OFF then some 28
  else none

/-- The form code of the list step `r` at index `m` (R74): the first check that fails, codes 16 to 30. -/
def formCode (c : FormCfg) (g : Geo) (recent : List (Nat × Raw)) (m : Nat) (r : Raw) : Option Nat :=
  if (stepUsed (rawKind r)).isNone then some 16
  else if stepReserved r then some 17
  else (geoCheck c g (stepOf r)).or <|
    (if rawKind r == kREPEAT then repeatCheck recent m r else none).or <|
    (freeCheck c (stepOf r)).or
    (if (rawKind r == kEND) != (m + 1 == c.steps) then some 30 else none)

/-- A valid step's effect on the geometry state (R73). -/
def geoStep (g : Geo) (t : Step) : Geo :=
  { x := if hasPoint t.kind then t.x else g.x, y := if hasPoint t.kind then t.y else g.y,
    arc := if t.kind == kPIERCE then true else if t.kind == kTORCH_OFF then false else g.arc }

def remember (recent : List (Nat × Raw)) (i : Nat) (r : Raw) : List (Nat × Raw) :=
  let l := recent ++ [(i, r)]
  l.drop (l.length - Config.recent)

/-- The step of repetition `e.rep`, body position `e.pos` (R75). -/
def bodyStep (recent : List (Nat × Raw)) (e : Expansion) : Option Step :=
  let body := bodyOf recent e.m e.k
  let n := (body.filter (fun r => (rawFrees r).isSome)).length
  (body[e.pos]?).map fun r =>
    let t := stepOf r
    { t with x := if hasPoint t.kind then t.x + e.rep * e.dx else t.x,
             y := if hasPoint t.kind then t.y + e.rep * e.dy else t.y,
             frees := t.frees.map (· + e.rep * n) }

/-- What drawing once gives: nothing to draw, a REPEAT taken up, a step, or an invalid step. -/
inductive Drawn
  | wait | taken | step (e : Entry) | bad (f : FormStop)
deriving DecidableEq, Repr

/-- Draw once (R75, R80, R81): `next` is the head of the FIFO; the Bool tells whether it was drawn. A list step but a REPEAT enters
the recent buffer when it is drawn, an invalid one too (R80); an invalid list step leaves the FIFO, and the cursor's place stays on
it (R77; the model's choice, log 71). -/
def draw (c : FormCfg) (judge : Bool) (u : Cursor) (next : Option Raw) : Drawn × Cursor × Bool :=
  match u.exp with
  | some e =>
    match bodyStep u.recent e with
    | none => (.wait, u, false)
    | some t =>
      let idx := e.m - e.k + e.pos
      match (if judge then (geoCheck c u.geo t).or (freeCheck c t) else none) with
      | some code => (.bad ⟨idx, e.rep, code⟩, u, false)
      | none =>
        let geo := geoStep u.geo t
        let out := Drawn.step ⟨idx, e.rep, t, 0, false⟩
        if e.pos + 1 < e.k then (out, { u with geo := geo, exp := some { e with pos := e.pos + 1 } }, false)
        else if e.rep < e.n then (out, { u with geo := geo, exp := some { e with pos := 0, rep := e.rep + 1 } }, false)
        else (out, { idx := e.m + 1, exp := none, geo := geo, recent := remember u.recent e.m e.raw }, false)
  | none =>
    match next with
    | none => (.wait, u, false)
    | some r =>
      match (if judge then formCode c u.geo u.recent u.idx r else none) with
      | some code =>
        (.bad ⟨u.idx, 0, code⟩, { u with recent := if rawKind r == kREPEAT then u.recent else remember u.recent u.idx r }, true)
      | none =>
        let t := stepOf r
        if rawKind r == kREPEAT then
          (.taken, { u with exp := some { raw := r, m := u.idx, k := repBody r, n := repCount r, dx := t.x, dy := t.y,
                                          rep := 1, pos := 0 } }, true)
        else
          (.step ⟨u.idx, 0, t, 0, false⟩,
           { idx := u.idx + 1, exp := none, geo := geoStep u.geo t, recent := remember u.recent u.idx r }, true)

/-- The whole-list check of the steps of one line (R55): draws until the steps are used up. Fuel: a repetition draws at
most 32 × 255 steps. -/
def checkRun (c : FormCfg) : Nat → Cursor → List Raw → Cursor × Option FormStop
  | 0, u, _ => (u, none)
  | fuel + 1, u, steps =>
    match draw c true u steps.head? with
    | (.wait, u', _) => (u', none)
    | (.bad f, u', _) => (u', some f)
    | (_, u', used) => checkRun c fuel u' (if used then steps.tail else steps)

/-- List index and repetition number of the cursor's next step (R81). -/
def Cursor.place (u : Cursor) : Nat × Nat :=
  match u.exp with
  | some e => (e.m - e.k + e.pos, e.rep)
  | none => (u.idx, 0)
/-- The kind of the cursor's next step, where it is known (R94). -/
def peekKind (u : Cursor) (fifo : List Raw) : Option Nat :=
  match u.exp with
  | some e => (bodyStep u.recent e).map (·.kind)
  | none => fifo.head?.map rawKind

/-- The first step not confirmed done (R83). -/
def firstUndone (t : Stream) : Nat × Nat :=
  match t.window.filter (!·.synth) ++ t.resend ++ t.held.toList with
  | e :: _ => (e.idx, e.rep)
  | [] => t.cursor.place

/-- The step that comes first after a pause (R94): its kind and place. -/
def firstAfterPause (t : Stream) : Option (Nat × Nat × Nat) :=
  match t.resend ++ t.held.toList with
  | e :: _ => some (e.step.kind, e.idx, e.rep)
  | [] => (peekKind t.cursor t.fifo).map fun k => (k, t.cursor.place)

/-- The synthetic PIERCE that is due (R94; log 27): none where the first step after the pause is itself a PIERCE, as a synthetic
one back in the resend list is. -/
def synthDue (t : Stream) : Option Entry :=
  if t.synth then
    match firstAfterPause t, t.lastPierce with
    | some (k, i, r), some p => if isCut k then some (⟨i, r, p, 0, true⟩ : Entry) else none
    | _, _ => none
  else none
/-- A PIERCE to be sent next (R113): the synthetic PIERCE of R94, the head of the resend list, or the held step. -/
def nextPierce (t : Stream) : Option Entry :=
  match synthDue t with
  | some e => some e
  | none => match t.resend ++ t.held.toList with
    | e :: _ => if e.step.kind == kPIERCE then some e else none
    | [] => none
/-- The PIERCE to be sent next leaves the place where it waited. -/
def takePierce (t : Stream) : Stream :=
  if (synthDue t).isSome then { t with synth := false } else
  match t.resend with
  | _ :: rest => { t with resend := rest, synth := false }
  | [] => { t with held := none, synth := false }

end Sys2Proof.Machine
end

