-- ==== Sys2Proof/Machine/Permit.lean ====
section
/-!
DEFINITION. Sys2Proof/Machine/Permit.lean: the permit arbiter (R112 to R121) and the lock table (R52 to R54).
-/
namespace Sys2Proof.Machine

/-! ## Extraction permits -/

def freePermits (a : Arbiter) : Nat := (a.pool.getD 0) - a.holders.length
/-- The examination of the permit wait list (R113), at most one grant per bed. -/
def Arbiter.grant : Nat → Arbiter → Arbiter
  | 0, a => a
  | fuel + 1, a =>
    match a.waits with
    | b :: rest =>
      if a.pool.isSome && 0 < freePermits a then
        Arbiter.grant fuel { a with waits := rest, holders := a.holders ++ [b], grants := a.grants ++ [b] }
      else a
    | [] => a
def arbGrant (s : State) : State := if s.cmd.mode == .run then setArb s (s.arb.grant 4) else s
/-- An offer of the token to the head of its list (R117). -/
def arbOffer (s : State) : State :=
  match s.arb.tokenWaits with
  | b :: _ =>
    if s.cmd.mode == .run && s.arb.token.isNone && s.arb.offer.isNone then setArb s { s.arb with offer := some b } else s
  | [] => s

/-- Release of the token by its holder (R121); the pierce outstanding ends. -/
def releaseToken (s : State) (b : BedId) : State :=
  let s := setRun s b { runOf s b with pierce := none }
  if s.arb.token == some b then arbOffer (setArb s { s.arb with token := none }) else s
/-- Removal from the token wait list (R121); an offer under way to the bed will be declined (R117). A request or readiness report
raised and not yet taken is dropped (the model's choice, log 77). -/
def leaveTokenList (s : State) (b : BedId) : State :=
  let s := setRun s b { runOf s b with tokenAsk := false, readyRpt := false }
  let head := s.arb.tokenWaits.head? == some b
  let s := setArb s { s.arb with tokenWaits := s.arb.tokenWaits.filter (· != b),
                                 offerLeft := s.arb.offerLeft || s.arb.offer == some b }
  if head then arbOffer s else s
/-- Removal from the permit wait list (R114); a request raised and not yet taken is dropped (the model's choice, log 77). -/
def leavePermitList (s : State) (b : BedId) : State :=
  let s := setRun s b { runOf s b with permitAsk := false }
  arbGrant (setArb s { s.arb with waits := s.arb.waits.filter (· != b) })
/-- A grant under way to the bed is for an order that ends (R113). -/
def markEnded (a : Arbiter) (b : BedId) : Arbiter :=
  { a with ended := if a.grants.contains b && !a.ended.contains b then a.ended ++ [b] else a.ended }
/-- Release of token and permit (R114); a grant not yet delivered is released when it is (R113; log 11). -/
def releasePermit (s : State) (b : BedId) : State :=
  let s := releaseToken s b
  let s := setArb s (markEnded s.arb b)
  if (runOf s b).permit then
    let s := setRun s b { runOf s b with permit := false }
    arbGrant (setArb s { s.arb with holders := s.arb.holders.filter (· != b) })
  else s

/-! ## Lock table -/

def lockIs (e : LockEntry) (r : Nat × Nat) : Bool := e.addr == r.1 && e.len == r.2
/-- The ranges of a request identical to no entry, two identical ones counted once (R52). -/
def newRanges (es : List LockEntry) (rs : List (Nat × Nat)) : List (Nat × Nat) :=
  (rs.filter (fun r => !es.any (lockIs · r))).eraseDups
def grantLocks (es : List LockEntry) (b : BedId) (rs : List (Nat × Nat)) : List LockEntry :=
  es.map (fun e => if rs.any (lockIs e) && !e.owners.contains b then { e with owners := e.owners ++ [b] } else e) ++
    (newRanges es rs).map (fun r => ⟨r.1, r.2, [b]⟩)
def lockRoom (es : List LockEntry) (rs : List (Nat × Nat)) : Bool := es.length + (newRanges es rs).length ≤ Config.lockEntries
/-- The examination of the lock-wait list (R54). -/
def Locks.examine : Nat → Locks → Locks
  | 0, l => l
  | fuel + 1, l =>
    match l.waits with
    | (b, rs) :: rest =>
      if lockRoom l.entries rs then Locks.examine fuel { entries := grantLocks l.entries b rs, waits := rest } else l
    | [] => l
/-- A lock request (R53). -/
def Locks.request (l : Locks) (b : BedId) (rs : List (Nat × Nat)) : Locks :=
  if l.waits.isEmpty && lockRoom l.entries rs then { l with entries := grantLocks l.entries b rs }
  else { l with waits := l.waits ++ [(b, rs)] }
/-- A lock release, or removal from the list, of a bed (R54). -/
def Locks.release (l : Locks) (b : BedId) : Locks :=
  let es := (l.entries.map (fun e => { e with owners := e.owners.filter (· != b) })).filter (fun e => !e.owners.isEmpty)
  Locks.examine 4 { entries := es, waits := l.waits.filter (fun w => w.1 != b) }
def Locks.owns (l : Locks) (b : BedId) : Bool := l.entries.any (fun e => e.owners.contains b)
def releaseLocks (s : State) (b : BedId) : State := setLocks s (s.locks.release b)

/-- The ranges of an order (R45): segment list, and mark list with mark count above 0. -/
def orderRanges (o : Line) : List (Nat × Nat) :=
  (ordSegAddr o, 32 * ordSteps o) :: (if 0 < ordMarks o then [(ordMarkAddr o, 32 * ordMarks o)] else [])

end Sys2Proof.Machine
end

