-- ==== Sys2Proof/Machine/Bed.lean ====
section
/-!
DEFINITION. Sys2Proof/Machine/Bed.lean: what the bed controllers do on more than one command: pausing, returning an order,
STOPPING, FAULTED, drawing and sending steps, marking, and the automatic moves between bed states.
-/
namespace Sys2Proof.Machine

def pHOLD : Nat := 0
def pCOMMAND : Nat := 1
def pARC : Nat := 2
def pPIERCE : Nat := 3
def pMARK : Nat := 4

def activeState (t : BedState) : Bool := t == .marking || t == .burning || t == .paused
def cuttingState (t : BedState) : Bool := t == .marking || t == .burning
def setStream (s : State) (b : BedId) (t : Stream) : State := setRun s b { runOf s b with stream := t }
def streamOf (s : State) (b : BedId) : Stream := (runOf s b).stream

/-- PAUSE is sent and is outstanding (R90). -/
def sendPause (s : State) (b : BedId) : State :=
  sendBed (setStream s b { streamOf s b with pausing := true }) b (.pause b)
/-- Adding a pause cause (R89, R90). -/
def addPause (s : State) (b : BedId) (i : Nat) : State :=
  let r := runOf s b
  if !activeState r.state then s else
  let s1 := setRun s b { r with pause := setBit r.pause i }
  if cuttingState r.state && r.pause == 0 && !r.stream.pausing then sendPause s1 b else s1

/-- An outstanding fetch is discarded when it arrives (R78; log 30). -/
def dropFetch (r : BedRun) : BedRun := { r with fetch := r.fetch.map (fun f => { f with discard := true }) }
/-- The FIFO and recent buffer are emptied (R78, R80). -/
def emptyFifo (r : BedRun) : BedRun :=
  { dropFetch r with stream := { r.stream with fifo := [], cursor := { r.stream.cursor with recent := [] } } }
/-- Entry to a bed state; the pause cause set is emptied on STOPPED and WAITING (R89), the arc counters outside BURNING (R124). -/
def enter (s : State) (b : BedId) (t : BedState) : State :=
  let r := runOf s b
  setRun s b { r with state := t, arc := if r.state == .burning && t != .burning then ⟨0, 0⟩ else r.arc,
                      pause := if t == .stopped || t == .waiting then 0 else r.pause }

/-! ## Return of an order (R44, R46, R57) -/

def markCount (m : Marks) (t : MarkState) : Nat := if m.begun then (m.table.filter (·.st == t)).length else 0
/-- Elapsed burn time in whole seconds (R46). -/
def elapsed (s : State) (h : Hand) : Nat :=
  match h.burnStart with
  | some t => ((h.burnEnd.getD s.clock) - t).toNat / 1000
  | none => 0
def returnLine (s : State) (r : BedRun) (h : Hand) (o : Outcome) (code : Nat) (place : Nat × Nat) (short : Bool) : Line :=
  lineOf (put 0 4 RETURNED + put 0x20 1 o.num + put 0x21 1 code + put 0x22 1 h.remnant.num + put 0x23 1 short.toNat +
    put 0x24 2 place.1 + put 0x26 1 place.2 + put 0x27 1 h.remnant.slot + put 0x28 4 r.stream.steps.toNat +
    put 0x2C 1 (markCount r.marks .done) + put 0x2D 1 (markCount r.marks .failed) + put 0x2E 1 (markCount r.marks .waived) +
    put 0x30 4 (elapsed s h))
def returnEnables : BitVec 64 := enable 0 4 ||| enable 0x20 32

/-- The bed's requests of the BED bank lose their bed's order; a withdrawal is sent for those queued (R130). -/
def withdrawAll (s : State) (b : BedId) : State :=
  let c := s.crane
  let bank := (c.bank.get b).map (fun q => { q with orphan := true })
  let inbox := (c.inbox.get b).map (fun p => match p with | .post q => Post.post { q with orphan := true } | .withdraw => .withdraw)
  let any := bank.any (!·.inFlight) || !inbox.isEmpty
  setCrane s { c with bank := c.bank.set b bank, inbox := c.inbox.set b (if any then inbox ++ [.withdraw] else inbox) }
/-- A bed's requests still of its order in hand, in the bank or on their way (R61). -/
def liveRequests (s : State) (b : BedId) : Bool :=
  (s.crane.bank.get b).any (!·.orphan) ||
    (s.crane.inbox.get b).any (fun p => match p with | .post q => !q.orphan | .withdraw => false)

/-- A request of the bed stands in the BED bank or is on its way there, be it of an order that has ended (R58, R129). -/
def hasRequests (s : State) (b : BedId) : Bool :=
  !(s.crane.bank.get b).isEmpty ||
    (s.crane.inbox.get b).any (fun p => match p with | .post _ => true | .withdraw => false)

/-- A bed leaves every wait list and gives up permit, token, locks and zone (R57), in that order. -/
def giveUp (s : State) (b : BedId) : State :=
  let s := setStock s { s.stock with waiters := s.stock.waiters.filter (fun w => w.2 != b) }
  let s := releasePermit (leaveTokenList (leavePermitList s b) b) b
  let s := releaseLocks s b
  if zoneOf s b == .torch then setZone s b .free else s

/-- The order's state is cleared at its return (R97, R111, R128); a MARK_FORM failure stays (R111). -/
def BedRun.cleared (r : BedRun) : BedRun :=
  { dropFetch r with
    hand := none, chk := none, stream := .empty, marks := { Marks.empty with formFail := r.marks.formFail },
    pierce := none, stop := none, arc := ⟨0, 0⟩, permitAsk := false, tokenAsk := false,
    readyRpt := false, ready := false }

/-- The plate ID of the remnant of an order, that of its descriptor (R34, R35). -/
def remnantId (h : Hand) : Nat := (h.desc.map descId).getD 0
/-- An order that ends while it waits for BED_RELEASE never posts its REMNANT_OUT: the reservation ends (R31; log 39). -/
def dropUnposted (s : State) (b : BedId) : State :=
  let r := runOf s b
  match r.hand with
  | some h =>
    if r.state == .unloading && r.unl == .release then releaseRes s (.bed b .remnantOut (remnantId h)) else s
  | none => s

/-- The return of the order in hand (R57): every release, then the return write; the caller sets the bed state. `place` is the
step position where the outcome names a failing step. An order that ends before its element read is answered has an empty copy:
it asks for no attention, and no TAKEN is written for it (the model's choice, log 56). -/
def returnOrder (s : State) (b : BedId) (o : Outcome) (code : Nat) (place : Option (Nat × Nat)) (short : Bool) : State :=
  let r := runOf s b
  match r.hand with
  | none => s
  | some h =>
    let pos := match place with
      | some p => p
      | none => if !r.stream.anySent then (0, 0) else if o == .done then (ordSteps h.order - 1, 0) else firstUndone r.stream
    let line := returnLine s r h o code pos short
    let s := giveUp (withdrawAll (dropUnposted s b) b) b
    let s := setStock s { s.stock with
      reservedIds := s.stock.reservedIds.filter (fun e => e.2 != b),
      releases := if h.claimed then
          s.stock.releases ++ [⟨(h.look.map (·.ix)).getD 0, ordPlate h.order, .burn b⟩] else s.stock.releases }
    let s := push s (.bedReturn b) h.addr line returnEnables
    let s := if o == .abortedHalt then setCmd s { s.cmd with haltBurn := s.cmd.haltBurn + 1 } else s
    setRun s b { (runOf s b).cleared with ret := some ⟨h.idx, ordAttn h.order⟩ }

/-- A return that leaves the bed WAITING (R57). -/
def rejectOrder (s : State) (b : BedId) (code : Nat) : State :=
  enter (returnOrder s b .rejected code none false) b .waiting

/-! ## STOPPING and FAULTED (R63, R64, R88) -/

/-- ABORT is sent and the bed enters STOPPING (R64): it leaves the permit and token lists (R114, R121). A PAUSE outstanding stays
so until the return (the model's choice, log 72), and a bed that a hall reset finds on the lock-wait list stays there, and may be granted
locks, until STOPPING ends (the model's choice, log 95). -/
def enterStopping (s : State) (b : BedId) (o : Outcome) : State :=
  let s := sendBed s b (.abort b)
  let s := leaveTokenList (leavePermitList s b) b
  let s := enter s b .stopping
  setRun s b { emptyFifo (runOf s b) with stop := some ⟨o, s.clock⟩, ready := false }

/-- The move's request is one of the bed's. -/
def Move.isFor (m : Move) (b : BedId) : Bool :=
  match m.req with
  | .bed b' _ _ => b' == b
  | .host _ => false

/-- Settings of R70 for a bed whose part of a hall reset ends. Its postings and withdrawals not yet taken are dropped (the model's
choice, log 97). -/
def bedResetEnd (s : State) (b : BedId) (how : ResetEnd) : State :=
  let s := giveUp s b
  let s := enter s b .stopped
  let s := setRun s b { (runOf s b).cleared with resetEnd := some how }
  let c := s.crane
  let s := setCrane s { c with
    bank := c.bank.set b [], inbox := c.inbox.set b [],
    move := c.move.map (fun (m : Move) => if m.isFor b then { m with live := false } else m) }
  let k := s.cmd
  setCmd s (match how with
      | .stopped => { k with resetStopped := k.resetStopped + 1 }
      | .other => { k with resetOther := k.resetOther + 1 })

/-- STOPPING ends with the pending outcome (R64, R70). -/
def endStopping (s : State) (b : BedId) (o : Outcome) (how : ResetEnd) : State :=
  let short := ((runOf s b).hand.map (·.unloading)).getD false
  let s := enter (returnOrder s b o 0 none short) b .stopped
  if s.cmd.mode == .resetting then bedResetEnd s b how else s

/-- A remark pass in progress ends early (R109). -/
def cutPass (r : BedRun) : BedRun :=
  match r.marks.pass with
  | none => r
  | some p =>
    let n := match p with
      | .waiting => 0
      | .chosen l => (l.filter (fun i => (r.marks.table[i]?.map (·.st)) != some .done)).length
    { r with marks := { r.marks with pass := none }, remarkEnd := some (.early n) }

/-- Entry to FAULTED (R63). `place` and `code` are those of the return; ABORT goes out from MARKING, BURNING and STOPPING. -/
def enterFaulted (s : State) (b : BedId) (o : Outcome) (code : Nat) (place : Option (Nat × Nat)) : State :=
  let r := runOf s b
  let s := if cuttingState r.state || r.state == .stopping then sendBed s b (.abort b) else s
  let s := setLink s b { (bedOf s b).lk with hold := false }
  let s := setRun s b (cutPass (runOf s b))
  let short := (r.hand.map (·.unloading)).getD false
  let s := if r.hand.isSome then returnOrder s b o code place short else giveUp (withdrawAll s b) b
  let s := setRun s b (emptyFifo (runOf s b))
  enter s b .faulted

def dARC_LOW : Nat := 32
def dLINK_LOST : Nat := 33
def dGANTRY : Nat := 34
def dMEMORY : Nat := 35
def dPLATE_LOST : Nat := 36

/-- A detail flag of the bed and FAULTED with outcome FAULT_ABORT (R63). -/
def faultBed (s : State) (b : BedId) (flag detail : Nat) : State :=
  enterFaulted (bedFlag s b flag) b .faultAbort detail none
def gantryFault (s : State) (b : BedId) : State := faultBed s b fGANTRY dGANTRY
def memoryFault (s : State) (b : BedId) : State := faultBed s b fMEMORY dMEMORY

/-! ## Ring (R42, R43) -/

def ringAddr (s : State) (b : BedId) : Nat := (bedCfg s b).base + 64 * (bedOf s b).ring.pos
/-- A take (R42). -/
def takeOrder (s : State) (b : BedId) : State :=
  let g := (bedOf s b).ring
  let addr := ringAddr s b
  let s := setRing s b { g with taken := g.taken + 1 }
  let s := enter s b .accepting
  let r := runOf s b
  let s := setRun s b { r with
    hand := some { addr := addr, idx := g.pos, order := 0, look := none, desc := none, claimed := false, remnant := .none,
                   remRec := 0, remDest := .none, burnStart := none, burnEnd := none, unloading := false },
    acc := .element, marks := { r.marks with formFail := none } }
  pushRead s (.bedElement b) addr
/-- Reading the ownership word at the ring position (R43). -/
def readOwner (s : State) (b : BedId) : State := pushRead s (.bedOwner b) (ringAddr s b)
/-- A bed WAITING with no return pending reads its ring position; with one pending it reads at that return's answer (R43, R66). -/
def startRead (s : State) (b : BedId) : State :=
  if (runOf s b).state == .waiting && (runOf s b).ret.isNone then readOwner s b else s

/-! ## Executed steps and the interlock (R83, R106) -/

/-- The entry ends the arc (R83, R124). -/
def arcOff (e : Entry) : Bool := e.step.kind == kTORCH_OFF || e.step.kind == kEND
/-- The effect of an executed window entry on the stream state (R83, R94, R124). -/
def executed (t : Stream) (e : Entry) : Stream :=
  { t with
    exX := if hasPoint e.step.kind then e.step.x else t.exX,
    exY := if hasPoint e.step.kind then e.step.y else t.exY,
    exArc := if e.step.kind == kPIERCE then true else if arcOff e then false else t.exArc,
    lastPierce := if e.step.kind == kPIERCE then some e.step else t.lastPierce,
    steps := if e.synth then t.steps else t.steps + 1 }

/-- What the interlock says of a step about to be sent (R106). -/
inductive Interlock
  | pass | unmarked (k : Nat) | hold
deriving DecidableEq, Repr
def interlock (r : BedRun) (t : Step) : Interlock :=
  match t.frees with
  | none => .pass
  | some k =>
    if (r.marks.table[k]?.map (·.st)) == some .failed then
      (if (r.hand.map (fun h => ordStrict h.order)).getD true then .hold else .unmarked k)
    else .pass
def setMark (m : Marks) (k : Nat) (x : Mark) : Marks := { m with table := m.table.set k x }
def markAt (m : Marks) (k : Nat) : Mark := m.table.getD k ⟨0, .pending, 0, .none, false⟩

/-- A step is sent (R82): it joins the window with the next sequence number. -/
def sendStep (s : State) (b : BedId) (e : Entry) : State :=
  let t := streamOf s b
  let s := setStream s b { t with window := t.window ++ [{ e with seq := t.seq }], seq := t.seq + 1, anySent := true,
                                  endSent := t.endSent || e.step.kind == kEND }
  sendBed s b (.step b t.seq e.step)

/-- The whole-list check or the streaming judges each step (R76). -/
def fullCheck (s : State) (b : BedId) (h : Hand) : Bool := ordFull h.order || (bedCfg s b).full

/-- A bed may send steps (R81, R87, R90). -/
def maySend (s : State) (b : BedId) : Bool :=
  let r := runOf s b
  let t := r.stream
  r.state == .burning && !t.pausing && t.form.isNone && (bedOf s b).lk.live && !(bedOf s b).lk.hold &&
    t.window.length < Config.window

/-- A step that may be a cut that frees a part is sent, or held by the interlock (R106). `out` removes it from where it waits. -/
def sendJudged (s : State) (b : BedId) (e : Entry) (out : Stream → Stream) (keep : Stream → Stream) : State × Bool :=
  match interlock (runOf s b) e.step with
  | .hold => (addPause (setStream s b (keep (streamOf s b))) b pMARK, false)
  | .unmarked k =>
    let r := runOf s b
    let s := setRun s b { r with marks := setMark r.marks k { markAt r.marks k with unmarked := true } }
    (sendStep (setStream s b (out (streamOf s b))) b e, true)
  | .pass => (sendStep (setStream s b (out (streamOf s b))) b e, true)

/-- One thing sent or drawn (R81, R93, R94); the Bool tells whether to go on. -/
def pumpOnce (s : State) (b : BedId) : State × Bool :=
  if !maySend s b then (s, false) else
  let r := runOf s b
  let t := r.stream
  if (nextPierce t).isSome then (s, false)
  else if t.synth then
    match firstAfterPause t with
    | none => (s, false)
    | some _ => (setStream s b { t with synth := false }, true)
  else
    match t.resend, t.held with
    | e :: rest, _ => sendJudged s b e (fun t => { t with resend := rest }) (fun t => t)
    | [], some e => sendJudged s b e (fun t => { t with held := none }) (fun t => t)
    | [], none =>
      if t.endSent then (s, false) else
      match r.hand with
      | none => (s, false)
      | some h =>
        let (d, u, used) := draw (formCfg s b h) (!fullCheck s b h) t.cursor t.fifo.head?
        let t := { t with cursor := u, fifo := if used then t.fifo.tail else t.fifo }
        let s := setStream s b t
        match d with
        | .wait => (s, false)
        | .taken => (s, true)
        | .bad f => (sendPause (setStream s b { t with form := some f }) b, false)
        | .step e =>
          if e.step.kind == kPIERCE then (setStream s b { t with held := some e }, false)
          else sendJudged s b e (fun t => t) (fun t => { t with held := some e })
def pump : Nat → State → BedId → State
  | 0, s, _ => s
  | fuel + 1, s, b =>
    let (s', more) := pumpOnce s b
    if more then pump fuel s' b else s'

/-! ## Marking (R103, R108) -/

/-- The mark to be sent next, in MARKING or in a remark pass (R103, R108). -/
def markDue (r : BedRun) : Option Nat :=
  let m := r.marks
  if m.table.any (·.st == .sent) then none
  else if r.state == .marking && !r.stream.pausing && m.cursor < m.table.length then some m.cursor
  else if r.state == .paused then
    match m.pass with
    | some (.chosen l) => l.find? (fun i => (markAt m i).st == .pending)
    | _ => none
  else none

/-- A remark pass that waited chooses its marks (R108). -/
def choosePass (r : BedRun) : BedRun :=
  let m := r.marks
  match m.pass with
  | some .waiting =>
    if m.table.any (·.st == .sent) then r else
    let l := (List.range m.table.length).filter (fun i => (markAt m i).st == .failed && !(markAt m i).unmarked)
    let tbl := m.table.map (fun x =>
      if x.st == .failed && !x.unmarked then { x with st := .pending, attempts := 0, cause := .none } else x)
    { r with marks := { m with pass := some (.chosen l), table := tbl } }
  | _ => r
/-- The end of a remark pass (R108). -/
def endPass (r : BedRun) : BedRun :=
  match r.marks.pass with
  | some (.chosen l) =>
    if l.all (fun i => (markAt r.marks i).st == .done || (markAt r.marks i).st == .failed) then
      { r with
        marks := { r.marks with pass := none, heatAsk := none }, pause := clearBits r.pause (byte (2 ^ pMARK)),
        remarkEnd := some (.finished (l.filter (fun i => (markAt r.marks i).st == .failed)).length) }
    else r
  | _ => r
/-- The marking cursor passes over marks at their end (R103). -/
def advanceMarks : Nat → BedRun → BedRun
  | 0, r => r
  | fuel + 1, r =>
    let m := r.marks
    if (m.table[m.cursor]?.map (fun x => x.st == .done || x.st == .failed || x.st == .waived)) == some true then
      advanceMarks fuel { r with marks := { m with cursor := m.cursor + 1 } }
    else r

/-! ## What happens by itself inside a taking -/

/-- Resumption (R93, R94). -/
def resume (s : State) (b : BedId) : State :=
  let r := runOf s b
  let s := sendBed s b (.resume b)
  let s := enter s b (if r.stream.fromMarking then .marking else .burning)
  let r := runOf s b
  setStream s b { r.stream with synth := !r.stream.fromMarking && r.stream.arcAtPause, fromMarking := false, arcAtPause := false }

/-- From locks granted to CHECKING or STAGING (R53). -/
def leaveAccepting (s : State) (b : BedId) (h : Hand) : State :=
  if fullCheck s b h then
    let s := enter s b .checking
    setRun s b { runOf s b with chk := some .start }
  else enter s b .staging

/-- The conditions of R56 but the hall's mode and the zone. -/
def plateHere (s : State) (b : BedId) (h : Hand) : Bool :=
  match h.look with
  | some k => holds s k.ix (ordPlate h.order) && (plateAt s k.ix).located && (plateAt s k.ix).loc == .bed b
  | none => false
def otherHere (s : State) (b : BedId) (id : Nat) : Bool := (locatedAt s (.bed b)).any (·.id != id)
def stagingReady (s : State) (b : BedId) (h : Hand) : Bool :=
  plateHere s b h && !otherHere s b (ordPlate h.order) && zoneOf s b == .free && s.cmd.mode == .run

/-- A posting of a crane request on its way to the crane controller (R58, R61, R130). -/
def postRequest (s : State) (b : BedId) (kind : ReqKind) (ix plate : Nat) (dest : Loc) : State :=
  let c := s.crane
  setCrane s { c with inbox := c.inbox.set b (c.inbox.get b ++ [.post ⟨kind, ix, plate, dest, false, false⟩]) }

/-- STAGING is left with TORCH, or LOAD_BED is posted, alone in the bed's list (R56, R58, R59, R129): a request of an earlier order
that still stands is waited for. -/
def stagingStep (s : State) (b : BedId) : State :=
  let r := runOf s b
  match r.hand with
  | none => s
  | some h =>
    if stagingReady s b h then
      let s := setZone s b .torch
      let s := enter s b (if 0 < ordMarks h.order then .marking else .burning)
      let r := runOf s b
      setRun s b { r with
        stream := .empty, arc := ⟨0, 0⟩, hand := some { h with burnStart := some s.clock },
        marks := { r.marks with begun := true, cursor := 0, limit := none, pass := none, heatAsk := none,
                                table := r.marks.table.map (fun x => ⟨x.raw, .pending, 0, .none, false⟩) } }
    else if !plateHere s b h && !hasRequests s b then
      postRequest s b .loadBed ((h.look.map (·.ix)).getD 0) (ordPlate h.order) (.bed b)
    else s

/-- Lines that the stream fetcher still has to read (R55, R78, R98). -/
def fetchDue (r : BedRun) (h : Hand) : Option (FetchFor × Nat) :=
  if r.fetch.isSome then none
  else if r.state == .accepting && r.acc == .marks then
    some (.marks, ordMarkAddr h.order + 64 * (r.marks.table.length / 2))
  else if r.state == .checking then
    (if 2 * r.stream.nextLine < ordSteps h.order then some (.check, ordSegAddr h.order + 64 * r.stream.nextLine) else none)
  else if activeState r.state then
    (if 2 * r.stream.nextLine < ordSteps h.order && r.stream.fifo.length + 2 ≤ Config.fifo then
      some (.stream, ordSegAddr h.order + 64 * r.stream.nextLine) else none)
  else none
def askFetch (s : State) (b : BedId) : State :=
  let r := runOf s b
  match r.hand.bind (fetchDue r) with
  | some (u, a) => setRun s b { r with fetch := some ⟨u, a, false, false⟩ }
  | none => s

/-- A bed is ready for the token (R117). -/
def readyNow (s : State) (b : BedId) : Bool := maySend s b && (nextPierce (streamOf s b)).isSome
/-- Requests to the permit arbiter and the readiness report (R113, R116, R117). -/
def askArbiter (s : State) (b : BedId) : State :=
  let r := runOf s b
  let pierce := r.state == .burning && r.stream.form.isNone && (nextPierce r.stream).isSome
  let a := s.arb
  let ready := readyNow s b
  setRun s b { r with
    permitAsk := r.permitAsk || (pierce && !r.permit && !a.waits.contains b && !a.grants.contains b && !a.holders.contains b),
    tokenAsk := r.tokenAsk || (pierce && !r.stream.pausing && r.permit && a.token != some b && !a.tokenWaits.contains b),
    readyRpt := r.readyRpt || (ready && !r.ready && a.tokenWaits.contains b),
    ready := ready }

/-- The text of a mark (R101) with the heat number given, none for a mark without add-heat. -/
def markText (r : Raw) (heat : Option (List Nat)) : List Byte :=
  ((chars (fld r.toNat 0x10 16) (markLen r)) ++ (match heat with | some h => 0x20 :: 0x48 :: h | none => [])).map byte
/-- A MARK is sent and its reply limit starts (R103). -/
def sendMark (s : State) (b : BedId) (i : Nat) (heat : Option (List Nat)) : State :=
  let r := runOf s b
  let x := markAt r.marks i
  let m := setMark r.marks i { x with st := .sent, attempts := x.attempts + 1 }
  let s := setRun s b { r with marks := { m with limit := some s.clock, heatAsk := none } }
  sendBed s b (.mark b i (markText x.raw heat) (markX x.raw) (markY x.raw) (markRot x.raw) (markHeight x.raw))

/-- Marking in MARKING and in a remark pass (R103, R105, R108): a mark without add-heat is sent at once, for another the
heat number is asked (R101), and the request withdrawn when no mark may be sent (the model's choice, log 73). A mark that has just
reached an end moves the cursor before a waiting pass makes it PENDING. -/
def markingStep (s : State) (b : BedId) : State :=
  let r := advanceMarks 65 (endPass (choosePass (advanceMarks 65 (runOf s b))))
  let s := match markDue r with
    | some i =>
      if markAddHeat (markAt r.marks i).raw then setRun s b { r with marks := { r.marks with heatAsk := some i } }
      else sendMark (setRun s b r) b i none
    | none => setRun s b { r with marks := { r.marks with heatAsk := none } }
  let r := runOf s b
  if r.state == .marking && r.marks.table.length ≤ r.marks.cursor && !r.stream.pausing && !r.marks.table.any (·.st == .sent)
  then enter s b .burning else s

/-- A bed whose unloading requests have all ended returns its order DONE (R61). -/
def unloadEnd (s : State) (b : BedId) : State :=
  let r := runOf s b
  if r.state == .unloading && r.unl == .posted && !liveRequests s b then
    enter (returnOrder s b .done 0 none false) b .waiting
  else s

/-- Told that the claim has ended, the bed makes a fresh lookup (R11, R49). -/
def claimTold (s : State) (b : BedId) : State :=
  let r := runOf s b
  if r.state == .accepting && r.acc == .claimWait && !s.stock.waiters.any (·.2 == b) then
    setRun s b { r with acc := .lookup true } else s
/-- With its locks granted the bed leaves ACCEPTING (R53). -/
def locksTold (s : State) (b : BedId) : State :=
  let r := runOf s b
  match r.hand with
  | some h =>
    if r.state == .accepting && (r.acc == .lockWait || r.acc == .lockReq) && s.locks.owns b then leaveAccepting s b h else s
  | none => s
def stagingDue (s : State) (b : BedId) : State := if (runOf s b).state == .staging then stagingStep s b else s
def markingDue (s : State) (b : BedId) : State := if activeState (runOf s b).state then markingStep s b else s
/-- A bed PAUSED with no cause left and no remark pass in progress resumes (R93, R108). -/
def resumeDue (s : State) (b : BedId) : State :=
  if (runOf s b).state == .paused && (runOf s b).pause == 0 && (runOf s b).marks.pass.isNone then resume s b else s
def markingAgain (s : State) (b : BedId) : State := if (runOf s b).state == .marking then markingStep s b else s
/-- Everything bed `b` does by itself in a taking, in this order (log 8). -/
def bedSettle (s : State) (b : BedId) : State :=
  let s := stagingDue (locksTold (claimTold s b) b) b
  let s := pump 80 (markingAgain (resumeDue (markingDue s b) b) b) b
  askArbiter (askFetch s b) b

end Sys2Proof.Machine
end

