-- ==== Sys2Proof/Machine/Crane.lean ====
section
/-!
DEFINITION. Sys2Proof/Machine/Crane.lean: what the crane controller and the stock unit do for moves on more than one
command: places and reservations, feasibility, selection, dispatch, the ends of moves, acceptance and return of orders.
-/
namespace Sys2Proof.Machine

/-! ## Reservations and places (R14, R26, R30 to R33) -/

/-- The reservation of a place is taken for the request. -/
def reserve (s : State) (q : ReqId) (plate : Nat) (l : Loc) : State :=
  match l with
  | .rack n => setStock s { s.stock with slotRes := s.stock.slotRes ++ [⟨n, plate, q⟩] }
  | .overflow => setStock s { s.stock with overRes := s.stock.overRes ++ [⟨plate, q⟩] }
  | .infeed _ => setStock s { s.stock with infeedRes := some q }
  | _ => s
/-- The reservation of the place ends, converted by a SET there (R31). -/
def convertRes (s : State) (q : ReqId) (l : Loc) : State :=
  match l with
  | .rack n => setStock s { s.stock with slotRes := s.stock.slotRes.filter (fun r => !(r.slot == n && r.req == q)) }
  | .overflow => setStock s { s.stock with overRes := s.stock.overRes.filter (·.req != q) }
  | .infeed _ => setStock s { s.stock with infeedRes := if s.stock.infeedRes == some q then none else s.stock.infeedRes }
  | _ => s
def hasRes (s : State) (q : ReqId) (l : Loc) : Bool :=
  match l with
  | .rack n => s.stock.slotRes.any (fun r => r.slot == n && r.req == q)
  | .overflow => s.stock.overRes.any (·.req == q)
  | .infeed _ => s.stock.infeedRes == some q
  | _ => true
/-- The place is available without a reservation (R32, R33). -/
def available (s : State) (l : Loc) : Bool :=
  match l with
  | .rack n => n < rackSlots s && slotFree s n
  | .overflow => overflowUsed s < Config.overflow
  | .infeed _ => infeedCount s < Config.infeed
  | _ => true

/-- Beds waiting for the record's claim are told (R11). -/
def tellWaiters (s : State) (i : Nat) : State :=
  setStock s { s.stock with waiters := s.stock.waiters.filter (fun w => w.1 != i) }
/-- The LIFTED of R14: the piece hangs at CRANE; an event for another record has no effect (R1). -/
def stockLift (s : State) (i id : Nat) : State :=
  if holds s i id then setPlate s i { plateAt s i with loc := .crane } else s
/-- The SET of R14 at a place; the scrap bay frees the record. A record made LOST by LOAD_DROP takes the place and stays LOST
(R14 against R15; the model's choice, log 58). -/
def stockSet (s : State) (i id : Nat) (l : Loc) : State :=
  if !holds s i id then s else
  match l with
  | .scrap => tellWaiters (setPlate s i .blank) i
  | .infeed _ => setPlate s i { plateAt s i with loc := .infeed (locatedInfeed s + 1) }
  | l => setPlate s i { plateAt s i with loc := l }
def makeLost (s : State) (i id : Nat) : State :=
  if holds s i id && (plateAt s i).st != .lost then tellWaiters (setPlate s i { plateAt s i with st := .lost }) i else s
def setSuspect (s : State) (i id : Nat) : State :=
  if holds s i id then setPlate s i { plateAt s i with suspect := true } else s
/-- A LIFTED taken as turning back (R32): the source is reserved for the return, the destination released but for a
REMNANT_OUT. -/
def stockTurnBack (s : State) (m : Move) : State :=
  let s := stockLift s m.ix m.plate
  let s := if m.kind == .remnantOut then s else releaseRes s m.req
  reserve s m.req m.plate m.src
/-- The record is under a posted REMNANT_OUT, named by index and plate ID together (R1, R36, R129): the bed that posted it. -/
def underRemnantOut (s : State) (i : Nat) : Option BedId :=
  let names (q : BedReq) : Bool := q.kind == .remnantOut && q.ix == i && q.plate == (plateAt s i).id
  bedIds.find? (fun b => (s.crane.bank.get b).any names ||
    (s.crane.inbox.get b).any (fun p => match p with | .post q => names q | .withdraw => false))
def releaseClaim (s : State) (r : Release) : State := setStock s { s.stock with releases := s.stock.releases ++ [r] }

/-! ## Feasibility (R137) -/

def zoneGrantable (s : State) (b : BedId) : Bool := zoneOf s b == .free && !activeState (runOf s b).state
def liftable (s : State) (l : Loc) : Bool :=
  match l with
  | .infeed n => n == locatedInfeed s
  | .rack _ | .overflow => true
  | .bed b => zoneGrantable s b
  | _ => false
/-- A bed takes the plate: STOPPED or WAITING, or in one of the states given with an order naming it. -/
def bedTakes (s : State) (b : BedId) (id : Nat) (states : List BedState) : Bool :=
  let t := (runOf s b).state
  t == .stopped || t == .waiting || (states.contains t && handPlate s b == some id)
def destTakes (s : State) (q : ReqId) (id : Nat) (l : Loc) : Bool :=
  match l with
  | .rack _ | .overflow => hasRes s q l
  | .infeed _ => infeedCount s < Config.infeed
  | .scrap => true
  | .bed b => zoneGrantable s b && (locatedAt s (.bed b)).isEmpty && bedTakes s b id [.accepting, .staging]
  | _ => false
def overweight (s : State) (k : ReqKind) (i : Nat) : Bool :=
  let p := plateAt s i
  (k == .loadBed || k == .remnantOut) && p.st == .stock && !p.suspect && param s (·.rated) 0 < p.mass
/-- The first overweight request that stays queued in the BED bank (R137): B0 to B3, each in its list's order, and none in flight (the
model's choices, log 59). -/
def firstOverweight (s : State) : Option (BedId × ReqKind) :=
  (bedIds.flatMap (fun b => (s.crane.bank.get b).map (fun q => (b, q)))).findSome?
    (fun p => if !p.2.inFlight && holds s p.2.ix p.2.plate && overweight s p.2.kind p.2.ix then some (p.1, p.2.kind) else none)
/-- The crane may be dispatched (R139). -/
def craneFree (s : State) : Bool :=
  s.cmd.mode == .run && s.crane.state == .idle && s.crane.lk.live && s.crane.lk.load == .absent
def feasible (s : State) (q : ReqId) (k : ReqKind) (i id : Nat) (dest : Loc) : Bool :=
  craneFree s && holds s i id && (plateAt s i).located && liftable s (plateAt s i).loc && destTakes s q id dest &&
    !overweight s k i

/-! ## Dispatch and selection (R138 to R140) -/

def bedsOfLoc : Loc → List BedId
  | .bed b => [b]
  | _ => []
def sendCrane (s : State) (o : Output) : State := if s.crane.lk.live then emit s o else s
/-- Crane state with its phase limit started (R143). -/
def craneTo (s : State) (t : CraneState) : State := setCrane s { s.crane with state := t, phaseSince := s.clock }
/-- The zones of the beds of a move become CRANE (R138). -/
def takeZones (s : State) (zs : List BedId) : State := zs.foldl (fun s b => setZone s b .crane) s
/-- An INFEED destination is reserved at dispatch (R140). -/
def reserveInfeed (s : State) (q : ReqId) (plate : Nat) (l : Loc) : State :=
  match l with
  | .infeed _ => reserve s q plate l
  | _ => s
/-- A dispatch (R138, R140). -/
def dispatch (s : State) (q : ReqId) (k : ReqKind) (i id : Nat) (dest : Loc) : State :=
  let p := plateAt s i
  let exp := if p.st == .stock && !p.suspect then some p.mass else none
  let zs := bedsOfLoc p.loc ++ bedsOfLoc dest
  let n := s.crane.nextId
  let s := reserveInfeed (takeZones s zs) q id dest
  let s := setCrane s { s.crane with
    move := some { id := n, kind := k, req := q, live := true, ix := i, plate := id, src := p.loc, dst := dest, expected := exp,
                   measured := none, abort := false, turned := false, massBad := false, confirmed := false, lifted := false,
                   zones := zs, reserves := true, phase := none },
    nextId := if n == 255 then 1 else n + 1 }
  sendCrane (craneTo s .dispatched) (.craneMove n p.loc dest exp)

def hostFeasible (s : State) (o : StockOrder) : Bool :=
  o.stage == .queued && feasible s (.host o.idx) .move o.ix (crPlate o.order) o.dest
def setOrder (s : State) (idx : Nat) (g : OrderStage) : State :=
  setCrane s { s.crane with stock := s.crane.stock.map (fun o => if o.idx == idx then { o with stage := g } else o) }
def dispatchHost (s : State) (o : StockOrder) : State :=
  setOrder (dispatch s (.host o.idx) .move o.ix (crPlate o.order) o.dest) o.idx .inFlight
/-- The first request of a bed's list, when it is queued and feasible. -/
def bedFeasible (s : State) (b : BedId) : Option BedReq :=
  match s.crane.bank.get b with
  | q :: _ => if !q.inFlight && feasible s (.bed b q.kind q.plate) q.kind q.ix q.plate q.dest then some q else none
  | [] => none
def dispatchBed (s : State) (b : BedId) (q : BedReq) : State :=
  let aged := s.crane.stock.map (fun o => if hostFeasible s o then { o with age := min (o.age + 1) Config.agingMax } else o)
  let c := s.crane
  let bank := match c.bank.get b with | r :: rest => { r with inFlight := true } :: rest | [] => []
  let s := setCrane s { c with stock := aged, bank := c.bank.set b bank, lastServed := b }
  dispatch s (.bed b q.kind q.plate) q.kind q.ix q.plate q.dest
/-- Selection (R139). -/
def craneSelect (s : State) : State :=
  if !craneFree s then s else
  let limit := param s (·.aging) 0
  match (if limit == 0 then none else s.crane.stock.find? (fun o => limit ≤ o.age && hostFeasible s o)) with
  | some o => dispatchHost s o
  | none =>
    match (bedsAfter s.crane.lastServed).findSome? (fun b => (bedFeasible s b).map (fun q => (b, q))) with
    | some (b, q) => dispatchBed s b q
    | none =>
      match s.crane.stock.find? (hostFeasible s) with
      | some o => dispatchHost s o
      | none => s

/-! ## Crane orders: return and acceptance (R134 to R136) -/

def cCANCELLED : Nat := 16
def cMASS_MISMATCH : Nat := 17
def cFAULT_ABORT : Nat := 18
def cABORTED_HALT : Nat := 19
def cABORTED_RESET : Nat := 20

/-- A host order is returned (R136): its reservations are released, its LIFT claim released when it was accepted. One whose element
is not read yet has no copy: final location 0, no attention request (the model's choice, log 60). -/
def returnHost (s : State) (idx : Nat) (outcome : Nat) (l : Loc) (measured : Nat) (accepted : Bool) : State :=
  match s.crane.stock.find? (·.idx == idx) with
  | none => s
  | some o =>
    let line := lineOf (put 0 4 RETURNED + put 0x14 1 outcome + put 0x15 1 l.num.1 + put 0x16 1 l.num.2 + put 0x18 4 measured)
    let s := if accepted then releaseClaim (releaseRes s (.host idx)) ⟨o.ix, crPlate o.order, .lift idx⟩ else s
    let s := setOrder s idx .returning
    let s := push s (.craneReturn idx) o.addr line (enable 0 4 ||| enable 0x14 12)
    let k := s.cmd
    let s := if outcome == cABORTED_HALT then setCmd s { k with haltCrane := k.haltCrane + 1 } else s
    if outcome == cCANCELLED then setCrane s { s.crane with cancelled := s.crane.cancelled + 1 } else s

/-- The destination an order names (R133); its slot for RACK_AUTO is chosen at acceptance. -/
def crDest (r : Raw) : Option Loc :=
  match crKind r with
  | 1 => (bedOf? (crNum r)).map .bed
  | 3 => some (.rack (crNum r))
  | 4 => some .overflow
  | 5 => some (.infeed 0)
  | 6 => some .scrap
  | _ => none
def sameKind (a b : Loc) : Bool :=
  match a, b with
  | .infeed _, .infeed _ => true
  | a, b => a == b
/-- Checks 2 to 7 of R134 on the record found. -/
def acceptPiece (s : State) (r : Raw) (i : Nat) : Option Nat :=
  let p := plateAt s i
  if p.st == .lost || p.loc == .crane then some 3
  else if (underRemnantOut s i).isSome then some 4
  else match p.claim with
    | .burn _ | .lift _ => some 4
    | .hold t _ => if t != crToken r || crToken r == 0 then some 5 else acceptMass p
    | .none => acceptMass p
where
  acceptMass (p : Plate) : Option Nat :=
    if p.suspect then some 6 else if p.st == .stock && param s (·.rated) 0 < p.mass then some 7 else none
/-- Checks 8 to 13 of R134: the code, or the destination. -/
def acceptDest (s : State) (r : Raw) (i : Nat) : Nat ⊕ Loc :=
  let p := plateAt s i
  if crKind r == 2 then
    match autoSlot s p.length p.width with
    | some n => .inr (.rack n)
    | none => .inl 10
  else match crDest r with
    | none => .inl 8
    | some l =>
      if sameKind l p.loc then .inl 8 else
      match l with
      | .bed b =>
        if !present s b then .inl 8
        else if !(locatedAt s l).isEmpty || !bedTakes s b p.id [.accepting] then .inl 13 else .inr l
      | .rack n =>
        if rackSlots s ≤ n || !fitsSlot s n p.length p.width then .inl 8
        else if !slotFree s n then .inl 9 else .inr l
      | .overflow => if available s l then .inr l else .inl 11
      | .infeed _ => if available s l then .inr l else .inl 12
      | l => .inr l
/-- Acceptance of a taken order (R134), with its LIFT claim (R10) and reservation. -/
def acceptOrder (s : State) (idx : Nat) (r : Raw) : State :=
  if crReservedSet r then returnHost s idx 1 .none 0 false else
  match findPlate s (crPlate r) with
  | none => returnHost s idx 2 .none 0 false
  | some i =>
    let p := plateAt s i
    match acceptPiece s r i with
    | some code => returnHost s idx code (if p.st == .lost then .lost else p.loc) 0 false
    | none =>
      match acceptDest s r i with
      | .inl code => returnHost s idx code p.loc 0 false
      | .inr l =>
        let s := setPlate s i { p with claim := .lift idx }
        let s := match l with | .infeed _ => s | l => reserve s (.host idx) p.id l
        setCrane s { s.crane with stock := s.crane.stock.map (fun o =>
          if o.idx == idx then { o with ix := i, dest := l, stage := .queued } else o) }

/-! ## Crane ring (R131, R132) -/

def ringRuns (s : State) : Bool := s.cmd.mode == .run || s.cmd.mode == .hold
def craneAddr (s : State) (idx : Nat) : Nat := param s (·.craneBase) 0 + 32 * idx
/-- The part owns the element of this index: one of an order held. An order of an earlier ring whose return write is still refused after
a commit stands for the element of its index in the ring in force too (the model's choice, log 83). -/
def craneOwned (s : State) (idx : Nat) : Bool := s.crane.stock.any (·.idx == idx)
/-- Reading the ownership word at the ring position (R132, R136): none while the ring is stopped, whatever return is answered then; the
ring's start reads it (the model's choice, log 81). -/
def readCraneOwner (s : State) : State :=
  if s.crane.ownRead || !ringRuns s then s else
  let s := setCrane s { s.crane with ownRead := true }
  pushRead s (.craneOwner s.crane.ringPos) (craneAddr s s.crane.ringPos)
/-- A take (R132). -/
def takeCrane (s : State) : State :=
  let c := s.crane
  let idx := c.ringPos
  let addr := craneAddr s idx
  let n := param s (·.craneCount) 1
  let s := setCrane s { c with taken := c.taken + 1, ringPos := if idx + 1 < n then idx + 1 else 0,
                               stock := c.stock ++ [⟨idx, addr, 0, 0, .none, 0, .reading⟩] }
  readCraneOwner (pushRead s (.craneElement idx) addr)
/-- The ring running, the element at the position host-owned, fewer than 8 orders held (R132). -/
def mayTake (s : State) : Bool :=
  ringRuns s && !craneOwned s s.crane.ringPos && s.crane.stock.length < Config.stockBank

/-! ## Ends of moves (R144 to R153) -/

def freeZones (s : State) (zs : List BedId) : State :=
  zs.foldl (fun s b => if zoneOf s b == .crane then setZone s b .free else s) s
/-- The request in flight leaves its bed's list; it tells whether the bed's order still stands. -/
def dropBedReq (s : State) (b : BedId) : State × Bool :=
  let c := s.crane
  match c.bank.get b with
  | q :: rest => if q.inFlight then (setCrane s { c with bank := c.bank.set b rest }, !q.orphan) else (s, false)
  | [] => (s, false)
/-- The move's reservations end, if it still has any (R31). -/
def endRes (s : State) (m : Move) : State := if m.reserves then releaseRes s m.req else s
/-- Zones released, crane IDLE without a move (R138). -/
def craneRest (s : State) (m : Move) : State :=
  let s := freeZones s m.zones
  setCrane s { s.crane with state := .idle, move := none }
/-- End of a bed request as done (R61). -/
def reportDone (s : State) (m : Move) : State :=
  match m.req with
  | .bed b _ _ => if m.live then (dropBedReq s b).1 else s
  | .host _ => s
/-- End of a bed request at its source: LOAD_BED after a mass turn-back is rejected, any other is posted again (R58, R61, R147). -/
def reportBack (s : State) (m : Move) (mass : Bool) : State :=
  match m.req with
  | .host _ => s
  | .bed b k _ =>
    if !m.live then endRes s m else
    let (s, stands) := dropBedReq s b
    if !stands then endRes s m
    else if k == .loadBed then (if mass then rejectOrder s b 11 else s)
    else postRequest s b k m.ix m.plate m.dst
/-- The plate of a LOAD_BED is lost (R58, R151, R153). -/
def reportLost (s : State) (m : Move) : State :=
  match m.req with
  | .host _ => s
  | .bed b k _ =>
    if !m.live then s else
    let (s, stands) := dropBedReq s b
    if stands && k == .loadBed && (runOf s b).state == .staging then
      enter (returnOrder s b .faultAbort dPLATE_LOST none false) b .waiting else s
/-- A host order of the move returned, if it still stands. -/
def endHost (s : State) (m : Move) (outcome : Nat) (l : Loc) (measured : Nat) : State :=
  match m.req with
  | .host idx => if m.live then returnHost s idx outcome l measured true else s
  | .bed _ _ _ => s

/-- Where a record lies now, for a final location. -/
def whereIs (s : State) (m : Move) : Loc :=
  if holds s m.ix m.plate then (if (plateAt s m.ix).st == .lost then .lost else (plateAt s m.ix).loc) else .scrap
def measuredOf (m : Move) : Nat := m.measured.getD 0
/-- The measured mass of an order returned: that of the failed move holding it (R133), else 0. -/
def heldMass (s : State) (o : StockOrder) : Nat := if o.stage == .failed then (s.crane.move.map measuredOf).getD 0 else 0

/-- The crane enters FAULTED (R151); a move in flight becomes the failed move. -/
def craneFaulted (s : State) : State :=
  if s.crane.state == .faulted then s else
  let phase := s.crane.state
  let s := setCrane s { s.crane with
    state := .faulted, faulted := s.crane.faulted + 1, move := s.crane.move.map (fun (m : Move) => { m with phase := some phase }) }
  match s.crane.move with
  | some m => match m.req with
    | .host idx => setOrder s idx .failed
    | .bed _ _ _ => s
  | none => s
def craneFlag (s : State) (i : Nat) : State := setFlag s .crane i
/-- A LOAD_DROP makes the record at CRANE LOST; a LOAD_BED's bed is told at once (R15, R151). -/
def loadDrop (s : State) : State :=
  let i := s.stock.table.findIdx (fun p => p.located && p.loc == .crane)
  if i < s.stock.table.length then
    let id := (plateAt s i).id
    let s := makeLost s i id
    match s.crane.move with
    | some m =>
      if m.kind == .loadBed && m.ix == i then
        setCrane (reportLost s m) { (reportLost s m).crane with move := some { m with live := false } }
      else s
    | none => s
  else s

/-! ## The crane's part of a hall reset (R155) -/

/-- Its end. The postings and withdrawals not yet taken are dropped with the BED bank (the model's choice, log 97). -/
def craneResetEnd (s : State) : State :=
  let m := s.crane.move
  let s := match m with | some m => endHost s m cABORTED_RESET (whereIs s m) (measuredOf m) | none => s
  let atCrane := s.stock.table.any (fun p => p.located && p.loc == .crane)
  let keep : Bool := match m with
    | some m => holds s m.ix m.plate && (plateAt s m.ix).located && (plateAt s m.ix).loc == .crane
    | none => false
  let s := match m with | some m => if keep then s else freeZones s m.zones | none => s
  let c := s.crane
  let s := setCrane s { c with
    bank := .const [], inbox := .const [], refusals := 0, resetAt := none, resetEnded := true,
    move := if keep then m.map (fun m => { m with live := false, phase := m.phase.or (some c.state) }) else none,
    state := if !atCrane && c.lk.live then .idle else .faulted, loadedStands := atCrane,
    taken := 0, returned := 0, raised := 0, moved := 0, cancelled := 0, faulted := 0, mismatched := 0 }
  if atCrane then craneFlag s fcRESET_LOADED else if c.lk.live then s else craneFlag s fcLINK_LOST
/-- Where the piece of a host order lies, for its final location (R136, R155); 0 where its record no longer holds it (the model's
choice, log 74). -/
def orderLoc (s : State) (o : StockOrder) : Loc :=
  if holds s o.ix (crPlate o.order) then (if (plateAt s o.ix).st == .lost then .lost else (plateAt s o.ix).loc) else .none
/-- Its start: queued orders and one held by a failed move are returned; ABORT goes out for a move in flight. The 2 s run from the taking
of HALL_RESET, where the ABORT was sent before it too, and no message restarts them (the model's choice, log 90). -/
def craneResetStart (s : State) : State :=
  let s := s.crane.stock.foldl (fun s o =>
    if o.stage == .queued || o.stage == .failed then returnHost s o.idx cABORTED_RESET
        (orderLoc s o) (heldMass s o) true
    else if o.stage == .reading then returnHost s o.idx cABORTED_RESET .none 0 false else s) s
  let s := if s.crane.state == .faulted then
      setCrane s { s.crane with move := s.crane.move.map (fun (m : Move) => { m with live := false }) } else s
  match s.crane.move with
  | some m =>
    if s.crane.state != .faulted && s.crane.lk.live then
      let s := if m.abort then s else sendCrane s (.craneAbort m.id)
      setCrane s { s.crane with move := some { m with abort := true }, resetAt := some s.clock }
    else craneResetEnd s
  | none => craneResetEnd s

end Sys2Proof.Machine
end

