-- ==== Sys2Proof/Machine/Images.lean ====
section
/-!
DEFINITION. Sys2Proof/Machine/Images.lean: the records that the part writes, as whole images (R47, R97, R110, R122, R156,
R172, R177, R188, R207, R215, R218). Where R218 leaves the class of a field open, log 14 says which was taken.
-/
namespace Sys2Proof.Machine

/-- A packed field (R218). -/
inductive Item
  | u8 (n : Nat) | u16 (n : Nat) | u32 (n : Nat)
deriving DecidableEq, Repr

/-- Fields packed from `off` with no gap; a u32 is aligned on 4 bytes (R218). -/
def pack : Nat → List Item → Nat
  | _, [] => 0
  | off, .u8 n :: l => put off 1 n + pack (off + 1) l
  | off, .u16 n :: l => put off 2 n + pack (off + 2) l
  | off, .u32 n :: l => let o := (off + 3) / 4 * 4; put o 4 n + pack (o + 4) l
/-- The first `n` lines of a record held as a number. -/
def linesOf (n x : Nat) : List Line := (List.range n).map (fun k => lineOf (x >>> (512 * k)))

def flag (b : Bool) : Item := .u8 b.toNat
def bedOr (b : Option BedId) : Item := .u8 ((b.map bedNum).getD 0xFF)
/-- A list of beds of up to four, one u8 each, H'FF after the last. -/
def bedList (l : List BedId) : List Item := (List.range 4).map (fun k => .u8 ((l[k]?.map bedNum).getD 0xFF))
def bedSet (l : List BedId) : Item := .u8 ((bedIds.filter l.contains).foldl (fun a b => a + 2 ^ bedNum b) 0)
def locItems (l : Loc) : List Item := [.u8 l.num.1, .u8 l.num.2]

/-! ## Bed status record (R47, R97, R110, R122) -/

/-- The plate of an order in STAGING is located at an infeed level below others (R3, R56): cause BURIED. -/
def buried (s : State) (h : Hand) : Bool :=
  match h.look with
  | some k => holds s k.ix (ordPlate h.order) && (plateAt s k.ix).located &&
      (match (plateAt s k.ix).loc with | .infeed n => n < locatedInfeed s | _ => false)
  | none => false
/-- Wait cause of ACCEPTING, STAGING and UNLOADING (R47, R56; log 7). -/
def waitCause (s : State) (b : BedId) : Nat :=
  let r := runOf s b
  match r.state with
  | .accepting => if r.acc == .claimWait then 1 else if r.acc == .lockWait then 2 else 0
  | .staging =>
    match r.hand with
    | none => 0
    | some h =>
      if !plateHere s b h then (if buried s h then 4 else 3)
      else if zoneOf s b != .free || otherHere s b (ordPlate h.order) then 5
      else if s.cmd.mode != .run then 6 else 0
  | .unloading => if r.unl == .release then 7 else if r.unl == .posted then 8 else 0
  | _ => 0

/-- Stream wait (R81, R106, R122; log 7): in BURNING, and INTERLOCK in PAUSED while MARK_INTERLOCK is in the pause cause set; none
for a PIERCE held under the bed's own token (the model's choice, log 70); PERMIT until the grant is delivered (the model's choice,
log 88). -/
def streamWait (s : State) (b : BedId) : Nat :=
  let r := runOf s b
  let t := r.stream
  if r.state != .burning then (if r.state == .paused && hasBit r.pause pMARK then 5 else 0)
  else if (bedOf s b).lk.hold then 1
  else if Config.window ≤ t.window.length then 2
  else if (nextPierce t).isSome then (if !r.permit then 3 else if s.arb.token != some b then 4 else 0)
  else if hasBit r.pause pMARK && (t.held.isSome || !t.resend.isEmpty) then 5
  else if t.fifo.isEmpty && r.fetch.isSome then 6 else 0

/-- The fields of bed status. Element index, order tag and plate ID are 0 with no order in hand (R47 against R218; the model's
reading, log 69). Index, attempts and cause of the mark at the cursor are 0 where none stands there (the model's choice, log 66); the
check level is 0 with no order in hand, the state before the pause and the arc at it are 0 outside PAUSED, place and code of a form
stop are 0 with none made (the model's choice, log 76). Whether the bed holds a permit is shown from the grant's delivery on (the
model's choice, log 88). The marking cursor and the index of the mark at it are two fields (the model's reading, log 93). A PAUSE
outstanding and a form stop made are two flags of one byte each (log 14). -/
def bedImage (s : State) (b : BedId) : List Item :=
  let bd := bedOf s b
  let r := bd.run
  let t := r.stream
  let m := r.marks
  let h := r.hand
  let level := (h.map (fun h => fullCheck s b h)).getD false
  let f := t.form.getD ⟨0, 0, 0⟩
  let x := if m.begun then m.table[m.cursor]? else none
  [.u8 r.state.num, .u8 (waitCause s b), .u8 (zoneOf s b).num, .u8 bd.ring.pos, .u8 ((h.map (·.idx)).getD 0),
   .u32 ((h.map (fun h => ordTag h.order)).getD 0), .u16 ((h.map (fun h => ordPlate h.order)).getD 0), flag bd.lk.live,
   .u8 r.pause.toNat,
   flag level, .u16 t.cursor.place.1, .u32 t.cursor.place.2, .u32 t.steps.toNat, .u16 t.window.length, .u16 t.resend.length,
   .u8 (streamWait s b), flag bd.lk.hold, flag t.pausing, flag t.form.isSome, .u16 f.idx, .u32 f.rep, .u8 f.code,
   flag t.exArc, .u8 (if r.state == .paused then (if t.fromMarking then 6 else 7) else 0),
   flag (r.state == .paused && t.arcAtPause), .u8 bd.lk.lastFault.toNat,
   .u16 m.cursor, .u16 (markCount m .pending), .u16 (markCount m .sent), .u16 (markCount m .done),
   .u16 (markCount m .failed), .u16 (markCount m .waived),
   .u16 (if x.isSome then m.cursor else 0), .u16 ((x.map (·.attempts)).getD 0), .u8 ((x.map (·.cause.num)).getD 0),
   flag m.pass.isSome, .u16 ((m.table.filter (·.unmarked)).length), .u16 ((m.formFail.map (·.1)).getD 0),
   .u8 ((m.formFail.map (·.2)).getD 0),
   flag r.permit, flag (s.arb.token == some b), flag r.pierce.isSome]

/-! ## Hall status record (R172, R39, R122, R212) -/

def hallWindow (s : State) : Nat := param s (·.watch) 0
def bedsNot (s : State) (p : State → BedId → Bool) : List BedId := bedIds.filter (fun b => !p s b)
/-- The hall command in execution, from its trigger on (R210), by the low byte of its code, 0 for none. -/
def hallCommand (s : State) : Nat :=
  match s.cmd.current with
  | some c => if 0x10 ≤ c.code.toNat && c.code.toNat ≤ 0x13 then c.code.toNat else 0
  | none => 0
/-- The fields of hall status. No token holder and the unused places of the wait lists are H'FF as R218 packs them, after hard reset too,
where R172 has every field but the mode 0 (the model's reading, log 91). -/
def hallImage (s : State) : List Item :=
  let k := s.cmd
  let a := s.arb
  let cls (f : Anchor → Nat × Nat) : Nat := param s (fun c => (freeSlots s (f c).1 (f c).2).length) 0
  [.u8 k.mode.num, .u8 k.origin.num, bedSet k.torch,
   bedSet (if k.mode == .halting then bedsNot s bedIdle else if k.mode == .resetting then bedsNot s bedReset else []),
   flag ((k.mode == .halting && !craneIdle s) || (k.mode == .resetting && !s.crane.resetEnded)),
   .u8 (hallCommand s), .u8 (hallWindow s),
   .u16 (cls (fun c => (0, c.classS.count))), .u16 (cls (fun c => (c.classS.count, c.classM.count))),
   .u16 (cls (fun c => (c.classS.count + c.classM.count, c.classL.count))), .u16 (overflowUsed s),
   .u16 (a.pool.getD 0), .u16 (freePermits a), bedSet a.holders] ++ bedList a.waits ++ [bedOr a.token] ++
  bedList a.tokenWaits ++
  [.u32 s.loader.commitNo.toNat, .u8 ((s.loader.verdict.map (·.code)).getD 0), .u8 s.faults.pending.toNat,
   .u8 s.faults.mask.toNat]

/-! ## Crane status record (R156) -/

def kindList (l : List BedReq) : List Item := (List.range 2).map (fun k => .u8 ((l[k]?.map (·.kind.num)).getD 0xFF))
/-- The fields of crane status. With no move in flight or failed the requester is H'FF (log 14) and every other field of the move is 0;
the kind is 0 with no overweight request; the abort state is 1 once ABORT has been sent, else 0 (the model's choices, log 85). -/
def craneImage (s : State) : List Item :=
  let c := s.crane
  let m := c.move
  let g (f : Move → Nat) (d : Nat) : Nat := (m.map f).getD d
  let who : Nat := match m with
    | some m => (match m.req with | .host i => i | .bed b _ _ => bedNum b)
    | none => 0xFF
  [.u8 c.state.num, flag c.lk.live, .u8 c.lk.load.num, .u32 (g (·.id.toNat) 0), .u8 (g (·.kind.num) 0), .u8 who,
   .u16 (g (·.plate) 0)] ++ locItems ((m.map (·.src)).getD .none) ++ locItems ((m.map (·.dst)).getD .none) ++
  [.u32 (g (fun m => m.expected.getD 0) 0), .u32 (g measuredOf 0), .u8 (g (·.abort.toNat) 0), .u8 (g (·.turned.toNat) 0),
   .u16 c.refusals, .u8 c.lastFault.toNat, bedOr ((firstOverweight s).map (·.1)), .u8 (((firstOverweight s).map (·.2.num)).getD 0),
   .u16 c.stock.length] ++ kindList c.bank.b0 ++ kindList c.bank.b1 ++ kindList c.bank.b2 ++ kindList c.bank.b3 ++
  [.u8 c.ringPos, .u8 (bedNum c.lastServed)]

/-! ## Fault record, violation log, verdict, statistics (R177, R188, R207, R215) -/

def groupImage (s : State) (g : Group) : List Item :=
  let f := s.faults.get g
  [.u8 f.flags.toNat, .u8 f.masks.toNat, flag f.comb, .u8 (persisting s g).toNat]
def faultImage (s : State) : List Item :=
  groupImage s (.bed .b0) ++ groupImage s (.bed .b1) ++ groupImage s (.bed .b2) ++ groupImage s (.bed .b3) ++
    groupImage s .crane ++ groupImage s .hall
def violationImage (s : State) : List Item :=
  .u32 s.path.logTotal.toNat :: .u8 s.path.log.length ::
    s.path.log.flatMap (fun v => [.u32 v.addr.toNat, .u8 v.cause.num, .u32 v.time.toNat])
def verdictLine (v : Verdict) : Line :=
  lineOf (put 0 1 v.code + put 1 1 v.kept.toNat + put 2 2 v.lost + put 4 4 v.d1.toNat + put 8 4 v.d2.toNat +
    put 0xC 4 v.no.toNat + put 0x10 4 v.val.toNat + put 0x14 4 v.time.toNat)

/-- The 31 statistics counters in the order of R215; the five violation counters in that of the causes' numbers (the model's
reading, log 99). -/
def counters (s : State) : List Word :=
  let r (b : BedId) : List Word := let g := (bedOf s b).ring; [g.taken, g.returned, g.raised]
  let k := s.stock
  let p := s.path
  let c := s.crane
  r .b0 ++ r .b1 ++ r .b2 ++ r .b3 ++ [c.taken, c.returned, c.raised, p.violElement, p.violRange, p.violTable, p.violArea,
    p.violAnchor, p.retries, p.expired, k.created, k.toRack, k.toOverflow, k.scrapped, k.unregistered, c.moved, c.cancelled,
    c.faulted, c.mismatched]
def clearRing (s : State) (b : BedId) : State := setRing s b { (bedOf s b).ring with taken := 0, returned := 0, raised := 0 }
/-- Every counter of R215 set to 0. -/
def clearCounters (s : State) : State :=
  let s := clearRing (clearRing (clearRing (clearRing s .b0) .b1) .b2) .b3
  let s := setCrane s { s.crane with taken := 0, returned := 0, raised := 0, moved := 0, cancelled := 0, faulted := 0, mismatched := 0 }
  let s := setPath s { s.path with violElement := 0, violRange := 0, violTable := 0, violArea := 0, violAnchor := 0,
                                   retries := 0, expired := 0 }
  setStock s { s.stock with created := 0, toRack := 0, toOverflow := 0, scrapped := 0, unregistered := 0 }

/-! ## Where each record lies and what it holds now -/

def verdictAddr (s : State) : Nat := s.loader.base + Config.verdictOffset
def candTable (s : State) : Nat := ((s.loader.ver.bind (·.cand)).map (·.table)).getD 0
/-- Where a record is written. A plate write-back still queued when a commit succeeds is composed, as every one, when it begins:
from the new table at the new base, zeros past its end (the model's choice, log 67). -/
def recAddr (s : State) : RecId → Nat
  | .plate i => param s (·.table) 0 + 128 * i
  | .scan i => candTable s + 128 * i
  | .verdict => verdictAddr s
  | .hall => param s (·.control) 0 + 0xC0
  | .bed b => param s (·.control) 0 + 0x140 + 128 * bedNum b
  | .crane => param s (·.control) 0 + 0x340
  | .fault => param s (·.control) 0 + 0x3C0
  | .violations => param s (·.control) 0 + 0x440
  | .stats => param s (·.control) 0 + 0x4C0
def recLines (s : State) : RecId → List Line
  | .plate i => (plateAt s i).lines
  | .scan i => (((s.loader.ver.map Verif.table).getD []).getD i Plate.blank).lines
  | .verdict => [(((s.loader.ver.bind Verif.verdict).or s.loader.verdict).map verdictLine).getD 0]
  | .hall => linesOf 2 (pack 0 (hallImage s))
  | .bed b => linesOf 2 (pack 0 (bedImage s b))
  | .crane => linesOf 2 (pack 0 (craneImage s))
  | .fault => linesOf 2 (pack 0 (faultImage s))
  | .violations => linesOf 2 (pack 0 (violationImage s))
  | .stats => linesOf 4 (pack 0 (s.cmd.snapshot.map (fun w => Item.u32 w.toNat)))
/-- The content of a status record, compared to see a change (R47). -/
def content (s : State) : RecId → List Item
  | .hall => hallImage s
  | .bed b => bedImage s b
  | .crane => craneImage s
  | .fault => faultImage s
  | _ => []
/-- The control-area records whose every change of content queues a write-back (R47, R156, R172, R177). -/
def statusRecords : List RecId := [.hall, .bed .b0, .bed .b1, .bed .b2, .bed .b3, .crane, .fault]

end Sys2Proof.Machine
end

