-- ==== Sys2Proof/Machine/Settle.lean ====
section
/-!
DEFINITION. Sys2Proof/Machine/Settle.lean: what follows by itself in the taking of a command: beds and crane act on what
changed, hall modes and commands complete, changed records queue their write-backs, results are handed on (log 8).
-/
namespace Sys2Proof.Machine

/-- The beds act, in the order B0 to B3. -/
def settleBeds (s : State) : State := bedSettle (bedSettle (bedSettle (bedSettle s .b0) .b1) .b2) .b3
def settleUnload (s : State) : State := unloadEnd (unloadEnd (unloadEnd (unloadEnd s .b0) .b1) .b2) .b3

/-! ## Completions of hall and bed commands -/

/-- Beds still to report their torch off are kept in HOLD only (R172). -/
def settleTorch (s : State) : State :=
  setCmd s { s.cmd with torch := if s.cmd.mode == .hold then s.cmd.torch.filter (fun b => !torchOff s b) else [] }
def stageOf (s : State) : CmdStage := (s.cmd.current.map (·.stage)).getD .ended
/-- HALL_HOLD completes (R163). -/
def holdDone (s : State) : State :=
  match stageOf s with
  | .hold n => if s.cmd.torch.isEmpty then give s oDONE n 0 0 [.writeBack .hall] else s
  | _ => s
def allBeds (p : BedId → Bool) : Bool := p .b0 && p .b1 && p .b2 && p .b3
/-- HALTING ends (R165). -/
def haltDone (s : State) : State :=
  if s.cmd.mode == .halting && allBeds (bedIdle s) && craneIdle s && s.arb.grants.isEmpty then
    give (setCmd s { s.cmd with mode := .halt }) oDONE s.cmd.haltBurn.toNat s.cmd.haltCrane.toNat
      (if s.crane.state == .faulted then 1 else 0) [.writeBack .hall]
  else s
def clearReset (s : State) (b : BedId) : State := setRun s b { runOf s b with resetEnd := none }
/-- RESETTING ends (R167). -/
def resetDone (s : State) : State :=
  if s.cmd.mode == .resetting && allBeds (bedReset s) && s.crane.resetEnded && s.arb.grants.isEmpty then
    let s1 := watchStart (setCrane (setCmd s { s.cmd with mode := .halt }) { s.crane with resetEnded := false })
    let s1 := clearReset (clearReset (clearReset (clearReset s1 .b0) .b1) .b2) .b3
    give s1 oDONE s.cmd.resetStopped.toNat s.cmd.resetOther.toNat (if s.crane.state == .faulted then 1 else 0)
      [.writeBack .hall]
  else s
/-- BED_STOP completes (R67). -/
def stopDone (s : State) : State :=
  match stageOf s with
  | .stopping b =>
    if (runOf s b).state != .stopping then
      give s oDONE (runOf s b).state.num 0 0 [.writeBack (.bed b), .bedReturn b] else s
  | _ => s
/-- BED_RESUME REMARK completes (R108, R109). -/
def remarkDone (s : State) : State :=
  match stageOf s with
  | .remark b =>
    match (runOf s b).remarkEnd with
    | some (.finished n) => give s oDONE (setSize (runOf s b).pause) n 0 [.writeBack (.bed b)]
    | some (.early n) => give s oSTATE (runOf s b).state.num n 0 [.writeBack (.bed b)]
    | none => s
  | _ => s
def clearRemark (s : State) (b : BedId) : State := setRun s b { runOf s b with remarkEnd := none }
def settleCommands (s : State) : State :=
  let s := remarkDone (stopDone (resetDone (haltDone (holdDone (settleTorch s)))))
  clearRemark (clearRemark (clearRemark (clearRemark s .b0) .b1) .b2) .b3

/-! ## Write-backs and results -/

/-- A status record whose content changed in the taking is written back (R47, R156, R172, R177). -/
def pushChanged (s0 s : State) (r : RecId) : State := if content s0 r == content s r then s else pushControl s r
def settleRecords (s0 s : State) : State := statusRecords.foldl (pushChanged s0) s
/-- FAULT follows the answer of the fault record's write-back (R176; log 35). -/
def settleFault (s : State) : State :=
  if s.faults.owed && s.loader.inForce.isSome then
    let s := pushWb (setFaults s { s.faults with owed := false }) .fault
    defer s (ticketOf s (.writeBack .fault)).toList (.cause aFAULT)
  else s
/-- The requests of this taking that a result waits for (R16, R47, R156, R211; log 22). -/
def resultWaits (s0 s : State) (ws : List ReqOf) : List Nat :=
  ws.filterMap fun w => match w with
    | .writeBack r => if statusRecords.contains r && content s0 r == content s r then none else ticketOf s w
    | w => ticketOf s w
/-- A result given in this taking is written, or waits (R211). -/
def settleResult (s0 s : State) : State :=
  match s.cmd.owed, s.cmd.current with
  | some r, some c =>
    let ws := resultWaits s0 s r.waits ++ r.always.filterMap (ticketOf s)
    let s := setCmd s { s.cmd with owed := none }
    if ws.isEmpty then
      let s := pushResult s c.code c.target c.tag r.outcome r.d1 r.d2 r.d3
      match r.after with
      | some b => startRead s b
      | none => s
    else
      let s := defer s ws (.result c.code c.target c.tag r.outcome r.d1 r.d2 r.d3)
      match r.after with
      | some b => defer s ws (.ownerRead b)
      | none => s
  | _, _ => s

/-- All that follows the effect of a command in its taking: `s0` is the state before it. -/
def settle (s0 s : State) : State :=
  let s := settleCommands (craneSelect (settleBeds (settleUnload s)))
  settleResult s0 (settleFault (settleRecords s0 s))

/-- A taking: outputs of earlier takings are gone, the effect is made, the rest follows. -/
def taking (s : State) (effect : State → State) : Host.Outcome State Fault Refusal :=
  .next (settle s (effect (fresh s)))
/-- A command for which nothing stands to be taken has no effect (log 3). -/
def idle (s : State) : Host.Outcome State Fault Refusal := .next (fresh s)
def takingIf (ok : Bool) (s : State) (effect : State → State) : Host.Outcome State Fault Refusal :=
  if ok then taking s effect else idle s

end Sys2Proof.Machine
end

