-- ==== Sys2Proof/Machine/Path.lean ====
section
/-!
DEFINITION. Sys2Proof/Machine/Path.lean: the memory path: SSP, classifier, brackets, MSP arbiter (R181 to R197), and the
host writes with snooped effects (R190).
-/
namespace Sys2Proof.Machine

/-! ## Transactions and regions (R181, R183) -/

/-- Offsets of the bytes of a transaction (R181). -/
def txBytes (t : Transaction) : List Nat :=
  (List.range (8 * t.beats)).filter (fun k => !t.write || t.enables.getLsbD k)
def touches (t : Transaction) (lo n : Nat) : Bool :=
  (txBytes t).any (fun k => lo ≤ t.addr.toNat + k && t.addr.toNat + k < lo + n)
/-- Every byte of the range is a byte of the transaction (R190). -/
def covers (t : Transaction) (lo n : Nat) : Bool :=
  (List.range n).all (fun k => (txBytes t).any (fun j => t.addr.toNat + j == lo + k))
/-- The `n`-byte field at an address inside the transaction. -/
def txField (t : Transaction) (lo n : Nat) : Nat := fld t.data.toNat (lo - t.addr.toNat) n
def malformed (t : Transaction) : Bool := t.beats == 0 || 8 < t.beats || 64 < t.addr.toNat % 64 + 8 * t.beats

/-- The regions of an anchor with their field numbers and sizes, the anchor block first (R183, R202). -/
def regionsOf (base : Nat) (a : Anchor) : List (Nat × Nat × Nat) :=
  [(0, base, Config.anchorSize), (7, a.control, Config.controlSize), (8, a.table, 128 * a.capacity),
   (10, a.craneBase, 32 * a.craneCount)] ++
  (bedIds.filter (fun b => (a.beds.get b).present)).map (fun b => (13, (a.beds.get b).base, 64 * (a.beds.get b).count))
/-- The watched regions (R183). -/
def watched (s : State) : List (Nat × Nat) :=
  match s.loader.inForce with
  | some a => (regionsOf s.loader.base a).map (·.2)
  | none => [(s.loader.base, Config.anchorSize)]
def overlaps (a n b m : Nat) : Bool := a < b + m && b < a + n && 0 < n && 0 < m
/-- Check 6 of R48 and the address conditions of R34, R52: aligned, within the memory size, outside every watched region. The empty
range of an order with step count 0 lies beyond the memory size where its address does (the model's choice, log 94). -/
def listAddressOk (s : State) (a n : Nat) : Bool :=
  a % 64 == 0 && a + n ≤ 1048576 * param s (·.memMiB) 0 && !(watched s).any (fun r => overlaps a n r.1 r.2)

/-! ## Protected places and the retry set (R184, R186) -/

def bedOwned (s : State) (b : BedId) : List (Nat × Nat) :=
  let r := runOf s b
  (r.hand.map (fun h => (h.addr, 64))).toList ++ (r.ret.map (fun q => ((bedCfg s b).base + 64 * q.idx, 64))).toList
/-- The protected places, in the order of the rows of R184. -/
def protectedPlaces (s : State) : List (VCause × Nat × Nat) :=
  let base := s.loader.base
  (if s.loader.inForce.isSome && s.cmd.mode != .halt then [(VCause.anchor, base, Config.anchorSize)] else []) ++
  [(VCause.anchor, base + Config.verdictOffset, 64)] ++
  (match s.loader.inForce with
    | none => []
    | some a => [(VCause.table, a.table, 128 * a.capacity), (VCause.area, a.control + 0x44, Config.controlSize - 0x44)]) ++
  (bedIds.flatMap (bedOwned s)).map (fun r => (VCause.element, r)) ++
  s.crane.stock.map (fun o => (VCause.element, o.addr, 32)) ++
  s.locks.entries.map (fun e => (VCause.range, e.addr, e.len))
def protectedCause (s : State) (t : Transaction) : Option VCause :=
  ((protectedPlaces s).find? (fun p => touches t p.2.1 p.2.2)).map (·.1)
/-- The retry set (R186). It is judged before the protected places (R185), so a write touching the verdict record in START_UP or in a
verification is answered RETRY (the model's reading against R198, log 92). -/
def retrySet (s : State) : List (Nat × Nat) :=
  if s.cmd.mode == .startUp then [(s.loader.base, Config.anchorSize)] else
  match s.loader.ver with
  | none => []
  | some v => watched s ++ (match v.cand with | some a => (regionsOf s.loader.base a).map (·.2) | none => [])
def mustRetry (s : State) (t : Transaction) : Bool := (retrySet s).any (fun r => touches t r.1 r.2)

/-! ## Drops (R187, R188) -/

def countViolation (p : Path) : VCause → Path
  | .element => { p with violElement := p.violElement + 1 }
  | .range => { p with violRange := p.violRange + 1 }
  | .table => { p with violTable := p.violTable + 1 }
  | .area => { p with violArea := p.violArea + 1 }
  | .anchor => { p with violAnchor := p.violAnchor + 1 }
def logViolation (p : Path) (v : Violation) : Path :=
  let l := p.log ++ [v]
  { p with log := l.drop (l.length - Config.violationLog), logTotal := p.logTotal + 1 }
/-- A dropped write (R187). -/
def dropWrite (s : State) (t : Transaction) (c : VCause) : State :=
  let v : Violation := ⟨t.addr + word ((txBytes t).headD 0), c, s.clock⟩
  let s := setPath s (logViolation (countViolation s.path c) v)
  let s := pushControl (setFlag s .hall fhVIOLATION) .violations
  emit s (if param s (·.dropDone) false then .sspDone else .sspRefused)

/-! ## SSP and classification (R181, R185, R189, R191) -/

/-- A transaction offered at the SSP (R181; log 25). -/
def offer (s : State) (t : Transaction) : State :=
  if malformed t then emit s .sspRefused
  else if t.write && (txBytes t).isEmpty then emit s .sspDone
  else if s.path.ssp.length < Config.sspQueue then setPath s { s.path with ssp := s.path.ssp ++ [t] }
  else setPath s { s.path with held := s.path.held ++ [t] }
/-- The head leaves the SSP queue; a transaction that the port held is accepted in its room. -/
def sspPop (p : Path) : Path :=
  match p.held with
  | t :: rest => { p with ssp := p.ssp.tail ++ [t], held := rest }
  | [] => { p with ssp := p.ssp.tail }

/-- Records with brackets (R191), their place and number of lines, besides plate records. -/
def bracketRecords : List (RecId × Nat) :=
  [(.hall, 2), (.bed .b0, 2), (.bed .b1, 2), (.bed .b2, 2), (.bed .b3, 2), (.crane, 2), (.fault, 2), (.violations, 2), (.stats, 4)]
/-- The record and line number in which the bytes of a read lie (R191), with the number of its lines. -/
def recordAt (s : State) (t : Transaction) : Option (RecId × Nat × Nat) :=
  match s.loader.inForce with
  | none => none
  | some a =>
    let l := t.addr.toNat / 64 * 64
    if a.table ≤ l && l < a.table + 128 * a.capacity then some (.plate ((l - a.table) / 128), (l - a.table) / 64 % 2, 2)
    else (bracketRecords.find? (fun r => recAddr s r.1 ≤ l && l < recAddr s r.1 + 64 * r.2)).map
      (fun r => (r.1, (l - recAddr s r.1) / 64, r.2))
def bracketOpen (p : Path) (r : RecId) : Bool := p.brackets.any (·.record == r)
def closeBracket (p : Path) (r : RecId) : Path := { p with brackets := p.brackets.filter (·.record != r) }
/-- A first-line read opens a bracket or restarts its limit (R191). -/
def bracketRead (s : State) (t : Transaction) : State :=
  match recordAt s t with
  | some (r, 0, _) =>
    let p := s.path
    if bracketOpen p r then
      setPath s { p with brackets := p.brackets.map (fun b => if b.record == r then { b with start := s.clock } else b) }
    else if p.brackets.length < Config.brackets then setPath s { p with brackets := p.brackets ++ [⟨r, s.clock⟩] }
    else s
  | _ => s
def answerRetry (s : State) : State := emit (setPath s { s.path with retries := s.path.retries + 1 }) .sspRetry
/-- Classification of the head of the SSP queue (R185 to R189). -/
def classify (s : State) (t : Transaction) : State :=
  let s := setPath s (sspPop s.path)
  if mustRetry s t then answerRetry s
  else if t.write then
    match protectedCause s t with
    | some c => dropWrite s t c
    | none => setPath s { s.path with fwd := some ⟨t, false⟩ }
  else
    let s := bracketRead s t
    setPath s { s.path with fwd := some ⟨t, false⟩ }

/-! ## MSP arbiter (R194, R195) -/

def deferredByBracket (p : Path) (r : Req) : Bool :=
  match r.what with
  | .writeBack q => bracketOpen p q
  | _ => false
/-- The request the record engine presents (R194). -/
def enginePresents (s : State) : Option Req :=
  if s.engine.cur.isSome then none else s.engine.queue.find? (fun r => !deferredByBracket s.path r)
def readOf (a beats : Nat) : Transaction := ⟨word a, false, beats, 0, 0⟩
def writeOf (a beats : Nat) (en : BitVec 64) (d : Line) : Transaction := ⟨word a, true, beats, en, d⟩
def wholeLine : BitVec 64 := enable 0 64
/-- The transaction of a request other than a write-back (R42 to R44, R132, R136, R209, R211). -/
def reqTransaction (r : Req) : Transaction :=
  match r.what with
  | .bedElement _ | .descriptor _ | .slotRead | .anchorLine _ | .scanRead _ _ => readOf r.addr 8
  | .bedOwner _ | .craneOwner _ => readOf r.addr 1
  | .craneElement _ => readOf r.addr 4
  | .bedTaken _ | .craneTaken _ => writeOf r.addr 1 (enable 0 4) (lineOf TAKEN)
  | .craneReturn _ => writeOf r.addr 4 r.enables r.data
  | _ => writeOf r.addr 8 r.enables r.data
def grantMsp (s : State) (u : MspUse) (t : Transaction) : State := emit (setPath s { s.path with msp := some u }) (.msp t)
/-- The record engine's request begins (R194); the image of a write-back is composed here (log 9). -/
def grantEngine (s : State) (r : Req) : State :=
  let q := s.engine.queue.filter (·.ticket != r.ticket)
  match r.what with
  | .writeBack w =>
    let a := recAddr s w
    let ls := recLines s w
    let s := setEngine s { s.engine with queue := q, cur := some ⟨r, ls.tail, a + 64, false⟩ }
    grantMsp s .engine (writeOf a 8 wholeLine (ls.headD 0))
  | _ => grantMsp (setEngine s { s.engine with queue := q, cur := some ⟨r, [], 0, false⟩ }) .engine (reqTransaction r)
/-- The next line of the write-back begun (R195). -/
def grantNextLine (s : State) (c : Current) (l : Line) : State :=
  let s := setEngine s { s.engine with cur := some { c with lines := c.lines.tail, next := c.next + 64 } }
  grantMsp s .engine (writeOf c.next 8 wholeLine l)

def fetchWaits (s : State) (b : BedId) : Bool := ((runOf s b).fetch.map (fun f => !f.granted)).getD false
/-- Urgency as the FIFO stands (R79): of stream fetches alone, so a mark-list read is never urgent (the model's choice, log 65). -/
def fetchUrgent (s : State) (b : BedId) : Bool :=
  let r := runOf s b
  match r.fetch, r.hand with
  | some f, some h => !f.granted && !f.discard && f.use == .stream && r.stream.fifo.length < Config.urgentBelow &&
      2 * r.stream.nextLine < ordSteps h.order
  | _, _ => false
def grantFetch (s : State) (b : BedId) : State :=
  let r := runOf s b
  match r.fetch with
  | some f => grantMsp (setRun s b { r with fetch := some { f with granted := true } }) (.fetch b) (readOf f.addr 8)
  | none => s
def hostWaits (s : State) : Bool := (s.path.fwd.map (fun f => !f.granted)).getD false
def engineWaits (s : State) : Bool := (enginePresents s).isSome || bedIds.any (fetchWaits s)
/-- The grant among engine claimants (R195, paragraph 3). -/
def grantEngineSide (s : State) : State :=
  match enginePresents s with
  | some r => grantEngine s r
  | none =>
    match (bedsAfter s.path.lastFetch).find? (fetchWaits s) with
    | some b => grantFetch (setPath s { s.path with lastFetch := b }) b
    | none => s
def setSide (s : State) (d : Side) : State := setPath s { s.path with lastSide := d }
/-- The host forward takes its grant; a write that now touches a protected place is dropped (R185; log 24) and the grant passes on,
the last side served as it was (log 24). -/
def grantHost (s : State) (f : Forward) (contest : Bool) : State :=
  match (if f.t.write then protectedCause s f.t else none) with
  | some c =>
    let s := dropWrite (setPath s { s.path with fwd := none }) f.t c
    grantEngineSide s
  | none =>
    let s := if contest then setSide s .host else s
    grantMsp (setPath s { s.path with fwd := some { f with granted := true } }) .host f.t
/-- The choice of paragraphs 2 and 3 of R195. -/
def grantSides (s : State) : State :=
  match s.path.fwd with
  | some f =>
    if f.granted then grantEngineSide s
    else if !engineWaits s then grantHost s f false
    else if param s (·.alternate) false && s.path.lastSide == .host then grantEngineSide (setSide s .engine)
    else grantHost s f true
  | none => grantEngineSide s
/-- One grant (R195). -/
def grant (s : State) : State :=
  match s.engine.cur.bind (fun c => c.lines.head?.map (fun l => (c, l))) with
  | some (c, l) => grantNextLine s c l
  | none =>
    match (bedsAfter s.path.lastUrgent).find? (fetchUrgent s) with
    | some b => grantFetch (setPath s { s.path with lastUrgent := b }) b
    | none => grantSides s
/-- The MSP is free, memory-ready has risen, and a claimant waits. -/
def mayGrant (s : State) : Bool :=
  s.path.memReady && s.path.msp.isNone &&
    ((s.engine.cur.map (fun c => !c.lines.isEmpty)).getD false || hostWaits s || engineWaits s)

/-! ## Answers to the host forward (R182, R190) -/

/-- The host forward that the MSP was granted. -/
def hostForward (s : State) : Option Transaction :=
  if s.path.msp == some .host then (s.path.fwd.bind (fun f => if f.granted then some f.t else none)) else none
def hostWrite (s : State) : Option Transaction := (hostForward s).filter (·.write)
def hostRead (s : State) : Option Transaction := (hostForward s).filter (fun t => !t.write)
/-- The forward ends and its answer is relayed. -/
def endForward (s : State) (o : Output) : State := emit (setPath s { s.path with fwd := none, msp := none }) o

/-- The element of a burn ring whose ownership word is written ISSUED (R190). -/
def burnIssued (s : State) (t : Transaction) : Option (BedId × Nat) :=
  match s.loader.inForce with
  | none => none
  | some a =>
    bedIds.findSome? fun b =>
      let c := a.beds.get b
      let l := t.addr.toNat / 64 * 64
      if c.present && c.base ≤ l && l < c.base + 64 * c.count && covers t l 4 && txField t l 4 == ISSUED then
        some (b, (l - c.base) / 64) else none
/-- The elements of the crane ring written ISSUED (R190), handed on in the order of their addresses (the model's choice, log 78). -/
def craneIssued (s : State) (t : Transaction) : List Nat :=
  match s.loader.inForce with
  | none => []
  | some a =>
    let l := t.addr.toNat / 64 * 64
    ([l, l + 32].filter (fun e => a.craneBase ≤ e && e < a.craneBase + 32 * a.craneCount && covers t e 4 &&
      txField t e 4 == ISSUED)).map (fun e => (e - a.craneBase) / 32)
/-- The write covers the command code word (R209). -/
def isTrigger (s : State) (t : Transaction) : Bool := param s (fun a => covers t a.control 16) false
def isAck (s : State) (t : Transaction) : Bool := param s (fun a => covers t (a.control + 0x40) 4) false
/-- The write raises a commit: it covers the commit word in HALT with no verification running (R208). One forwarded before a
verification and answered DONE during it raises none, and the commit value stays the earlier one (the model's choice, log 98). -/
def isCommit (s : State) (t : Transaction) : Bool :=
  s.cmd.mode == .halt && s.loader.ver.isNone && covers t (s.loader.base + 8) 4
/-- The write triggers a command that can be taken: none is in execution, and no verification runs (R159, R208, R210; log 64). -/
def takesTrigger (s : State) (t : Transaction) : Bool := isTrigger s t && s.cmd.current.isNone && s.loader.ver.isNone
/-- A snooped effect with a row of its own: a trigger that no command can come of has none. -/
def snooped (s : State) (t : Transaction) : Bool :=
  (burnIssued s t).isSome || !(craneIssued s t).isEmpty || takesTrigger s t || isAck s t || isCommit s t

/-- HOST_WRITE_ANSWER (R182, R196, R210): relayed; a trigger taken while a command is in execution gives a BUSY result, and so does
one forwarded before and answered during a verification, in which no command is taken (R159, R208; log 64). -/
def hostWriteAnswer (s : State) (t : Transaction) (a : Ack) : State :=
  match a with
  | .refused => endForward s .sspRefused
  | .done =>
    let s := endForward s .sspDone
    if isTrigger s t then
      let c := param s (·.control) 0
      pushResultAs (watchEvent s) .busyResult (BitVec.ofNat 16 (txField t c 2)) (byte (txField t (c + 2) 1))
        (word (txField t (c + 4) 4)) oBUSY 0 0 0
    else s

/-- A verification begins (R193, R207, R208). -/
def beginVerification (s : State) (val : Word) : State :=
  let s := setLoader s { s.loader with
    commitNo := s.loader.commitNo + 1, commitVal := val, pendingCommit := none,
    ver := some { stage := .anchor, lines := [], cand := none, first := none, table := [], changed := [], lost := 0,
                  verdict := none } }
  pushRead (setPath s { s.path with brackets := [] }) (.anchorLine 0) s.loader.base
/-- A commit (R208). -/
def commit (s : State) (t : Transaction) : State :=
  let v := word (txField t (s.loader.base + 8) 4)
  let s := endForward s .sspDone
  if s.cmd.current.isSome then setLoader s { s.loader with pendingCommit := some v } else beginVerification s v

/-- The last line of a record under an open bracket (R192). -/
def closes (s : State) (t : Transaction) : Option RecId :=
  match recordAt s t with
  | some (r, k, n) => if k + 1 == n && bracketOpen s.path r then some r else none
  | none => none
def readReply : ReadAnswer → Output
  | .done d => .sspData d
  | .refused => .sspRefused

/-- The command trigger taken with no command in execution and no verification running (R209). -/
def trigger (s : State) (t : Transaction) : State :=
  let c := param s (·.control) 0
  let s := watchEvent (endForward s .sspDone)
  let s := setCmd s { s.cmd with
    current := some ⟨BitVec.ofNat 16 (txField t c 2), byte (txField t (c + 2) 1), word (txField t (c + 4) 4), .reading⟩ }
  pushRead s .slotRead c
/-- The acknowledge word (R213). -/
def acknowledge (s : State) (t : Transaction) : State :=
  let c := param s (·.control) 0
  let s := watchEvent (endForward s .sspDone)
  setFaults s { s.faults with pending := clearBits s.faults.pending (byte (txField t (c + 0x40) 1)) }
/-- ISSUED to a burn ring element (R42). -/
def burnWrite (s : State) (b : BedId) (i : Nat) : State :=
  let s := watchEvent (endForward s .sspDone)
  if (runOf s b).state == .waiting && (runOf s b).ret.isNone && (bedOf s b).ring.pos == i then takeOrder s b else s
/-- ISSUED to crane ring elements (R132). -/
def craneWrite (s : State) (is : List Nat) : State :=
  is.foldl (fun s i => if mayTake s && s.crane.ringPos == i then takeCrane s else s) (watchEvent (endForward s .sspDone))

/-! ## The commands -/

/-- HARD_RESET (R200): the queue of the model is kept. -/
def execHardReset (as1 as0 : Bool) (s : State) : Host.Outcome State Fault Refusal :=
  .next { State.hardReset as1 as0 with pending := s.pending }
/-- MEMORY_READY (R200): the first rise. -/
def execMemoryReady (s : State) : Host.Outcome State Fault Refusal :=
  takingIf (!s.path.memReady) s fun s => beginVerification (setPath s { s.path with memReady := true }) 0
def execSspTransaction (t : Transaction) (s : State) : Host.Outcome State Fault Refusal := taking s fun s => offer s t
def execHostClassify (s : State) : Host.Outcome State Fault Refusal :=
  takingIf (s.path.fwd.isNone && !s.path.ssp.isEmpty) s fun s =>
    match s.path.ssp with
    | t :: _ => classify s t
    | [] => s
def execMspGrant (s : State) : Host.Outcome State Fault Refusal := takingIf (mayGrant s) s grant
def execHostWriteAnswer (a : Ack) (s : State) : Host.Outcome State Fault Refusal :=
  match hostWrite s with
  | some t => takingIf (a == .refused || !snooped s t) s fun s => hostWriteAnswer s t a
  | none => idle s
def execBracketClose (a : ReadAnswer) (s : State) : Host.Outcome State Fault Refusal :=
  match (hostRead s).bind (closes s) with
  | some r => taking s fun s => endForward (setPath s (closeBracket s.path r)) (readReply a)
  | none => idle s
def execHostReadAnswer (a : ReadAnswer) (s : State) : Host.Outcome State Fault Refusal :=
  match hostRead s with
  | some t => takingIf (closes s t).isNone s fun s => endForward s (readReply a)
  | none => idle s
/-- BRACKET_EXPIRY (R192): the 250 µs lie below the hall clock's unit (log 4). -/
def execBracketExpiry (r : RecId) (s : State) : Host.Outcome State Fault Refusal :=
  takingIf (bracketOpen s.path r) s fun s =>
    let p := closeBracket s.path r
    setPath s { p with expired := p.expired + 1 }
def execBurnRingIssuedWrite (s : State) : Host.Outcome State Fault Refusal :=
  match (hostWrite s).bind (burnIssued s) with
  | some (b, i) => taking s fun s => burnWrite s b i
  | none => idle s
def execCraneRingIssuedWrite (s : State) : Host.Outcome State Fault Refusal :=
  match (hostWrite s).map (craneIssued s) with
  | some (i :: is) => taking s fun s => craneWrite s (i :: is)
  | _ => idle s
def execAcknowledgeWrite (s : State) : Host.Outcome State Fault Refusal :=
  match (hostWrite s).filter (isAck s) with
  | some t => taking s fun s => acknowledge s t
  | none => idle s
def execCommit (s : State) : Host.Outcome State Fault Refusal :=
  match (hostWrite s).filter (isCommit s) with
  | some t => taking s fun s => commit s t
  | none => idle s
def execCommandTrigger (s : State) : Host.Outcome State Fault Refusal :=
  match (hostWrite s).filter (takesTrigger s) with
  | some t => taking s fun s => trigger s t
  | none => idle s

end Sys2Proof.Machine
end

