-- ==== Sys2Proof/Machine/Engine.lean ====
section
/-!
DEFINITION. Sys2Proof/Machine/Engine.lean: the MSP's answers to the record engine and to the stream fetchers (R42 to R51,
R55, R78, R98, R132, R136, R194, R196, R211).
-/
namespace Sys2Proof.Machine

/-! ## The request in progress -/

/-- The request whose transaction the MSP has in progress. -/
def engReq (s : State) : Option Req := if s.path.msp == some .engine then s.engine.cur.map (·.req) else none
def freeMsp (s : State) : State := setPath s { s.path with msp := none }
/-- A request is done and leaves the engine (R194). -/
def finishReq (s : State) : State := freeMsp (setEngine s { s.engine with cur := none })
/-- A refused request goes to the tail of the queue (R196). -/
def requeue (s : State) (r : Req) (refused : Bool) : State :=
  setEngine s { s.engine with queue := s.engine.queue ++ [{ r with refused := refused }] }
def writeBackFlag (s : State) : State := setFlag s .hall fhWRITE_BACK

def runAct (s : State) : Act → State
  | .result c t g o d1 d2 d3 => pushResult s c t g o d1 d2 d3
  | .cause i => addCause s i
  | .ownerRead b => startRead s b
/-- What waited for the request's answer and for nothing else comes about (R16, R47, R176, R211). -/
def fire (s : State) (ticket : Nat) : State :=
  let l := s.engine.deferred.map (fun (d : Deferred) => { d with waits := d.waits.filter (· != ticket) })
  let s := setEngine s { s.engine with deferred := l.filter (fun d => !d.waits.isEmpty) }
  (l.filter (fun d => d.waits.isEmpty)).foldl (fun s d => runAct s d.act) s

def isWb (r : Req) : Bool := match r.what with | .writeBack .verdict => false | .writeBack _ => true | _ => false
def isResult (r : Req) : Bool := r.what == .result || r.what == .busyResult
def bedElementOf (r : Req) : Option BedId := match r.what with | .bedElement b => some b | _ => none
def bedOwnerOf (r : Req) : Option BedId := match r.what with | .bedOwner b => some b | _ => none
def bedReturnOf (r : Req) : Option BedId := match r.what with | .bedReturn b => some b | _ => none
def descriptorOf (r : Req) : Option BedId := match r.what with | .descriptor b => some b | _ => none
def craneOwnerOf (r : Req) : Option Nat := match r.what with | .craneOwner i => some i | _ => none
def craneElementOf (r : Req) : Option Nat := match r.what with | .craneElement i => some i | _ => none
def craneReturnOf (r : Req) : Option Nat := match r.what with | .craneReturn i => some i | _ => none
def isTaken (r : Req) : Bool := match r.what with | .bedTaken _ | .craneTaken _ => true | _ => false

/-! ## Write-backs and results -/

/-- A line of a write-back is answered (R16, R196): at the last line the request is done, and the image of a record with a
refused line stays pending. -/
def writeBackAnswer (s : State) (c : Current) (r : RecId) (a : Ack) : State :=
  let s := if a == .refused then writeBackFlag s else s
  let refused := c.refused || a == .refused
  if !c.lines.isEmpty then freeMsp (setEngine s { s.engine with cur := some { c with refused := refused } })
  else
    let s := finishReq s
    let others := s.engine.refused.filter (· != r)
    fire (setEngine s { s.engine with refused := if refused then others ++ [r] else others }) c.req.ticket
/-- The result write of the command in execution ends it (R211); a pending commit begins its verification or is discarded
(R208). -/
def endCommand (s : State) : State :=
  let s := setCmd s { s.cmd with current := none }
  match s.loader.pendingCommit with
  | some v => if s.cmd.mode == .halt then beginVerification s v
              else setLoader s { s.loader with pendingCommit := none }
  | none => s
def resultAnswer (s : State) (r : Req) (a : Ack) : State :=
  let s := finishReq s
  match a with
  | .refused => requeue (writeBackFlag s) r true
  | .done =>
    let s := addCause s aCOMMAND
    if r.what == .result then endCommand s else s

/-! ## Bed reads and returns -/

/-- Check 11 (R48). -/
def check11 (s : State) (b : BedId) : State :=
  let r := runOf s b
  if ((r.hand.bind (·.look)).map (·.away)).getD false then rejectOrder s b 11 else setRun s b { r with acc := .burn }
/-- Check 10 up to the descriptor's read (R34, R48). -/
def check10 (s : State) (b : BedId) (h : Hand) : State :=
  if ordDescAddr h.order == 0 then check11 s b
  else if listAddressOk s (ordDescAddr h.order) 64 then
    pushRead (setRun s b { runOf s b with acc := .descriptor }) (.descriptor b) (ordDescAddr h.order)
  else rejectOrder s b 10
/-- The element read of a take (R42, R45, R51); nothing for an order that has ended before it (log 56), and nothing for one that a hall
reset has put in STOPPING, still in hand: no copy, no TAKEN, no MEMORY at a refusal (the model's choice, log 86). -/
def bedElementAnswer (s : State) (b : BedId) (a : ReadAnswer) : State :=
  let s := finishReq s
  let r := runOf s b
  match r.hand with
  | none => s
  | some h =>
    if !(r.state == .accepting && r.acc == .element) then s else
    match a with
    | .refused => memoryFault s b
    | .done d =>
      let s := setRun s b { r with hand := some { h with order := d }, acc := .lookup false }
      let s := push s (.bedTaken b) h.addr 0 0
      if ordReservedSet d then rejectOrder s b 1 else s
/-- A refused read of the ownership word (R43, R63, R196): MEMORY and FAULTED from any state from WAITING on; a bed STOPPED or
FAULTED, or STOPPING in a hall reset, whose STOPPING R64 and R70 end, only takes the flag (log 63). -/
def ownerRefused (s : State) (b : BedId) : State :=
  match (runOf s b).state with
  | .absent => s
  | .stopped | .faulted => bedFlag s b fMEMORY
  | .stopping => if s.cmd.mode == .resetting then bedFlag s b fMEMORY else memoryFault s b
  | _ => memoryFault s b
/-- The ownership word at the ring position (R43); an answer for a position that the ring has left tells nothing. -/
def bedOwnerAnswer (s : State) (b : BedId) (q : Req) (a : ReadAnswer) : State :=
  let s := finishReq s
  match a with
  | .refused => ownerRefused s b
  | .done d =>
    if (runOf s b).state == .waiting && (runOf s b).ret.isNone && q.addr == ringAddr s b && fld d.toNat 0 4 == ISSUED then
      takeOrder s b
    else s
/-- The remnant descriptor (R34, R51); nothing for an order that has ended before it (log 56), nor for one in STOPPING in a hall reset,
a refusal setting no MEMORY (the model's choice, log 86). -/
def descriptorAnswer (s : State) (b : BedId) (a : ReadAnswer) : State :=
  let s := finishReq s
  let r := runOf s b
  match r.hand with
  | none => s
  | some h =>
    if !(r.state == .accepting && r.acc == .descriptor) then s else
    match a with
    | .refused => memoryFault s b
    | .done d =>
      if descOk d then setRun s b { r with hand := some { h with desc := some d }, acc := .reserve }
      else rejectOrder (setRun s b { r with hand := some { h with desc := some d } }) b 10
/-- The result of a BED_START is still to be written, and the bed's read of its ring position behind it (R66). -/
def startWaits (s : State) (b : BedId) : Bool := s.engine.deferred.any (·.act == .ownerRead b)
/-- A return write answered (R44, R196, R212). -/
def bedReturnAnswer (s : State) (b : BedId) (q : Req) (a : Ack) : State :=
  let s := finishReq s
  match a with
  | .refused => requeue (writeBackFlag s) q true
  | .done =>
    match (runOf s b).ret with
    | none => s
    | some t =>
      let g := (bedOf s b).ring
      let n := (bedCfg s b).count
      let s := setRing s b { g with pos := if g.pos + 1 < n then g.pos + 1 else 0, returned := g.returned + 1,
                                    raised := if t.attn then g.raised + 1 else g.raised }
      let s := setRun s b { runOf s b with ret := none }
      let s := if t.attn then addCause s (bedNum b) else s
      let s := fire s q.ticket
      if (runOf s b).state == .waiting && !startWaits s b then readOwner s b else s
def takenAnswer (s : State) (a : Ack) : State :=
  let s := finishReq s
  if a == .refused then writeBackFlag s else s

/-! ## Stream fetcher answers (R55, R78, R98) -/

/-- The bed whose fetch of this use the MSP has in progress. -/
def fetchAnswered (s : State) (u : FetchFor) : Option BedId :=
  match s.path.msp with
  | some (.fetch b) => match (runOf s b).fetch with
    | some f => if f.use == u then some b else none
    | none => none
  | _ => none
/-- The steps or entries of a line, cut to those the list still has. -/
def listPart (d : Line) (have_ want : Nat) : List Raw :=
  [(lineHalves d).1, (lineHalves d).2].take (want - have_)
/-- The fetch ends; it tells whether its data are wanted and its read was answered DONE. -/
def endFetch (s : State) (b : BedId) : State × Bool :=
  let r := runOf s b
  (setRun (freeMsp s) b { r with fetch := none }, (r.fetch.map (fun f => !f.discard)).getD false)
/-- Check 9 over the whole mark table (R100). -/
def markCheck (tbl : List Mark) (k : Look) : Option (Nat × Nat) :=
  (tbl.zipIdx.findSome? (fun p => (markForm p.1.raw k.length k.width).map (fun c => (p.2, c))))
def markListAnswer (s : State) (b : BedId) (a : ReadAnswer) : State :=
  let (s, wanted) := endFetch s b
  let r := runOf s b
  match r.hand with
  | none => s
  | some h =>
    if !wanted then s else
    match a with
    | .refused => memoryFault s b
    | .done d =>
      let tbl := r.marks.table ++ (listPart d r.marks.table.length (ordMarks h.order)).map (⟨·, .pending, 0, .none, false⟩)
      let s := setRun s b { r with marks := { r.marks with table := tbl } }
      if tbl.length < ordMarks h.order then s else
      match markCheck tbl (h.look.getD ⟨0, 0, 0, 0, false⟩) with
      | some f => rejectOrder (setRun s b { runOf s b with marks := { r.marks with table := tbl, formFail := some f } }) b 9
      | none => check10 s b h
def checkAnswer (s : State) (b : BedId) (a : ReadAnswer) : State :=
  let (s, wanted) := endFetch s b
  let r := runOf s b
  match r.hand, r.chk with
  | some h, some u =>
    if !wanted then s else
    match a with
    | .refused => memoryFault s b
    | .done d =>
      let q := r.stream.nextLine
      let (u', bad) := checkRun (formCfg s b h) 20000 u (listPart d (2 * q) (ordSteps h.order))
      match bad with
      | some f => enter (returnOrder s b .checkFailed f.code (some (f.idx, f.rep)) false) b .waiting
      | none =>
        let s := setRun s b { r with chk := some u', stream := { r.stream with nextLine := q + 1 } }
        if 2 * (q + 1) < ordSteps h.order then s
        else enter (setRun s b { runOf s b with chk := none }) b .staging
  | _, _ => s
/-- A stream fetch answered (R51, R78). One discarded at the entry to STOPPING, its order still in hand, gives nothing, and a refusal
of it sets no MEMORY and faults nothing (the model's reading, log 30). -/
def streamAnswer (s : State) (b : BedId) (a : ReadAnswer) : State :=
  let (s, wanted) := endFetch s b
  let r := runOf s b
  match r.hand with
  | none => s
  | some h =>
    if !wanted then s else
    match a with
    | .refused => memoryFault s b
    | .done d =>
      let t := r.stream
      setRun s b { r with stream := { t with
        fifo := t.fifo ++ listPart d (2 * t.nextLine) (ordSteps h.order), nextLine := t.nextLine + 1 } }

/-! ## Crane ring (R132, R136) -/

def craneOwnerAnswer (s : State) (i : Nat) (a : ReadAnswer) : State :=
  let s := finishReq s
  let s := setCrane s { s.crane with ownRead := false }
  match a with
  | .refused => writeBackFlag s
  | .done d =>
    if i != s.crane.ringPos then readCraneOwner s
    else if fld d.toNat 0 4 == ISSUED && mayTake s then takeCrane s else s
/-- The element read of a crane order (R132, R196). A refused one is made again while its order waits for it; the answer for an order
that has ended takes nothing, and a refused one is not queued again (the model's choice, log 60). -/
def craneElementAnswer (s : State) (i : Nat) (q : Req) (a : ReadAnswer) : State :=
  let s := finishReq s
  let s := if a == .refused then writeBackFlag s else s
  match s.crane.stock.find? (·.idx == i) with
  | none => s
  | some o =>
    if o.stage != .reading then s else
    match a with
    | .refused => requeue s q false
    | .done d =>
      let r : Raw := (lineHalves d).1
      let s := setCrane s { s.crane with stock := s.crane.stock.map (fun o =>
        if o.idx == i then { o with order := r, stage := .queued } else o) }
      acceptOrder (push s (.craneTaken i) o.addr 0 0) i r
/-- A crane return write answered (R136); an order without a copy of its element asked for no attention (log 60). -/
def craneReturnAnswer (s : State) (i : Nat) (q : Req) (a : Ack) : State :=
  let s := finishReq s
  match a with
  | .refused => requeue (writeBackFlag s) q true
  | .done =>
    let attn := ((s.crane.stock.find? (·.idx == i)).map (fun o => crAttn o.order)).getD false
    let c := s.crane
    let s := setCrane s { c with stock := c.stock.filter (·.idx != i), returned := c.returned + 1,
                                 raised := if attn then c.raised + 1 else c.raised }
    let s := if attn then addCause s aRETURN_CRANE else s
    readCraneOwner (fire s q.ticket)

/-! ## The commands -/

def execResultWriteAnswer (a : Ack) (s : State) : Host.Outcome State Fault Refusal :=
  match (engReq s).filter isResult with
  | some r => taking s fun s => resultAnswer s r a
  | none => idle s
def execWriteBackAnswer (a : Ack) (s : State) : Host.Outcome State Fault Refusal :=
  match (engReq s).filter isWb, s.engine.cur with
  | some q, some c =>
    match q.what with
    | .writeBack r => taking s fun s => writeBackAnswer s c r a
    | _ => idle s
  | _, _ => idle s
def execTakenWriteAnswer (a : Ack) (s : State) : Host.Outcome State Fault Refusal :=
  match (engReq s).filter isTaken with
  | some _ => taking s fun s => takenAnswer s a
  | none => idle s
def execBedElementReadAnswer (a : ReadAnswer) (s : State) : Host.Outcome State Fault Refusal :=
  match (engReq s).bind bedElementOf with
  | some b => taking s fun s => bedElementAnswer s b a
  | none => idle s
def execBedOwnershipReadAnswer (a : ReadAnswer) (s : State) : Host.Outcome State Fault Refusal :=
  match (engReq s).bind (fun q => (bedOwnerOf q).map (fun b => (q, b))) with
  | some (q, b) => taking s fun s => bedOwnerAnswer s b q a
  | none => idle s
def execDescriptorReadAnswer (a : ReadAnswer) (s : State) : Host.Outcome State Fault Refusal :=
  match (engReq s).bind descriptorOf with
  | some b => taking s fun s => descriptorAnswer s b a
  | none => idle s
def execBedReturnAnswer (a : Ack) (s : State) : Host.Outcome State Fault Refusal :=
  match (engReq s).bind (fun q => (bedReturnOf q).map (fun b => (q, b))) with
  | some (q, b) => taking s fun s => bedReturnAnswer s b q a
  | none => idle s
def execMarkListReadAnswer (a : ReadAnswer) (s : State) : Host.Outcome State Fault Refusal :=
  match fetchAnswered s .marks with
  | some b => taking s fun s => markListAnswer s b a
  | none => idle s
def execCheckReadAnswer (a : ReadAnswer) (s : State) : Host.Outcome State Fault Refusal :=
  match fetchAnswered s .check with
  | some b => taking s fun s => checkAnswer s b a
  | none => idle s
def execStreamFetchAnswer (a : ReadAnswer) (s : State) : Host.Outcome State Fault Refusal :=
  match fetchAnswered s .stream with
  | some b => taking s fun s => streamAnswer s b a
  | none => idle s
def execCraneOwnershipReadAnswer (a : ReadAnswer) (s : State) : Host.Outcome State Fault Refusal :=
  match (engReq s).bind craneOwnerOf with
  | some i => taking s fun s => craneOwnerAnswer s i a
  | none => idle s
def execCraneElementReadAnswer (a : ReadAnswer) (s : State) : Host.Outcome State Fault Refusal :=
  match (engReq s).bind (fun q => (craneElementOf q).map (fun i => (q, i))) with
  | some (q, i) => taking s fun s => craneElementAnswer s i q a
  | none => idle s
def execCraneReturnAnswer (a : Ack) (s : State) : Host.Outcome State Fault Refusal :=
  match (engReq s).bind (fun q => (craneReturnOf q).map (fun i => (q, i))) with
  | some (q, i) => taking s fun s => craneReturnAnswer s i q a
  | none => idle s

end Sys2Proof.Machine
end

