-- ==== Sys2Proof/Machine/Stock.lean ====
section
/-!
DEFINITION. Sys2Proof/Machine/Stock.lean: the requests that the stock unit and the lock table take, and the stock unit's
five commands (R6 to R22, R34 to R37, R48 to R53, R101).
-/
namespace Sys2Proof.Machine

/-! ## Commands in general (R209, R210) -/

/-- The command slot read of a command of this code is in progress. -/
def slotReadFor (s : State) (p : Nat → Bool) : Bool :=
  (engReq s).any (·.what == .slotRead) && s.cmd.current.any (fun c => c.stage == .reading && p c.code.toNat)
/-- The slot read is answered: BUSY in HALTING and RESETTING (R210), else the command's own meaning. -/
def command (s : State) (f : State → State) : State :=
  let s := finishReq s
  if s.cmd.mode == .halting || s.cmd.mode == .resetting then deny s oBUSY 0 0 else f s
def cmdTarget (s : State) : Nat := ((s.cmd.current.map Cmd.target).getD 0xFF).toNat
def commandRow (code : Nat) (s : State) (f : State → State) : Host.Outcome State Fault Refusal :=
  takingIf (slotReadFor s (· == code)) s fun s => command s f
/-- A command whose target must say none (R17, R160, R178). The target is judged before the parameters, with detail 1 equal to 0 (the
model's choice, log 17). -/
def untargeted (s : State) (f : State → State) : State := if cmdTarget s == 0xFF then f s else deny s oPARAM 0 0
/-- The first parameter found invalid, by its number (R17). -/
def firstBad (l : List (Nat × Bool)) : Option Nat := (l.find? (fun p => !p.2)).map (·.1)

/-! ## Bed requests -/

def accWaits (s : State) (b : BedId) (p : AccStage → Bool) : Bool := (runOf s b).state == .accepting && p (runOf s b).acc

/-- Check 5 of R48. -/
def bedOccupied (s : State) (b : BedId) (id : Nat) : Bool :=
  otherHere s b id || (zoneOf s b == .crane && s.crane.move.any (fun m => m.dst == .bed b && m.plate != id))
/-- Checks 6 to 9 of R48, after the lookup. -/
def listChecks (s : State) (b : BedId) (h : Hand) : State :=
  let o := h.order
  if !listAddressOk s (ordSegAddr o) (32 * ordSteps o) ||
      (0 < ordMarks o && !listAddressOk s (ordMarkAddr o) (32 * ordMarks o)) then rejectOrder s b 6
  else if ordSteps o == 0 then rejectOrder s b 7
  else if 64 < ordMarks o then rejectOrder s b 8
  else if ordMarks o == 0 then check10 s b h
  else
    let r := runOf s b
    setRun s b { r with acc := .marks, marks := { r.marks with table := [] } }
/-- The plate lookup and checks 2 to 5 (R48, R49). -/
def plateLookup (s : State) (b : BedId) (fresh : Bool) (h : Hand) : State :=
  let id := ordPlate h.order
  match findPlate s id with
  | none => rejectOrder s b 2
  | some i =>
    let p := plateAt s i
    if p.st == .skeleton || p.st == .lost then rejectOrder s b 3
    else if (bedCfg s b).thick < p.thickness then rejectOrder s b 4
    else if bedOccupied s b id then rejectOrder s b 5
    else
      let h := { h with look := some ⟨i, p.thickness, p.length, p.width, p.suspect && p.loc != .bed b⟩ }
      let s := setRun s b { runOf s b with hand := some h }
      if fresh then check11 s b else listChecks s b h
def execPlateLookup (b : BedId) (s : State) : Host.Outcome State Fault Refusal :=
  match (runOf s b).hand, (runOf s b).acc with
  | some h, .lookup fresh => takingIf (accWaits s b (fun _ => true)) s fun s => plateLookup s b fresh h
  | _, _ => idle s

/-- The ID is held by a record or reserved (R6, R7). -/
def idTaken (s : State) (id : Nat) : Bool := (findPlate s id).isSome || s.stock.reservedIds.any (·.1 == id)
def idReserve (s : State) (b : BedId) (id : Nat) : State :=
  if idTaken s id then rejectOrder s b 10
  else check11 (setStock s { s.stock with reservedIds := s.stock.reservedIds ++ [(id, b)] }) b
def execRemnantIdReserve (b : BedId) (s : State) : Host.Outcome State Fault Refusal :=
  match ((runOf s b).hand.bind (·.desc)) with
  | some d => takingIf (accWaits s b (· == .reserve)) s fun s => idReserve s b (descId d)
  | none => idle s

/-- Granted: the bed goes on to its locks (R50). -/
def burnGranted (s : State) (b : BedId) (h : Hand) : State :=
  setRun s b { runOf s b with hand := some { h with claimed := true }, acc := .lockReq }
/-- A BURN request (R9, R36, R50), judged by the claim as it stands, also with a release of the bed's earlier order on its way (log
36). -/
def burnRequest (s : State) (b : BedId) (h : Hand) : State :=
  let i := (h.look.map (·.ix)).getD 0
  let p := plateAt s i
  let claim (s : State) : State := burnGranted (setPlate s i { p with claim := .burn b }) b h
  if !holds s i (ordPlate h.order) then rejectOrder s b 2
  else if p.st == .lost then rejectOrder s b 3
  else if (underRemnantOut s i).isSome then rejectOrder s b 13
  else match p.claim with
    | .none => claim s
    | .hold t _ => if t == ordToken h.order && t != 0 then claim s else rejectOrder s b 12
    | .burn b' => if b' == b then burnGranted s b h else rejectOrder s b 13
    | .lift _ => setRun (setStock s { s.stock with waiters := s.stock.waiters ++ [(i, b)] }) b { runOf s b with acc := .claimWait }
def execBurnRequest (b : BedId) (s : State) : Host.Outcome State Fault Refusal :=
  match (runOf s b).hand with
  | some h => takingIf (accWaits s b (· == .burn)) s fun s => burnRequest s b h
  | none => idle s

/-- A claim release (R11). -/
def claimRelease (s : State) (r : Release) : State :=
  let s := setStock s { s.stock with releases := s.stock.releases.tail }
  if holds s r.ix r.plate && (plateAt s r.ix).claim == r.claim then
    let s := setPlate s r.ix { plateAt s r.ix with claim := .none }
    match r.claim with | .lift _ => tellWaiters s r.ix | _ => s
  else s
def execClaimRelease (s : State) : Host.Outcome State Fault Refusal :=
  match s.stock.releases.head? with
  | some r => taking s fun s => claimRelease s r
  | none => idle s

/-- A lock request (R53). -/
def lockRequest (s : State) (b : BedId) (h : Hand) : State :=
  let s := setLocks s (s.locks.request b (orderRanges h.order))
  setRun s b { runOf s b with acc := .lockWait }
def execLockRequest (b : BedId) (s : State) : Host.Outcome State Fault Refusal :=
  match (runOf s b).hand with
  | some h => takingIf (accWaits s b (· == .lockReq)) s fun s => lockRequest s b h
  | none => idle s

/-! ## Remnant creation (R35 to R37, R61) -/

/-- The place of a created remnant (R36). -/
def placeRemnant (s : State) (b : BedId) (p : Plate) : State × RemnantResult × Loc :=
  let q : ReqId := .bed b .remnantOut p.id
  match autoSlot s p.length p.width with
  | some n => (setStock (reserve s q p.id (.rack n)) { (reserve s q p.id (.rack n)).stock with toRack := s.stock.toRack + 1 }, .rack n, .rack n)
  | none =>
    if overflowUsed s < Config.overflow then
      let s := reserve s q p.id .overflow
      (setStock s { s.stock with toOverflow := s.stock.toOverflow + 1 }, .overflow, .overflow)
    else (setStock s { s.stock with scrapped := s.stock.scrapped + 1 }, .scrapped, .scrap)
/-- Steps 2 to 6 of R35: the state, the remnant result, the new record and its destination. A record that no longer holds the plate has no
remnant, as one still STOCK (the model's choice, log 100). -/
def createRemnant (s : State) (b : BedId) (h : Hand) (d : Line) : State × RemnantResult × Nat × Loc :=
  let s := setStock s { s.stock with reservedIds := s.stock.reservedIds.filter (fun e => e.1 != descId d) }
  let i := (h.look.map (·.ix)).getD 0
  let p := plateAt s i
  if !holds s i (ordPlate h.order) || p.st == .stock then (s, .none, 0, .none) else
  match lowestEmpty s with
  | none => (setStock s { s.stock with unregistered := s.stock.unregistered + 1 }, .notRegistered, 0, .none)
  | some j =>
    let q : Plate := { st := .stock, remnant := true, loc := .bed b, claim := .none, suspect := false, id := descId d,
                       parent := p.id, thickness := p.thickness, length := descLength d, width := descWidth d,
                       heatLen := p.heatLen, heat := p.heat, outline := descVertices d, mass := descMass d,
                       regTime := s.clock, grade := p.grade }
    let s := setPlate (setStock s { s.stock with created := s.stock.created + 1 }) j q
    let (s, res, dest) := placeRemnant s b q
    (s, res, j, dest)
/-- The unloading requests are posted (R61). -/
def postUnload (s : State) (b : BedId) (h : Hand) : State :=
  let s := setRun s b { runOf s b with unl := .posted }
  let s := match h.remnant with
    | .rack _ | .overflow | .scrapped => postRequest s b .remnantOut h.remRec (remnantId h) h.remDest
    | _ => s
  let i := (h.look.map (·.ix)).getD 0
  if holds s i (ordPlate h.order) && (plateAt s i).st == .skeleton then postRequest s b .skeletonOut i (ordPlate h.order) .scrap
  else s
def remnantCreation (s : State) (b : BedId) (h : Hand) : State :=
  let (s, res, j, dest) := match h.desc with
    | some d => createRemnant s b h d
    | none => (s, .none, 0, .none)
  let h := { h with remnant := res, remRec := j, remDest := dest }
  let s := setRun s b { runOf s b with hand := some h }
  if ordPartsHold h.order then setRun s b { runOf s b with unl := .release } else postUnload s b h
/-- REMNANT_CREATION (R35, R61). One sent at END and not yet taken when BED_STOP, HALL_HALT, a hall reset or a fault ends the order
is no more: no remnant, result NONE (the model's choice, log 57). -/
def execRemnantCreation (b : BedId) (s : State) : Host.Outcome State Fault Refusal :=
  match (runOf s b).hand with
  | some h => takingIf ((runOf s b).state == .unloading && (runOf s b).unl == .creation) s fun s => remnantCreation s b h
  | none => idle s

/-! ## Heat number (R101, R102) -/

/-- A mark becomes FAILED (R102, R104). -/
def failMark (s : State) (b : BedId) (i : Nat) (c : MarkCause) : State :=
  let r := runOf s b
  bedFlag (setRun s b { r with
    marks := { setMark r.marks i { markAt r.marks i with st := .failed, cause := c } with limit := none } }) b fMARK_FAIL
def heatNumber (s : State) (b : BedId) (i : Nat) : State :=
  let r := runOf s b
  let s := setRun s b { r with marks := { r.marks with heatAsk := none } }
  let p := match r.hand.bind (·.look) with
    | some k => plateAt s k.ix
    | none => .blank
  if p.heatLen == 0 then failMark s b i .noHeat else sendMark s b i (some (chars p.heat.toNat p.heatLen))
def execHeatNumberRequest (b : BedId) (s : State) : Host.Outcome State Fault Refusal :=
  match (runOf s b).marks.heatAsk with
  | some i => takingIf (markDue (runOf s b) == some i) s fun s => heatNumber s b i
  | none => idle s

/-! ## Holds (R12) -/

def holdMs (s : State) : Word := word (60000 * param s (·.holdMin) 0)
/-- The hall clock has reached the expiry (R12, R216). -/
def holdDue (s : State) (e : Word) : Bool := (holdMs s).toNat ≤ (s.clock - (e - holdMs s)).toNat
/-- Expiry is watched with an anchor in force and no verification running (R12). -/
def expires (s : State) (i : Nat) : Bool :=
  s.loader.inForce.isSome && s.loader.ver.isNone &&
    match (plateAt s i).claim with
    | .hold _ e => holdDue s e
    | _ => false
def holdExpiry (s : State) (i : Nat) : State :=
  let s := setPlate s i { plateAt s i with claim := .none }
  defer s (ticketOf s (.writeBack (.plate i))).toList (.cause aHOLD_EXPIRED)
def execHoldExpiry (i : Nat) (s : State) : Host.Outcome State Fault Refusal :=
  takingIf (expires s i) s fun s => holdExpiry s i

/-! ## Commands (R17 to R22) -/

/-- A crane move is lifting from the infeed (R5; log 7). -/
def liftingInfeed (s : State) : Bool :=
  s.crane.move.any (fun m => !m.lifted && match m.src with | .infeed _ => true | _ => false)
/-- What a stock command that changed record `i` waits for (R16): that record's write-back, and that of every status record its
taking changed, of beds and crane too (log 22). -/
def stockWaits (i : Nat) : List ReqOf := .writeBack (.plate i) :: statusRecords.map .writeBack
def inRange (lo hi x : Nat) : Bool := lo ≤ x && x ≤ hi
/-- A heat number field of twelve bytes with its count: characters, then bytes of 0 (R217; log 29). -/
def heatField (x n : Nat) : Bool := heatOk x n && fld x n (12 - n) == 0

def plateRegister (s : State) (q : Line) : State :=
  let id := par q 0 2
  let n := par q 0xE 1
  match firstBad [(1, 1 ≤ id), (2, inRange 30 1500 (par q 2 2)), (3, inRange 1 24000 (par q 4 2)), (4, inRange 1 4000 (par q 6 2)),
      (5, inRange 1 1000000 (par q 8 4)), (7, n ≤ 12), (8, gradeOk (par q 0x10 8)), (9, heatField (par q 0x18 12) n),
      (0, parZeroBut q [(0, 0xF), (0x10, 0x14)])] with
  | some k => deny s oPARAM k 0
  | none =>
    match findPlate s id, s.stock.reservedIds.find? (·.1 == id), lowestEmpty s with
    | some i, _, _ => deny s oDUPLICATE 1 i
    | none, some e, _ => deny s oDUPLICATE 2 (bedNum e.2)
    | none, none, none => deny s oFULL 1 0
    | none, none, some i =>
      if Config.infeed ≤ infeedCount s then deny s oFULL 2 0
      else if liftingInfeed s then deny s oSTATE 3 0
      else
        let level := locatedInfeed s + 1
        let p : Plate := { st := .stock, remnant := false, loc := .infeed level, claim := .none, suspect := false, id := id,
                           parent := par q 0xC 2, thickness := par q 2 2, length := par q 4 2, width := par q 6 2, heatLen := n,
                           heat := BitVec.ofNat 96 (par q 0x18 12), outline := [], mass := par q 8 4, regTime := s.clock,
                           grade := BitVec.ofNat 64 (par q 0x10 8) }
        give (setPlate s i p) oDONE i level 0 (stockWaits i)

/-- The place that PLATE_AMEND names (R19). -/
def amendPlace (kind slot : Nat) : Loc :=
  match kind with | 1 => .infeed 0 | 4 => .rack slot | 5 => .overflow | _ => .none
/-- The checks of R19 on the record, after its parameters. -/
def amendRefused (s : State) (p : Plate) (set kind slot : Nat) : Option (Byte × Nat) :=
  let place := bit set 3
  let toInfeed := place && kind == 1
  let toRack := place && kind == 4
  match p.claim with
  | .hold _ _ | .lift _ => some (oSTATE, 1)
  | c =>
    if c != .none && set != 1 then some (oSTATE, 1)
    else if place && p.st != .lost then some (oSTATE, 2)
    else if toInfeed && liftingInfeed s then some (oSTATE, 3)
    else if toRack && !fitsSlot s slot p.length p.width then some (oSTATE, 4)
    else if toInfeed && Config.infeed ≤ infeedCount s then some (oFULL, 2)
    else if place && kind == 5 && Config.overflow ≤ overflowUsed s then some (oFULL, 3)
    else if toRack && !slotFree s slot then some (oFULL, 4)
    else none
def amended (s : State) (p : Plate) (q : Line) : Plate :=
  let set := par q 2 1
  let p := if bit set 0 then { p with heatLen := par q 5 1, heat := BitVec.ofNat 96 (par q 0x14 12) } else p
  let p := if bit set 1 then { p with grade := BitVec.ofNat 64 (par q 0xC 8) } else p
  let p := if bit set 2 then { p with mass := par q 8 4, suspect := false } else p
  if bit set 3 then
    { p with st := .stock, loc := match amendPlace (par q 3 1) (par q 4 1) with
        | .infeed _ => .infeed (locatedInfeed s + 1)
        | l => l }
  else p
/-- PLATE_AMEND (R19). A place kind that Table 12-12 does not define gives PARAM with PLACE not selected too (R217; the model's
reading, log 53). -/
def plateAmend (s : State) (q : Line) : State :=
  let set := par q 2 1
  let kind := par q 3 1
  let place := bit set 3
  match firstBad [(2, inRange 1 15 set), (3, kind ≤ 5 && (!place || kind == 1 || kind == 4 || kind == 5)),
      (4, !(place && kind == 4) || par q 4 1 < 64), (5, !bit set 0 || inRange 1 12 (par q 5 1)),
      (6, !bit set 2 || inRange 1 1000000 (par q 8 4)), (7, !bit set 1 || gradeOk (par q 0xC 8)),
      (8, !bit set 0 || heatField (par q 0x14 12) (par q 5 1)), (4, !(place && kind == 4) || par q 4 1 < rackSlots s), (0, parZeroBut q [(0, 6), (8, 0x18)])] with
  | some k => deny s oPARAM k 0
  | none =>
    match findPlate s (par q 0 2) with
    | none => deny s oNOT_FOUND 0 0
    | some i =>
      match amendRefused s (plateAt s i) set kind (par q 4 1) with
      | some (o, d) => deny s o d 0
      | none => give (setPlate s i (amended s (plateAt s i) q)) oDONE i 0 0 (stockWaits i)

/-- The record is named, by index and plate ID together (R1, R129), by a bed crane request queued in the BED bank, by a
REMNANT_OUT posted and not ended, or by the move in flight (R20, R36). -/
def namedByCrane (s : State) (i : Nat) : Bool :=
  let id := (plateAt s i).id
  bedIds.any (fun b => (s.crane.bank.get b).any (fun q => q.ix == i && q.plate == id && !q.inFlight)) ||
    (underRemnantOut s i).isSome || (s.crane.state != .faulted && s.crane.move.any (fun m => m.ix == i && m.plate == id))
def plateRetire (s : State) (q : Line) : State :=
  if !parZeroBut q [(0, 2)] then deny s oPARAM 0 0 else
  match findPlate s (par q 0 2) with
  | none => deny s oNOT_FOUND 0 0
  | some i =>
    let p := plateAt s i
    let buried : Bool := match p.loc with | .infeed n => p.st != .lost && n < locatedInfeed s | _ => false
    if p.claim != .none then deny s oSTATE 1 0
    else if p.st != .lost && p.loc == .crane then deny s oSTATE 2 0
    else if buried then deny s oSTATE 3 0
    else if namedByCrane s i then deny s oSTATE 4 0
    else give (tellWaiters (setPlate s i .blank) i) oDONE i 0 0 (stockWaits i)

/-- A candidate of REMNANT_FIND (R21). -/
def findCandidate (p : Plate) (thick len wid : Nat) (grade : BitVec 64) : Bool :=
  p.st == .stock && p.claim == .none && !p.suspect && p.grade == grade && p.thickness == thick &&
    ((len ≤ p.length && wid ≤ p.width) || (wid ≤ p.length && len ≤ p.width)) &&
    match p.loc with | .rack _ | .overflow => true | _ => false
/-- The better of two candidates: the smaller product of length and width, of equal ones the lower plate ID (R21). -/
def better (a b : Nat × Plate) : Nat × Plate :=
  let x := a.2.length * a.2.width
  let y := b.2.length * b.2.width
  if y < x || (y == x && b.2.id < a.2.id) then b else a
def bestCandidate (s : State) (thick len wid : Nat) (grade : BitVec 64) : Option (Nat × Plate) :=
  match (s.stock.table.zipIdx.filter (fun p => findCandidate p.1 thick len wid grade)).map (fun p => (p.2, p.1)) with
  | [] => none
  | c :: cs => some (cs.foldl better c)
/-- The token after `t`: from 65535 to 1 (R12). -/
def nextToken (t : BitVec 16) : BitVec 16 := if t == 0xFFFF then 1 else t + 1
def remnantFind (s : State) (q : Line) : State :=
  match firstBad [(1, inRange 30 1500 (par q 0 2)), (2, inRange 1 24000 (par q 2 2)), (3, inRange 1 4000 (par q 4 2)),
      (4, gradeOk (par q 8 8)), (0, parZeroBut q [(0, 6), (8, 8)])] with
  | some k => deny s oPARAM k 0
  | none =>
    match bestCandidate s (par q 0 2) (par q 2 2) (par q 4 2) (BitVec.ofNat 64 (par q 8 8)) with
    | none => deny s oNOT_FOUND 0 0
    | some (i, p) =>
      let t := s.stock.tokenCtr
      let e := s.clock + holdMs s
      let s := setPlate s i { p with claim := .hold t e }
      give (setStock s { s.stock with tokenCtr := nextToken t }) oDONE p.id t.toNat e.toNat (stockWaits i)

def holdDrop (s : State) (q : Line) : State :=
  match firstBad [(1, 1 ≤ par q 0 2), (2, 1 ≤ par q 2 2), (0, parZeroBut q [(0, 4)])] with
  | some k => deny s oPARAM k 0
  | none =>
    match findPlate s (par q 0 2) with
    | none => deny s oNOT_FOUND 0 0
    | some i =>
      match (plateAt s i).claim with
      | .hold t _ =>
        if t.toNat == par q 2 2 then give (setPlate s i { plateAt s i with claim := .none }) oDONE 0 0 0 (stockWaits i)
        else deny s oNOT_FOUND 0 0
      | _ => deny s oNOT_FOUND 0 0

def execPlateRegister (slot : Line) (s : State) : Host.Outcome State Fault Refusal :=
  commandRow 0x40 s fun s => untargeted s fun s => plateRegister s slot
def execPlateAmend (slot : Line) (s : State) : Host.Outcome State Fault Refusal :=
  commandRow 0x41 s fun s => untargeted s fun s => plateAmend s slot
def execPlateRetire (slot : Line) (s : State) : Host.Outcome State Fault Refusal :=
  commandRow 0x42 s fun s => untargeted s fun s => plateRetire s slot
def execRemnantFind (slot : Line) (s : State) : Host.Outcome State Fault Refusal :=
  commandRow 0x43 s fun s => untargeted s fun s => remnantFind s slot
def execHoldDrop (slot : Line) (s : State) : Host.Outcome State Fault Refusal :=
  commandRow 0x44 s fun s => untargeted s fun s => holdDrop s slot

end Sys2Proof.Machine
end

