-- ==== Sys2Proof/Machine/Hall.lean ====
section
/-!
DEFINITION. Sys2Proof/Machine/Hall.lean: hall commands and the host watch, fault commands, attention, statistics (chapters 8, 11).
-/
namespace Sys2Proof.Machine

/-! ## Hall modes (R158 to R167) -/

def setMode (s : State) (m : Mode) (o : Origin) : State := setCmd s { s.cmd with mode := m, origin := o }
/-- A hall command: target none and no parameters, then the modes given (R160; that order is the model's choice, log 17). -/
def hallCommandIn (modes : List Mode) (s : State) (q : Line) (f : State → State) : State :=
  if cmdTarget s != 0xFF || !parZeroBut q [] then deny s oPARAM 0 0
  else if !modes.contains s.cmd.mode then deny s oMODE 0 0
  else f s

def dropPause (s : State) (b : BedId) (m : Byte) : State := setRun s b { runOf s b with pause := clearBits (runOf s b).pause m }
/-- Cause HOLD leaves every bed (R89). -/
def dropHolds (s : State) : State := bedIds.foldl (fun s b => dropPause s b (byte (2 ^ pHOLD))) s
/-- HALL_RUN (R161): from HALT the crane ring starts, from HOLD cause HOLD ends. -/
def hallRun (s : State) : State :=
  let start := s.cmd.mode == .halt
  let n := if start then 0 else (bedIds.filter (fun b => hasBit (runOf s b).pause pHOLD)).length
  let s := setMode s .run .none
  let s := if start then readCraneOwner s else dropHolds s
  give (arbOffer (arbGrant s)) oDONE n 0 0 [.writeBack .hall]

/-- The hall enters HOLD (R162, R170). -/
def enterHold (s : State) (o : Origin) : State :=
  let s := setMode s .hold o
  let s := setCmd s { s.cmd with torch := bedIds.filter (fun b => !torchOff s b) }
  bedIds.foldl (fun s b => addPause s b pHOLD) s
def hallHold (s : State) : State :=
  let n := (bedIds.filter (fun b => activeState (runOf s b).state)).length
  setStage (enterHold s .command) (.hold n)

/-- A bed's part of HALTING (R69). -/
def haltBed (s : State) (b : BedId) : State :=
  match (runOf s b).state with
  | .waiting => enter s b .stopped
  | .accepting | .checking | .staging => enter (returnOrder s b .abortedHalt 0 none false) b .stopped
  | .marking | .burning | .paused => enterStopping s b .abortedHalt
  | .unloading => enter (returnOrder s b .abortedHalt 0 none true) b .stopped
  | _ => s
/-- Queued host orders are returned ABORTED_HALT (R154). -/
def haltCrane (s : State) : State :=
  s.crane.stock.foldl (fun s o =>
    if o.stage == .queued then returnHost s o.idx cABORTED_HALT (orderLoc s o) 0 true
    else if o.stage == .reading then returnHost s o.idx cABORTED_HALT .none 0 false else s) s
/-- HALL_HALT (R164). -/
def hallHalt (s : State) : State :=
  let s := setMode s .halting .none
  let s := setStage (setCmd s { s.cmd with haltBurn := 0, haltCrane := 0 }) .halting
  bedIds.foldl haltBed (haltCrane s)

/-- A bed's part of a hall reset (R70). Its ring counters become 0 here, at the taking of HALL_RESET: a return answered DONE later
in the reset counts (the model's choice, log 61). -/
def resetBed (s : State) (b : BedId) : State :=
  let s := setRun s b { runOf s b with resetEnd := none }
  let s := clearRing s b
  if !present s b then s
  else if isLive s b then enterStopping s b .abortedReset
  else endStopping s b .abortedReset .other
def clearClaims (s : State) : State :=
  (List.range s.stock.table.length).foldl (fun s i =>
    if (plateAt s i).claim == .none then s else setPlate s i { plateAt s i with claim := .none }) s
/-- The move keeps no reservation: a hall reset or a commit has ended them all (R24, R40, R205). -/
def dropMoveRes (s : State) : State :=
  setCrane s { s.crane with move := s.crane.move.map (fun (m : Move) => { m with reserves := false }) }
/-- The stock unit's part of a hall reset (R24, R37, R40; log 36). -/
def resetStock (s : State) : State :=
  let s := clearClaims (dropMoveRes s)
  setStock s { s.stock with reservedIds := [], waiters := [], slotRes := [], overRes := [], infeedRes := none, releases := [],
                            created := 0, toRack := 0, toOverflow := 0, scrapped := 0, unregistered := 0 }
/-- The memory path's part of a hall reset (R188, R193, R197). -/
def resetPath (p : Path) : Path :=
  { p with brackets := [], log := [], logTotal := 0, violElement := 0, violRange := 0, violTable := 0, violArea := 0,
           violAnchor := 0, retries := 0, expired := 0 }
/-- HALL_RESET (R166). -/
def hallReset (s : State) : State :=
  let s := setMode s .resetting .none
  let s := setStage (setCmd s { s.cmd with resetStopped := 0, resetOther := 0 }) .resetting
  let s := setPath (setFaults s s.faults.hallReset) (resetPath s.path)
  let s := resetStock (craneResetStart s)
  bedIds.foldl resetBed s

/-! ## Host watch (R170) -/

def watchDue (s : State) : Bool :=
  match s.faults.watch with
  | some t => due s t (watchMs (hallWindow s))
  | none => false
def watchExpiry (s : State) : State :=
  let s := setFaults s { s.faults with watch := some s.clock }
  if hasBit s.faults.hall.flags fhHOST_SILENT then s else
  let s := setFlag s .hall fhHOST_SILENT
  if s.cmd.mode == .run then enterHold s .hostWatch else s

/-! ## Fault commands (R178, R179) -/

def setGroup (s : State) (g : Group) (v : FaultGroup) : State := setFaults s (s.faults.set g v)
def combNum (s : State) (g : Group) : Nat := (s.faults.get g).comb.toNat
def faultMask (s : State) (q : Line) : State :=
  let m := byte (par q 1 1)
  match groupOf? (par q 0 1) with
  | none => deny s oPARAM 0 0
  | some g =>
    if clearBits m (groupFlags g) != 0 then deny s oPARAM 0 0
    else if !parZeroBut q [(0, 2)] then deny s oPARAM 0 0
    else
      let v := s.faults.get g
      let seen := clearBits v.flags m &&& v.masks != 0
      let s := setGroup s g { v with masks := m, comb := v.comb || seen }
      let s := if seen && !v.comb then setFaults s { s.faults with owed := true } else s
      give s oDONE (combNum s g) 0 0 [.writeBack .fault]
def faultClear (s : State) (q : Line) : State :=
  let m := byte (par q 1 1)
  let opt := par q 2 1
  match groupOf? (par q 0 1) with
  | none => deny s oPARAM 0 0
  | some g =>
    if clearBits m (groupFlags g) != 0 || (m == 0 && opt == 0) then deny s oPARAM 0 0
    else if 1 < opt then deny s oPARAM 0 0
    else if !parZeroBut q [(0, 3)] then deny s oPARAM 0 0
    else
      let v := s.faults.get g
      let kept := m &&& persisting s g &&& v.flags
      let flags := clearBits v.flags (clearBits m kept)
      let refused := opt == 1 && clearBits flags v.masks != 0
      let s := setGroup s g { v with flags := flags, comb := if opt == 1 && !refused then false else v.comb }
      give s oDONE kept.toNat refused.toNat (combNum s g) [.writeBack .fault]

/-! ## Attention and statistics (R214, R215) -/

def attentionMask (s : State) (q : Line) : State :=
  if !parZeroBut q [(0, 1)] then deny s oPARAM 0 0 else
  let m := byte (par q 0 1)
  let s := setFaults s { s.faults with mask := m }
  give s oDONE m.toNat s.faults.pending.toNat 0 [.writeBack .hall]
def statsSnapshot (s : State) (q : Line) : State :=
  if 1 < par q 0 1 then deny s oPARAM 0 0
  else if !parZeroBut q [(0, 1)] then deny s oPARAM 0 0
  else
    let n := s.cmd.snapNo + 1
    let s := setCmd s { s.cmd with snapNo := n, snapshot := counters s ++ [s.clock, n] }
    let s := if par q 0 1 == 1 then clearCounters s else s
    give (pushControl s .stats) oDONE n.toNat s.clock.toNat 0 [.writeBack .stats]

/-! ## The commands -/

/-- Command codes of Table 12-12. -/
def commandCodes : List Nat :=
  [0x10, 0x11, 0x12, 0x13, 0x14, 0x15, 0x16, 0x20, 0x21, 0x22, 0x23, 0x24, 0x25, 0x30, 0x31, 0x40, 0x41, 0x42, 0x43, 0x44, 0x50,
   0x51]
/-- COMMAND_SLOT_READ_REFUSED (R209). -/
def execCommandSlotReadRefused (s : State) : Host.Outcome State Fault Refusal :=
  takingIf (slotReadFor s (fun _ => true)) s fun s => deny (writeBackFlag (finishReq s)) oPARAM 0 1
/-- UNKNOWN_COMMAND (R210). -/
def execUnknownCommand (_slot : Line) (s : State) : Host.Outcome State Fault Refusal :=
  takingIf (slotReadFor s (fun c => !commandCodes.contains c)) s fun s => deny (finishReq s) oUNKNOWN 0 0
def execHallRun (slot : Line) (s : State) : Host.Outcome State Fault Refusal :=
  commandRow 0x10 s fun s => hallCommandIn [.halt, .hold] s slot hallRun
def execHallHold (slot : Line) (s : State) : Host.Outcome State Fault Refusal :=
  commandRow 0x11 s fun s => hallCommandIn [.run] s slot hallHold
def execHallHalt (slot : Line) (s : State) : Host.Outcome State Fault Refusal :=
  commandRow 0x12 s fun s => hallCommandIn [.run, .hold] s slot hallHalt
def execHallReset (slot : Line) (s : State) : Host.Outcome State Fault Refusal :=
  commandRow 0x13 s fun s => hallCommandIn [.halt, .run, .hold] s slot hallReset
def execFaultClear (slot : Line) (s : State) : Host.Outcome State Fault Refusal :=
  commandRow 0x14 s fun s => untargeted s fun s => faultClear s slot
def execFaultMask (slot : Line) (s : State) : Host.Outcome State Fault Refusal :=
  commandRow 0x15 s fun s => untargeted s fun s => faultMask s slot
def execStatsSnapshot (slot : Line) (s : State) : Host.Outcome State Fault Refusal :=
  commandRow 0x50 s fun s => untargeted s fun s => statsSnapshot s slot
def execAttentionMask (slot : Line) (s : State) : Host.Outcome State Fault Refusal :=
  commandRow 0x51 s fun s => untargeted s fun s => attentionMask s slot
def execHostWatchExpiry (s : State) : Host.Outcome State Fault Refusal := takingIf (watchDue s) s watchExpiry

end Sys2Proof.Machine
end

