-- ==== Sys2Proof/Machine/BedCommands.lean ====
section
/-!
DEFINITION. Sys2Proof/Machine/BedCommands.lean: the commands of the bed controllers (R62, R65 to R68, R95, R96, R107, R108,
R127).
-/
namespace Sys2Proof.Machine

/-- Target checks of R65 (log 17), then the parameters outside those listed must be 0. -/
def bedCommand (used : List (Nat × Nat)) (s : State) (q : Line) (f : State → BedId → State) : State :=
  match bedOf? (cmdTarget s) with
  | none => deny s oPARAM 0 0
  | some b =>
    if !present s b then deny s oSTATE 1 0
    else if !parZeroBut q used then deny s oPARAM 0 0
    else f s b
def wbBed (b : BedId) : ReqOf := .writeBack (.bed b)
def stateNum (s : State) (b : BedId) : Nat := (runOf s b).state.num

def bedStart (s : State) (b : BedId) : State :=
  if (runOf s b).state != .stopped then deny s oSTATE 0 0
  else if s.cmd.mode == .halt then deny s oMODE 0 0
  else if !isLive s b then deny s oSTATE 2 0
  else giveWith (enter s b .waiting) oDONE 0 0 0 [wbBed b] [] (some b)

def bedStop (s : State) (b : BedId) : State :=
  let out (s : State) : State := give s oDONE 0 0 0 [wbBed b, .bedReturn b]
  match (runOf s b).state with
  | .waiting => out (enter s b .stopped)
  | .accepting | .checking | .staging => out (enter (returnOrder s b .stopped 0 none false) b .stopped)
  | .marking | .burning | .paused => setStage (enterStopping s b .stopped) (.stopping b)
  | .unloading => out (enter (returnOrder s b .done 0 none true) b .stopped)
  | _ => deny s oSTATE 0 0

def bedPause (s : State) (b : BedId) : State :=
  let r := runOf s b
  if cuttingState r.state then
    let sent := r.pause == 0 && !r.stream.pausing
    give (addPause s b pCOMMAND) oDONE sent.toNat 0 0 [wbBed b]
  else deny s oSTATE (stateNum s b) 0

/-- BED_RESUME is accepted (R96). -/
def mayResume (r : BedRun) : Bool :=
  r.stream.form.isNone && (r.state == .paused || (cuttingState r.state && r.stream.pausing))
def resumeCauses : Byte := byte (2 ^ pCOMMAND + 2 ^ pARC + 2 ^ pPIERCE)
def giveResume (s : State) (b : BedId) : State := give s oDONE (setSize (runOf s b).pause) 0 0 [wbBed b]
/-- BED_RESUME without an option; any other option than WAIVE and REMARK is invalid (R96). -/
def bedResume (q : Line) (s : State) (b : BedId) : State :=
  if par q 0 1 != 0 then deny s oPARAM 0 0
  else if !mayResume (runOf s b) then deny s oSTATE (stateNum s b) 0
  else giveResume (dropPause s b resumeCauses) b
/-- WAIVE (R107). -/
def waiveMarks (r : BedRun) : BedRun :=
  { r with marks := { r.marks with
    table := r.marks.table.map (fun x => if r.marks.begun && x.st == .failed then { x with st := .waived } else x) } }
def bedResumeWaive (s : State) (b : BedId) : State :=
  if !mayResume (runOf s b) then deny s oSTATE (stateNum s b) 0
  else giveResume (setRun (dropPause s b (resumeCauses ||| byte (2 ^ pMARK))) b
    (waiveMarks (runOf (dropPause s b (resumeCauses ||| byte (2 ^ pMARK))) b))) b
/-- REMARK (R108): the pass begins; its result follows its end. -/
def bedResumeRemark (s : State) (b : BedId) : State :=
  if !mayResume (runOf s b) then deny s oSTATE (stateNum s b) 0
  else if (runOf s b).state != .paused then deny s oSTATE (stateNum s b) 1
  else
    let s := dropPause s b resumeCauses
    let r := runOf s b
    setStage (setRun s b { r with marks := { r.marks with pass := some .waiting }, remarkEnd := none }) (.remark b)

def bedRelease (s : State) (b : BedId) : State :=
  let r := runOf s b
  match r.hand with
  | some h =>
    if r.state == .unloading && r.unl == .release then give (postUnload s b h) oDONE 0 0 0 [wbBed b]
    else deny s oSTATE 0 0
  | none => deny s oSTATE 0 0
def bedRecover (s : State) (b : BedId) : State :=
  if (runOf s b).state != .faulted then deny s oSTATE 1 0
  else if !isLive s b then deny s oSTATE 2 0
  else give (enter s b .stopped) oDONE 0 0 0 [wbBed b]
/-- MONITOR_TEST (R127): its result waits for the bed status write-back and for the fault record's, which shows the flag
(log 55). The bed's state is judged before its link, so detail 2 is 0 in another state whatever the link (the model's choice, log
17). -/
def monitorTest (q : Line) (s : State) (b : BedId) : State :=
  let k := par q 0 1
  let r := runOf s b
  if k != 1 && k != 2 then deny s oPARAM 0 0
  else if r.state != .stopped && r.state != .waiting then deny s oSTATE (stateNum s b) 0
  else if !isLive s b then deny s oSTATE (stateNum s b) 1
  else
    let s := setRun (bedFlag s b (if k == 1 then fARC_HIGH else fARC_LOW)) b { r with arc := ⟨0, 0⟩ }
    giveWith (pushControl s (.bed b)) oDONE (bedCfg s b).arcN 0 0 [.writeBack .fault] [wbBed b] none

def execMonitorTest (slot : Line) (s : State) : Host.Outcome State Fault Refusal :=
  commandRow 0x16 s fun s => bedCommand [(0, 1)] s slot (monitorTest slot)
def execBedStart (slot : Line) (s : State) : Host.Outcome State Fault Refusal :=
  commandRow 0x20 s fun s => bedCommand [] s slot bedStart
def execBedStop (slot : Line) (s : State) : Host.Outcome State Fault Refusal :=
  commandRow 0x21 s fun s => bedCommand [] s slot bedStop
def execBedPause (slot : Line) (s : State) : Host.Outcome State Fault Refusal :=
  commandRow 0x22 s fun s => bedCommand [] s slot bedPause
/-- The three rows of BED_RESUME are told apart by the option of the slot read (log 16). -/
def execBedResume (slot : Line) (s : State) : Host.Outcome State Fault Refusal :=
  if par slot 0 1 == 1 || par slot 0 1 == 2 then idle s
  else commandRow 0x23 s fun s => bedCommand [(0, 1)] s slot (bedResume slot)
def execBedResumeWaive (slot : Line) (s : State) : Host.Outcome State Fault Refusal :=
  if par slot 0 1 != 1 then idle s else commandRow 0x23 s fun s => bedCommand [(0, 1)] s slot bedResumeWaive
def execBedResumeRemark (slot : Line) (s : State) : Host.Outcome State Fault Refusal :=
  if par slot 0 1 != 2 then idle s else commandRow 0x23 s fun s => bedCommand [(0, 1)] s slot bedResumeRemark
def execBedRelease (slot : Line) (s : State) : Host.Outcome State Fault Refusal :=
  commandRow 0x24 s fun s => bedCommand [] s slot bedRelease
def execBedRecover (slot : Line) (s : State) : Host.Outcome State Fault Refusal :=
  commandRow 0x25 s fun s => bedCommand [] s slot bedRecover

end Sys2Proof.Machine
end

