-- ==== Sys2Proof/Machine/Gantry.lean ====
section
/-!
DEFINITION. Sys2Proof/Machine/Gantry.lean: the messages of the gantries and the bed timers (R64, R82 to R91, R104, R118 to
R126), and what the beds and the permit arbiter tell each other (R113 to R117).
-/
namespace Sys2Proof.Machine

/-- A gantry message other than ALIVE: taken on a LIVE link of a present bed, it restarts the link timer (R85). -/
def gantry (b : BedId) (s : State) (f : State → State) : Host.Outcome State Fault Refusal :=
  takingIf (present s b && isLive s b) s fun s => f (setLink s b { (bedOf s b).lk with since := s.clock })

/-! ## Steps and pierces -/

/-- Entry to UNLOADING at END done (R60). A PAUSE outstanding stays so until the return (the model's choice, log 72). -/
def enterUnloading (s : State) (b : BedId) : State :=
  let s := releasePermit s b
  let s := setZone (releaseLocks s b) b .free
  let s := enter s b .unloading
  let r := emptyFifo (runOf s b)
  setRun s b { r with unl := .creation, hand := r.hand.map (fun h => { h with burnEnd := some s.clock, unloading := true }) }
/-- An executed window entry (R83, R124); END ends the burn time in STOPPING too (R46). -/
def execEntry (s : State) (b : BedId) (e : Entry) : State :=
  let r := runOf s b
  let s := setRun s b { r with stream := executed r.stream e, arc := if arcOff e then ⟨0, 0⟩ else r.arc }
  if e.step.kind != kEND then s
  else if r.state != .stopping then enterUnloading s b
  else setRun s b { runOf s b with hand := (runOf s b).hand.map (fun h => { h with burnEnd := some s.clock }) }
/-- The outstanding PIERCE is the entry's (R118). -/
def endsPierce (r : BedRun) (e : Entry) : Bool := r.pierce.any (·.seq == e.seq)
/-- STEP_DONE (R82, R86). -/
def stepDone (s : State) (b : BedId) (seq : Byte) : State :=
  let r := runOf s b
  match r.state with
  | .paused => gantryFault s b
  | .marking | .burning | .stopping =>
    match r.stream.window with
    | e :: rest =>
      if e.seq == seq then
        let s := if endsPierce r e then releaseToken s b else s
        execEntry (setStream s b { streamOf s b with window := rest }) b e
      else if r.state == .stopping then s else gantryFault s b
    | [] => if r.state == .stopping then s else gantryFault s b
  | _ => s
def pierceDone (s : State) (b : BedId) : State :=
  match (runOf s b).state with
  | .burning => if (runOf s b).pierce.isSome then releaseToken s b else s
  | .stopping => releaseToken s b
  | _ => s
/-- A pierce ends as a failure (R119, R120). -/
def pierceFails (s : State) (b : BedId) : State := addPause (bedFlag (releaseToken s b) b fPIERCE_FAIL) b pPIERCE
def pierceFail (s : State) (b : BedId) : State :=
  match (runOf s b).state with
  | .burning => if (runOf s b).pierce.isSome then pierceFails s b else s
  | .stopping => releaseToken s b
  | _ => s

/-! ## Arc monitor (R123 to R126) -/

/-- A sample is counted (R123). -/
def arcCounted (r : BedRun) : Bool :=
  r.state == .burning && (r.stream.window.head?.map (fun e => isCut e.step.kind && !e.synth)).getD false
def arcNext (c : BedCfg) (a : Arc) (v : Nat) : Arc :=
  if c.arcHigh < v then ⟨a.high + 1, 0⟩ else if v < c.arcLow then ⟨0, a.low + 1⟩ else ⟨0, 0⟩
def arcSample (s : State) (b : BedId) (v : Nat) : State :=
  let r := runOf s b
  if !arcCounted r then s else
  let c := bedCfg s b
  let a := arcNext c r.arc v
  if c.arcN ≤ a.high then addPause (setRun (bedFlag s b fARC_HIGH) b { r with arc := ⟨0, a.low⟩ }) b pARC
  else if c.arcN ≤ a.low then faultBed (setRun s b { r with arc := ⟨a.high, 0⟩ }) b fARC_LOW dARC_LOW
  else setRun s b { r with arc := a }

/-! ## PAUSED and STOPPED (R91, R64) -/

/-- The numbers a PAUSED reply may carry (R91). -/
def pausedNumberOk (t : Stream) (n : Byte) : Bool :=
  match t.window with
  | e :: _ => t.window.any (·.seq == n) || n == e.seq - 1
  | [] => n == t.seq - 1
/-- How many window entries the reply reports done (R91). -/
def doneCount (t : Stream) (n : Byte) : Nat := if t.window.any (·.seq == n) then t.window.findIdx (·.seq == n) + 1 else 0
/-- The trim of R91: executed entries, then the rest back to the resend list, a synthetic PIERCE too, to be resent (R94). -/
def trim (t : Stream) (n : Byte) : Stream :=
  let k := doneCount t n
  let t := { (t.window.take k).foldl executed t with window := t.window.drop k }
  { t with window := [], resend := t.window.map (fun e => { e with seq := 0 }) ++ t.resend }
def trimEnds (t : Stream) (n : Byte) : Bool := (t.window.take (doneCount t n)).any (·.step.kind == kEND)
def pausedReply (s : State) (b : BedId) (n : Byte) : State :=
  let r := runOf s b
  if !cuttingState r.state then s
  else if !r.stream.pausing || !pausedNumberOk r.stream n then gantryFault s b
  else
    let t := trim r.stream n
    let s := leaveTokenList (releaseToken s b) b
    if trimEnds r.stream n then enterUnloading (setStream s b { t with pausing := false }) b else
    let s := setStream s b { t with pausing := false, fromMarking := r.state == .marking, arcAtPause := t.exArc, synth := false }
    let s := enter s b .paused
    let s := setRun s b { runOf s b with ready := false }
    match t.form with
    | some f => enterFaulted (bedFlag s b fSTEP_FORM) b .formAbort f.code (some (f.idx, f.rep))
    | none => s
def stoppedReply (s : State) (b : BedId) : State :=
  let r := runOf s b
  match r.state with
  | .marking | .burning | .paused => gantryFault s b
  | .stopping => endStopping s b ((r.stop.map (·.outcome)).getD .stopped) .stopped
  | _ => s

/-! ## Marks (R104) -/

def sentMark (r : BedRun) : Option Nat :=
  let i := r.marks.table.findIdx (·.st == .sent)
  if (r.state == .marking || r.state == .paused) && i < r.marks.table.length then some i else none
def markDone (s : State) (b : BedId) : State :=
  let r := runOf s b
  match sentMark r with
  | some i => setRun s b { r with marks := { setMark r.marks i { markAt r.marks i with st := .done } with limit := none } }
  | none => s
/-- An attempt fails (R102, R104). -/
def markAttemptFails (s : State) (b : BedId) (c : MarkCause) : State :=
  let r := runOf s b
  match sentMark r with
  | some i =>
    if (markAt r.marks i).attempts < 1 + param s (·.retries) 0 then
      setRun s b { r with marks := { setMark r.marks i { markAt r.marks i with st := .pending, cause := c } with limit := none } }
    else failMark s b i c
  | none => s

/-! ## FAULT, link and timers (R63, R64, R85, R86) -/

def gantryFaultMessage (s : State) (b : BedId) (cause : Byte) : State :=
  let s := setLink s b { (bedOf s b).lk with lastFault := cause }
  match (runOf s b).state with
  | .stopped | .faulted | .stopping => bedFlag s b fGANTRY
  | .absent => s
  | _ => gantryFault s b
def linkLost (s : State) (b : BedId) : State :=
  let s := setLink s b { (bedOf s b).lk with live := false, hold := false }
  let r := runOf s b
  let s := if r.stream.form.isSome && cuttingState r.state then bedFlag s b fSTEP_FORM else s
  match r.state with
  | .stopped | .faulted => bedFlag s b fLINK_LOST
  | .absent => s
  | .stopping => endStopping (bedFlag s b fLINK_LOST) b ((r.stop.map (·.outcome)).getD .stopped) .other
  | _ => faultBed s b fLINK_LOST dLINK_LOST
/-- The stop limit runs out (R64); in a hall reset the bed ends STOPPED (R70). -/
def stopLimit (s : State) (b : BedId) : State :=
  if s.cmd.mode == .resetting then endStopping (sendBed (bedFlag s b fGANTRY) b (.abort b)) b .abortedReset .other
  else gantryFault s b
def stopDue (s : State) (b : BedId) : Bool :=
  (runOf s b).state == .stopping && (runOf s b).stop.any (fun t => due s t.start Config.stopLimit)
def pierceDue (s : State) (b : BedId) : Bool :=
  ((runOf s b).state == .burning || (runOf s b).state == .stopping) && (runOf s b).pierce.any (fun p => due s p.start Config.pierce)
/-- The reply limit of the mark SENT has run out in MARKING or PAUSED (R104). One that runs out in STOPPING does nothing: the attempt is
not counted failed and the mark stays SENT until the return (the model's choice, log 87). -/
def markLimitDue (s : State) (b : BedId) : Bool :=
  (sentMark (runOf s b)).isSome && (runOf s b).marks.limit.any (fun t => due s t Config.markReply)

def execGantryStepDone (b : BedId) (seq : Byte) (s : State) : Host.Outcome State Fault Refusal := gantry b s fun s => stepDone s b seq
def execGantryPierceDone (b : BedId) (s : State) : Host.Outcome State Fault Refusal := gantry b s fun s => pierceDone s b
def execGantryPierceFail (b : BedId) (s : State) : Host.Outcome State Fault Refusal := gantry b s fun s => pierceFail s b
def execGantryArc (b : BedId) (volts : Byte) (s : State) : Host.Outcome State Fault Refusal :=
  gantry b s fun s => arcSample s b volts.toNat
/-- HOLD and GO (R87), discarded in FAULTED (R86). -/
def setHold (s : State) (b : BedId) (h : Bool) : State :=
  if (runOf s b).state == .faulted then s else setLink s b { (bedOf s b).lk with hold := h }
def execGantryHold (b : BedId) (s : State) : Host.Outcome State Fault Refusal := gantry b s fun s => setHold s b true
def execGantryGo (b : BedId) (s : State) : Host.Outcome State Fault Refusal := gantry b s fun s => setHold s b false
def execGantryPaused (b : BedId) (last : Byte) (s : State) : Host.Outcome State Fault Refusal := gantry b s fun s => pausedReply s b last
def execGantryStopped (b : BedId) (s : State) : Host.Outcome State Fault Refusal := gantry b s fun s => stoppedReply s b
def execGantryMarkDone (b : BedId) (s : State) : Host.Outcome State Fault Refusal := gantry b s fun s => markDone s b
def execGantryMarkFail (b : BedId) (s : State) : Host.Outcome State Fault Refusal :=
  gantry b s fun s => markAttemptFails s b .replyFail
def execGantryFault (b : BedId) (cause : Byte) (s : State) : Host.Outcome State Fault Refusal :=
  gantry b s fun s => gantryFaultMessage s b cause
/-- ALIVE (R85). -/
def execGantryAlive (b : BedId) (s : State) : Host.Outcome State Fault Refusal :=
  takingIf (present s b) s fun s => setLink s b { (bedOf s b).lk with live := true, since := s.clock }
def execBedLinkTimeout (b : BedId) (s : State) : Host.Outcome State Fault Refusal :=
  takingIf (present s b && isLive s b && due s (bedOf s b).lk.since Config.bedLink) s fun s => linkLost s b
def execStopLimit (b : BedId) (s : State) : Host.Outcome State Fault Refusal := takingIf (stopDue s b) s fun s => stopLimit s b
def execPierceTimeout (b : BedId) (s : State) : Host.Outcome State Fault Refusal :=
  takingIf (pierceDue s b) s fun s => if (runOf s b).state == .burning then pierceFails s b else releaseToken s b
def execMarkReplyLimit (b : BedId) (s : State) : Host.Outcome State Fault Refusal :=
  takingIf (markLimitDue s b) s fun s => markAttemptFails s b .timeout

/-! ## Permit and token (R113 to R117) -/

def permitRequest (s : State) (b : BedId) : State :=
  let s := setRun s b { runOf s b with permitAsk := false }
  arbGrant (setArb s { s.arb with waits := s.arb.waits ++ [b] })
def execPermitRequest (b : BedId) (s : State) : Host.Outcome State Fault Refusal :=
  takingIf ((runOf s b).permitAsk && s.arb.pool.isSome) s fun s => permitRequest s b
/-- A grant is delivered (R113; log 11): kept by a bed whose order has stood since it was made, given back by any other. -/
def permitGrant (s : State) (b : BedId) : State :=
  let stale := s.arb.ended.contains b
  let s := setArb s { s.arb with grants := s.arb.grants.filter (· != b), ended := s.arb.ended.filter (· != b) }
  let r := runOf s b
  if !stale && r.hand.isSome && (activeState r.state || r.state == .stopping) then setRun s b { r with permit := true }
  else arbGrant (setArb s { s.arb with holders := s.arb.holders.filter (· != b) })
def execPermitGrant (b : BedId) (s : State) : Host.Outcome State Fault Refusal :=
  takingIf (s.arb.grants.contains b) s fun s => permitGrant s b
def tokenRequest (s : State) (b : BedId) : State :=
  let s := setRun s b { runOf s b with tokenAsk := false }
  let first := s.arb.tokenWaits.isEmpty
  let s := setArb s { s.arb with tokenWaits := s.arb.tokenWaits ++ [b] }
  if first then arbOffer s else s
def execTokenRequest (b : BedId) (s : State) : Host.Outcome State Fault Refusal :=
  takingIf (runOf s b).tokenAsk s fun s => tokenRequest s b
def readyReport (s : State) (b : BedId) : State :=
  let s := setRun s b { runOf s b with readyRpt := false }
  if s.arb.tokenWaits.head? == some b then arbOffer s else s
def execReadyReport (b : BedId) (s : State) : Host.Outcome State Fault Refusal :=
  takingIf (runOf s b).readyRpt s fun s => readyReport s b
/-- The first PIERCE of an order makes its plate SKELETON (R13, R83). -/
def firstPierce (s : State) (b : BedId) : State :=
  let r := runOf s b
  let s := setRun s b { r with stream := { r.stream with pierceSent := true } }
  match r.hand with
  | some h =>
    let i := (h.look.map (·.ix)).getD 0
    if holds s i (ordPlate h.order) && (plateAt s i).st == .stock then setPlate s i { plateAt s i with st := .skeleton } else s
  | none => s
/-- A ready bed accepts the token and sends its PIERCE (R82, R94, R117). -/
def acceptToken (s : State) (b : BedId) (e : Entry) : State :=
  let s := setArb s { s.arb with token := some b, tokenWaits := s.arb.tokenWaits.filter (· != b) }
  let t := streamOf s b
  let s := sendStep (setStream s b (takePierce t)) b e
  let s := setRun s b { runOf s b with pierce := some ⟨s.clock, t.seq⟩ }
  if e.synth || t.pierceSent then s else firstPierce s b
/-- The offer is taken (R117): declined by a bed that has left the list since, and then passed on to the head, or that is not
ready. -/
def tokenOffer (s : State) (b : BedId) : State :=
  let left := s.arb.offerLeft || !s.arb.tokenWaits.contains b
  let s := setArb s { s.arb with offer := none, offerLeft := false }
  if left then arbOffer s
  else match nextPierce (streamOf s b) with
    | some e => if readyNow s b then acceptToken s b e else s
    | none => s
def execTokenOffer (s : State) : Host.Outcome State Fault Refusal :=
  match s.arb.offer with
  | some b => taking s fun s => tokenOffer s b
  | none => idle s

end Sys2Proof.Machine
end

