-- ==== Sys2Proof/Machine/CraneLink.lean ====
section
/-!
DEFINITION. Sys2Proof/Machine/CraneLink.lean: the messages and timers of the crane, postings of the beds, and the two crane
commands (R130, R141 to R155).
-/
namespace Sys2Proof.Machine

/-- A crane message is taken on a LIVE link and restarts its timer (R141). -/
def craneHeard (s : State) : State := setCrane s { s.crane with lk := { s.crane.lk with since := s.clock } }
def setLoad (s : State) (l : Load) : State := setCrane s { s.crane with lk := { s.crane.lk with load := l } }
def setMove (s : State) (m : Move) : State := setCrane s { s.crane with move := some m }
def resetting (s : State) : Bool := s.crane.resetAt.isSome
/-- A message concerning the move in flight; one with another move ID is discarded (R142). -/
def craneMessage (id : Byte) (s : State) (f : State → Move → State) : Host.Outcome State Fault Refusal :=
  takingIf s.crane.lk.live s fun s =>
    let s := craneHeard s
    match s.crane.move with
    | some m => if m.id == id then f s m else s
    | none => s
def disobeyed (s : State) : State := craneFaulted (craneFlag s fcREFUSED)

/-! ## Messages -/

def craneAccept (s : State) : State :=
  if s.crane.state == .dispatched && !resetting s then
    let s := craneTo s .lifting
    setCrane s { s.crane with refusals := 0 }
  else s
/-- The request goes back to its bank, queued (R144). One of an order that has ended is withdrawn by its bed, which has no order
for it (R130; log 41). -/
def backToBank (s : State) (m : Move) : State :=
  match m.req with
  | .host i => setOrder s i .queued
  | .bed b _ _ =>
    let c := s.crane
    match c.bank.get b with
    | q :: rest =>
      if q.inFlight then
        setCrane s { c with
          bank := c.bank.set b ({ q with inFlight := false } :: rest),
          inbox := c.inbox.set b (if q.orphan then c.inbox.get b ++ [.withdraw] else c.inbox.get b) }
      else s
    | [] => s
def infeedOnly (l : Loc) : Loc := match l with | .infeed n => .infeed n | _ => .none
/-- REFUSE in DISPATCHED without an ABORT (R144). In HALTING the host order, queued again, is returned as every queued one was
(R154, R165; log 62). -/
def refused (s : State) (m : Move) : State :=
  let s := convertRes (backToBank (craneFlag s fcREFUSED) m) m.req (infeedOnly m.dst)
  let n := s.crane.refusals + 1
  let s := craneRest s m
  let s := setCrane s { s.crane with refusals := n }
  let s := if Config.refusals ≤ n then craneFaulted s else s
  if s.cmd.mode == .halting then haltCrane s else s
/-- A cancel ends with nothing lifted (R149). -/
def cancelDropped (s : State) (m : Move) : State := craneRest (endHost s m cCANCELLED (whereIs s m) 0) m
def craneDropped (s : State) (m : Move) : State :=
  if (s.crane.state == .dispatched || s.crane.state == .lifting) && m.abort then
    let s := setLoad s .absent
    if resetting s then craneResetEnd s else cancelDropped s m
  else s
/-- REFUSE (R142, R144): in DISPATCHED with an ABORT sent it is taken as DROPPED. -/
def craneRefuse (s : State) (m : Move) : State :=
  match s.crane.state with
  | .dispatched => if m.abort then craneDropped s m else if resetting s then craneResetEnd s else refused s m
  | .returning => if resetting s then s else disobeyed s
  | _ => s
/-- The measured mass is outside the tolerance (R145). -/
def outsideTolerance (s : State) (m : Move) (mass : Nat) : Bool :=
  match m.expected with
  | some e => param s (·.tolerance) 0 * e < 100 * ((mass - e) + (e - mass))
  | none => false
def craneLifted (s : State) (m : Move) (mass : Nat) : State :=
  if s.crane.state != .dispatched && s.crane.state != .lifting then s else
  let s := setLoad s .present
  let bad := outsideTolerance s m mass
  let m := { m with measured := some mass, lifted := true }
  if resetting s then craneTo (setMove (stockLift s m.ix m.plate) m) .returning
  else if !bad && !m.abort then craneTo (setMove (stockLift s m.ix m.plate) m) .travelling
  else
    let s := if m.abort then s else sendCrane s (.craneAbort m.id)
    let s := stockTurnBack s m
    let s := if bad then
        let s := craneFlag s fcMASS
        setCrane s { s.crane with mismatched := s.crane.mismatched + 1 }
      else s
    craneTo (setMove s { m with abort := true, turned := true, massBad := bad }) .returning
def craneArrived (s : State) : State := if s.crane.state == .travelling then craneTo s .setting else s
/-- The SET at the destination (R146). -/
def setAtDestination (s : State) (m : Move) : State :=
  let s := convertRes (stockSet s m.ix m.plate m.dst) m.req m.dst
  if resetting s then craneResetEnd s else
  let s := setCrane s { s.crane with moved := s.crane.moved + 1 }
  craneRest (reportDone (endHost s m 0 (whereIs s m) (measuredOf m)) m) m
/-- The SET at the source after a confirmed return (R147, R149, R150). -/
def setAtSource (s : State) (m : Move) : State :=
  let s := convertRes (stockSet s m.ix m.plate m.src) m.req m.src
  let s := if m.massBad then setSuspect s m.ix m.plate else s
  if resetting s then craneResetEnd s else
  let s := endHost s m (if m.massBad then cMASS_MISMATCH else cCANCELLED) (whereIs s m) (measuredOf m)
  reportBack (craneRest s m) m true
def craneSet (s : State) (m : Move) : State :=
  match s.crane.state with
  | .travelling | .setting => setAtDestination (setLoad s .absent) m
  | .returning =>
    if m.confirmed then setAtSource (setLoad s .absent) m
    else if resetting s then s else disobeyed (setLoad s .absent)
  | _ => s
/-- RETURNING (R142, R145); in a hall reset R155's. A piece lifted by a RETURNING taken as a LIFTED has no mass reported: the order's
measured mass is 0 (the model's choice, log 82). -/
def craneReturning (s : State) (m : Move) : State :=
  if !resetting s then (if s.crane.state == .returning then setMove s { m with confirmed := true } else s) else
  match s.crane.state with
  | .dispatched | .lifting =>
    craneResetEnd (craneTo (setMove (stockLift (setLoad s .present) m.ix m.plate) { m with lifted := true, confirmed := true })
      .returning)
  | .travelling => craneResetEnd (setMove s { m with confirmed := true })
  | .returning => if m.confirmed then s else craneResetEnd (setMove s { m with confirmed := true })
  | _ => s
/-- FAULT (R151): of the move's ID or of ID 0 (log 32). -/
def craneFaultMessage (s : State) (id : Byte) (c : CraneCause) : State :=
  let s := craneHeard s
  if id != 0 && !s.crane.move.any (·.id == id) then s else
  let s := setCrane s { s.crane with lastFault := byte (CraneCause.num c) }
  let s := if c == .loadDrop then loadDrop (craneFlag s fcLOAD_DROP) else s
  if resetting s then s else craneFaulted s
def craneReady (s : State) (loaded : Bool) : State :=
  let first := !s.crane.lk.seen
  let s := setCrane s { s.crane with lk := ⟨true, s.clock, if loaded then .present else .absent, true⟩ }
  if first && loaded then craneFlag (setCrane s { s.crane with state := .faulted, loadedStands := true }) fcRESET_LOADED else s

/-! ## Timers -/

def craneLinkLost (s : State) : State :=
  let s := craneFlag (setCrane s { s.crane with lk := { s.crane.lk with live := false } }) fcLINK_LOST
  if resetting s then craneResetEnd s else craneFaulted s
def phaseLimit : CraneState → Option Nat
  | .dispatched => some Config.dispatched
  | .lifting => some Config.lifting
  | .travelling => some Config.travelling
  | .setting => some Config.setting
  | .returning => some Config.returning
  | _ => none
def phaseDue (s : State) : Bool := (phaseLimit s.crane.state).any (due s s.crane.phaseSince)
def phaseOver (s : State) : State :=
  let s := craneFlag s fcTIMEOUT
  if resetting s then s else craneFaulted s

/-! ## Postings and withdrawals of the beds (R130) -/

def takePost (s : State) (b : BedId) (q : BedReq) : State :=
  let c := s.crane
  setCrane s { c with bank := c.bank.set b (c.bank.get b ++ [q]), inbox := c.inbox.set b (c.inbox.get b).tail }
def takeWithdraw (s : State) (b : BedId) : State :=
  let c := s.crane
  let gone := (c.bank.get b).filter (!·.inFlight)
  let s := setCrane s { c with bank := c.bank.set b ((c.bank.get b).filter (·.inFlight)), inbox := c.inbox.set b (c.inbox.get b).tail }
  gone.foldl (fun s q => releaseRes s (.bed b q.kind q.plate)) s

/-! ## CRANE_CANCEL (R148 to R150) -/

def cancelFlight (s : State) (o : StockOrder) (m : Move) : State :=
  let wait : List ReqOf := [.writeBack .crane]
  if m.abort then deny s oSTATE 2 0 else
  match s.crane.state with
  | .dispatched | .lifting =>
    give (setMove (sendCrane s (.craneAbort m.id)) { m with abort := true }) oDONE 2 0 0 wait
  | .travelling =>
    if !available s m.src then deny s oTOO_LATE 0 0 else
    let s := reserve (releaseRes s m.req) (.host o.idx) m.plate m.src
    let s := sendCrane (setMove s { m with abort := true, turned := true }) (.craneAbort m.id)
    give (craneTo s .returning) oDONE 3 0 0 wait
  | _ => deny s oTOO_LATE 0 0
def cancelOrder (s : State) (o : StockOrder) : State :=
  match o.stage with
  | .failed => deny s oSTATE 3 0
  | .returning => deny s oTOO_LATE 0 0
  | .queued => give (returnHost s o.idx cCANCELLED (orderLoc s o) 0 true) oDONE 1 0 0 [.craneReturn o.idx, .writeBack .crane]
  | .reading => give (returnHost s o.idx cCANCELLED .none 0 false) oDONE 1 0 0 [.craneReturn o.idx, .writeBack .crane]
  | .inFlight => match s.crane.move with
    | some m => cancelFlight s o m
    | none => deny s oNOT_FOUND 0 0
def craneCancel (s : State) (q : Line) : State :=
  let i := par q 0 2
  if !parZeroBut q [(0, 2)] then deny s oPARAM 0 0
  else if i != 0xFFFF && param s (·.craneCount) 0 ≤ i then deny s oPARAM 0 0
  else
    let inFlight := if s.crane.state == .faulted then none else s.crane.move
    let named := if i != 0xFFFF then some (some i) else inFlight.map (fun m => match m.req with | .host j => some j | .bed _ _ _ => none)
    match named with
    | none => deny s oNOT_FOUND 0 0
    | some none => deny s oSTATE 1 0
    | some (some j) => match s.crane.stock.find? (·.idx == j) with
      | none => deny s oNOT_FOUND 0 0
      | some o => cancelOrder s o

/-! ## CRANE_RECOVER (R33, R152, R153) -/

/-- The checks of R152 up to check 6. Check 4 judges the load state (R141), which a LIFTED, SET or DROPPED taken since the last READY has
changed too (the model's choice, log 89). -/
def recoverRefused (s : State) (q : Line) : Option (Byte × Nat) :=
  if !parZeroBut q [(0, 1)] then some (oPARAM, 0)
  else if 3 < par q 0 1 then some (oPARAM, 0)
  else if s.crane.state != .faulted then some (oSTATE, 1)
  else if !s.crane.lk.live then some (oSTATE, 2)
  else if s.crane.lk.load == .present then some (oSTATE, 3)
  else if s.crane.move.isSome != (par q 0 1 != 0) then some (oPARAM, 0)
  else match s.crane.move with
    | some m => if par q 0 1 != 3 && holds s m.ix m.plate && (plateAt s m.ix).st == .lost then some (oSTATE, 4) else none
    | none => none
/-- FAULTED ends (R152, R153). -/
def recovered (s : State) (zones : List BedId) : State :=
  let s := freeZones s zones
  let s := setCrane s { s.crane with state := .idle, move := none, refusals := 0, loadedStands := false }
  give s oDONE 0 0 0 [.writeBack .crane]
/-- The declared place is taken (R33), under the move's own reservation where it still has one: `none` where it is not
available. A record that no longer holds the plate is left alone, and no place is asked for (R1; the model's choice, log 75). -/
def placeAt (s : State) (m : Move) (l : Loc) : Option State :=
  if !holds s m.ix m.plate then some s
  else if m.reserves && hasRes s m.req l then some (convertRes (stockSet s m.ix m.plate l) m.req l)
  else if available s l then some (stockSet s m.ix m.plate l)
  else none
/-- Where a recovered piece lies, for its order's final location (R153): the place declared where its record no longer holds it. -/
def recoveredLoc (s : State) (m : Move) (l : Loc) : Loc := if holds s m.ix m.plate then whereIs s m else l
def recoverAt (s : State) (m : Move) (l : Loc) (report : State → State) : State :=
  match placeAt s m l with
  | none => deny s oFULL l.num.1 0
  | some s => recovered (report s) m.zones
def recoverSource (s : State) (m : Move) : State :=
  let report (s : State) : State :=
    let s := if m.massBad then setSuspect s m.ix m.plate else s
    let s := if m.kind == .remnantOut && m.live then s else endRes s m
    reportBack (endHost s m cFAULT_ABORT (recoveredLoc s m m.src) (measuredOf m)) m m.massBad
  if m.lifted then recoverAt s m m.src report else recovered (report s) m.zones
def recoverDestination (s : State) (m : Move) : State :=
  let s1 := if m.lifted then s else stockLift s m.ix m.plate
  match placeAt s1 m m.dst with
  | none => deny s oFULL m.dst.num.1 0
  | some s2 =>
    recovered (reportDone (endHost (endRes s2 m) m cFAULT_ABORT (recoveredLoc s2 m m.dst) (measuredOf m)) m) m.zones
def recoverLost (s : State) (m : Move) : State :=
  let s := endRes (makeLost s m.ix m.plate) m
  recovered (reportLost (endHost s m cFAULT_ABORT .lost (measuredOf m)) m) m.zones
/-- CRANE_RECOVER with the outcome's own action on the failed move. -/
def craneRecover (s : State) (q : Line) (f : State → Move → State) : State :=
  match recoverRefused s q with
  | some (o, d) => deny s o d 0
  | none => match s.crane.move with
    | some m => f s m
    | none => recovered s []

/-! ## The commands -/

def execCraneAccept (id : Byte) (s : State) : Host.Outcome State Fault Refusal := craneMessage id s fun s _ => craneAccept s
def execCraneRefuse (id : Byte) (s : State) : Host.Outcome State Fault Refusal := craneMessage id s fun s m => craneRefuse s m
def execCraneLifted (id : Byte) (mass : Word) (s : State) : Host.Outcome State Fault Refusal :=
  craneMessage id s fun s m => craneLifted s m mass.toNat
def execCraneArrived (id : Byte) (s : State) : Host.Outcome State Fault Refusal := craneMessage id s fun s _ => craneArrived s
def execCraneSet (id : Byte) (s : State) : Host.Outcome State Fault Refusal := craneMessage id s fun s m => craneSet s m
def execCraneDropped (id : Byte) (s : State) : Host.Outcome State Fault Refusal := craneMessage id s fun s m => craneDropped s m
def execCraneReturning (id : Byte) (s : State) : Host.Outcome State Fault Refusal := craneMessage id s fun s m => craneReturning s m
def execCraneFault (id : Byte) (cause : CraneCause) (s : State) : Host.Outcome State Fault Refusal :=
  takingIf s.crane.lk.live s fun s => craneFaultMessage s id cause
def execCraneReady (loaded : Bool) (s : State) : Host.Outcome State Fault Refusal := taking s fun s => craneReady s loaded
def execCraneLinkTimeout (s : State) : Host.Outcome State Fault Refusal :=
  takingIf (s.crane.lk.live && due s s.crane.lk.since Config.craneLink) s craneLinkLost
def execPhaseLimit (s : State) : Host.Outcome State Fault Refusal := takingIf (phaseDue s) s phaseOver
def execCraneResetLimit (s : State) : Host.Outcome State Fault Refusal :=
  takingIf (s.crane.resetAt.any (fun t => due s t Config.craneReset)) s craneResetEnd
def execCraneRequestPost (b : BedId) (s : State) : Host.Outcome State Fault Refusal :=
  match (s.crane.inbox.get b).head? with
  | some (.post q) => taking s fun s => takePost s b q
  | _ => idle s
def execCraneRequestWithdraw (b : BedId) (s : State) : Host.Outcome State Fault Refusal :=
  match (s.crane.inbox.get b).head? with
  | some .withdraw => taking s fun s => takeWithdraw s b
  | _ => idle s
def execCraneCancel (slot : Line) (s : State) : Host.Outcome State Fault Refusal :=
  commandRow 0x30 s fun s => untargeted s fun s => craneCancel s slot
/-- The four rows of CRANE_RECOVER are told apart by the outcome of the slot read (log 16). -/
def execCraneRecoverNone (slot : Line) (s : State) : Host.Outcome State Fault Refusal :=
  if inRange 1 3 (par slot 0 1) then idle s else commandRow 0x31 s fun s => untargeted s fun s => craneRecover s slot (fun s _ => s)
def execCraneRecoverAtSource (slot : Line) (s : State) : Host.Outcome State Fault Refusal :=
  if par slot 0 1 != 1 then idle s else commandRow 0x31 s fun s => untargeted s fun s => craneRecover s slot recoverSource
def execCraneRecoverAtDestination (slot : Line) (s : State) : Host.Outcome State Fault Refusal :=
  if par slot 0 1 != 2 then idle s else commandRow 0x31 s fun s => untargeted s fun s => craneRecover s slot recoverDestination
def execCraneRecoverLost (slot : Line) (s : State) : Host.Outcome State Fault Refusal :=
  if par slot 0 1 != 3 then idle s else commandRow 0x31 s fun s => untargeted s fun s => craneRecover s slot recoverLost

end Sys2Proof.Machine
end

