-- ==== Sys2Proof/Machine/Loader.lean ====
section
/-!
DEFINITION. Sys2Proof/Machine/Loader.lean: the anchor loader: verification, table scan, and putting an anchor in force
(R199 to R207, R71, R115, R157).
-/
namespace Sys2Proof.Machine

/-! ## Verdict codes (Table 12-12) -/

def vSIGNATURE : Nat := 1
def vVERSION : Nat := 2
def vLENGTH : Nat := 3
def vCHECKSUM : Nat := 4
def vALIGNMENT : Nat := 5
def vREGION_OUTSIDE : Nat := 6
def vREGION_OVERLAP : Nat := 7
def vRING_COUNT : Nat := 8
def vTABLE_CAPACITY : Nat := 9
def vPARAMETER : Nat := 10
def vNO_BED : Nat := 11
def vMEMORY : Nat := 12
def vTABLE_FORM : Nat := 13
def vTABLE_DUPLICATE : Nat := 14
def vTABLE_SLOT : Nat := 15

/-- A failure: its code and details 1 and 2. -/
abbrev Fail := Nat × Nat × Nat

/-! ## The checks of R201 (a detail the table does not give is 0: the model's choice, log 80) -/

/-- Checks 1 to 3, on line 0; they have one detail, and the other is 0 (log 80). -/
def headChecks (x : Nat) : Option Fail :=
  if fld x 0 4 != Config.signature then some (vSIGNATURE, fld x 0 4, 0)
  else if fld x 4 2 != 1 then some (vVERSION, fld x 4 2, 0)
  else if fld x 6 2 < 512 || 960 < fld x 6 2 || fld x 6 2 % 64 != 0 then some (vLENGTH, fld x 6 2, 0)
  else none
/-- The sum of R199: every word of the field area but the commit word. -/
def checksum (x len : Nat) : Nat :=
  ((List.range (len / 4)).foldl (fun a k => if k == 2 then a else a + fld x (4 * k) 4) 0) % 2 ^ 32

def presentBeds (a : Anchor) : List BedId := bedIds.filter (fun b => (a.beds.get b).present)
/-- Bases with their field number and bed, 0 where it is no bed ring's (log 80), in the order of the numbers. -/
def bases (a : Anchor) : List (Nat × Nat × Nat) :=
  [(7, a.control, 0), (8, a.table, 0), (10, a.craneBase, 0)] ++ (presentBeds a).map (fun b => (13, (a.beds.get b).base, bedNum b))
/-- Check 5 (R201, R202). -/
def alignCheck (a : Anchor) : Option Fail := ((bases a).find? (fun p => p.2.1 % 64 != 0)).map (fun p => (vALIGNMENT, p.1, p.2.2))
/-- The regions with field number, base, size and bed (R202), the bed 0 where it is no bed ring's (log 80). -/
def regionList (base : Nat) (a : Anchor) : List (Nat × Nat × Nat × Nat) :=
  [(0, base, Config.anchorSize, 0), (7, a.control, Config.controlSize, 0), (8, a.table, 128 * a.capacity, 0),
   (10, a.craneBase, 32 * a.craneCount, 0)] ++
  (presentBeds a).map (fun b => (13, (a.beds.get b).base, 64 * (a.beds.get b).count, bedNum b))
/-- Check 6 (R201, R202); its second detail is 0 for field 6 and for a region that is no bed ring (log 80). -/
def outsideCheck (base : Nat) (a : Anchor) : Option Fail :=
  if a.memMiB < 16 || 4096 < a.memMiB then some (vREGION_OUTSIDE, 6, 0) else
  ((regionList base a).find? (fun r => 1048576 * a.memMiB < r.2.1 + r.2.2.1)).map (fun r => (vREGION_OUTSIDE, r.1, r.2.2.2))
/-- The first overlapping pair of a list of regions (R202). -/
def overlapIn : List (Nat × Nat × Nat × Nat) → Option Fail
  | [] => none
  | r :: rest =>
    match rest.find? (fun q => overlaps r.2.1 r.2.2.1 q.2.1 q.2.2.1) with
    | some q => some (vREGION_OVERLAP, r.1, q.1)
    | none => overlapIn rest
def powerOfTwo (n : Nat) : Bool := [4, 8, 16, 32, 64, 128, 256].contains n
/-- Check 8 (R201); its second detail is 0 for the crane ring (log 80). -/
def countCheck (a : Anchor) : Option Fail :=
  if !(powerOfTwo a.craneCount && a.craneCount ≤ 64) then some (vRING_COUNT, 11, 0) else
  ((presentBeds a).find? (fun b => !powerOfTwo (a.beds.get b).count)).map (fun b => (vRING_COUNT, 14, bedNum b))
/-- Check 9 (R201), with one detail, the other 0 (log 80). -/
def capacityCheck (a : Anchor) : Option Fail :=
  if a.capacity < 64 || 1024 < a.capacity || a.capacity % 64 != 0 then some (vTABLE_CAPACITY, a.capacity, 0) else none

/-- Check 10 field by field, in the order of the fields' numbers: what is reported (field number with bed or class; for an undefined
enumeration, fields 18 and 29 to 31, number 0 with the byte offset, R217) and whether it holds (R201; log 18). The second detail is 0
for a field of no bed and no class (log 80). -/
def paramChecks (x : Nat) (a : Anchor) : List (Nat × Nat × Bool) :=
  let perBed (n : Nat) (ok : BedCfg → Bool) : List (Nat × Nat × Bool) :=
    (presentBeds a).map (fun b => (n, bedNum b, ok (a.beds.get b)))
  let cls : List (Nat × ClassCfg) := [(0, a.classS), (1, a.classM), (2, a.classL)]
  bedIds.map (fun b => (12, bedNum b, decide (fld x (0x40 + 32 * bedNum b) 1 ≤ 1))) ++
  perBed 15 (fun c => inRange 1 24000 c.len) ++ perBed 16 (fun c => inRange 1 4000 c.wid) ++
  perBed 17 (fun c => inRange 30 1500 c.thick) ++
  (presentBeds a).map (fun b => (0, 0x41 + 32 * bedNum b, decide (fld x (0x41 + 32 * bedNum b) 1 ≤ 1))) ++
  perBed 19 (fun c => inRange 50 250 c.arcHigh) ++
  perBed 20 (fun c => inRange 50 250 c.arcLow && c.arcLow < c.arcHigh) ++ perBed 21 (fun c => inRange 1 32 c.arcN) ++
  [(22, 0, inRange 1 4 a.permits), (23, 0, inRange 1 40000 a.rated), (24, 0, inRange 1 25 a.tolerance), (25, 0, decide (a.aging ≤ 15))] ++
  cls.map (fun p => (26, p.1, inRange 1 24000 p.2.len && inRange 1 4000 p.2.wid &&
    (match p.1 with
      | 1 => a.classS.len ≤ p.2.len && a.classS.wid ≤ p.2.wid
      | 2 => a.classM.len ≤ p.2.len && a.classM.wid ≤ p.2.wid
      | _ => true))) ++
  cls.map (fun p => (27, p.1, p.2.count ≤ 32 && (p.1 != 2 || a.classS.count + a.classM.count + a.classL.count ≤ 64))) ++
  [(28, 0, inRange 1 240 a.holdMin), (0, 0x2D, decide (a.watch ≤ 3)), (0, 0x2E, decide (fld x 0x2E 1 ≤ 1)),
   (0, 0x2F, decide (fld x 0x2F 1 ≤ 1)), (32, 0, decide (a.retries ≤ 3))]
/-- The reserved bytes of a field area of `len` bytes (Tables 12-2, 12-3). -/
def reservedBytes (len : Nat) : List Nat :=
  [0x12, 0x13, 0x1F] ++ (List.range 16).map (0x30 + ·) ++
  [0, 1, 2, 3].flatMap (fun n => (List.range 15).map (fun k => 0x51 + 32 * n + k)) ++
  [0, 1, 2].flatMap (fun c => [0xC5 + 8 * c, 0xC6 + 8 * c, 0xC7 + 8 * c]) ++ (List.range (len - 0xD8)).map (0xD8 + ·)
def paramCheck (x len : Nat) (a : Anchor) : Option Fail :=
  match (paramChecks x a).find? (fun p => !p.2.2) with
  | some p => some (vPARAMETER, p.1, p.2.1)
  | none => ((reservedBytes len).find? (fun k => fld x k 1 != 0)).map (fun k => (vPARAMETER, 0, k))
/-- Checks 4 to 9 on the whole field area (R201). -/
def regionChecks (base x : Nat) : Option Fail :=
  let len := fld x 6 2
  let a := anchorOf x
  if checksum x len != 0 then some (vCHECKSUM, checksum x len, 0)
  else (alignCheck a).or <| (outsideCheck base a).or <| (overlapIn (regionList base a)).or <| (countCheck a).or (capacityCheck a)
/-- Checks 10 and 11 (R201); NO_BED has no detail, and both are 0 (log 80). -/
def valueChecks (x : Nat) : Option Fail :=
  let a := anchorOf x
  (paramCheck x (fld x 6 2) a).or <| if (presentBeds a).isEmpty then some (vNO_BED, 0, 0) else none

/-! ## The verdict -/

def setVer (s : State) (v : Verif) : State := setLoader s { s.loader with ver := some v }
/-- The verdict record is written (R205 to R207), with the hall time at which its write is handed to the record engine (the model's
choice, log 79). -/
def giveVerdict (s : State) (v : Verif) (code d1 d2 : Nat) : State :=
  let d : Verdict := { code := code, kept := code != 0 && s.loader.inForce.isSome, lost := if code == 0 then v.lost else 0,
                       d1 := word d1, d2 := word d2, no := s.loader.commitNo, val := s.loader.commitVal, time := s.clock }
  pushWb (setVer s { v with stage := .writing, verdict := some d }) .verdict
def failVerdict (s : State) (v : Verif) (f : Fail) : State := giveVerdict s v f.1 f.2.1 f.2.2

/-! ## Reading the block (R201) -/

/-- A line of the block read (R201). With checks 5 to 9 passed its regions stand beside those in force (R202). -/
def anchorLine (s : State) (v : Verif) (q : Nat) (d : Line) : State :=
  let v := { v with lines := v.lines ++ [d] }
  let x := anchorNat v.lines
  let s := setVer s v
  match (if q == 0 then headChecks x else none) with
  | some f => failVerdict s v f
  | none =>
    if 64 * (q + 1) < fld x 6 2 then pushRead s (.anchorLine (q + 1)) (s.loader.base + 64 * (q + 1))
    else match regionChecks s.loader.base x with
      | some f => failVerdict s v f
      | none =>
        let v := { v with cand := some (anchorOf x) }
        match valueChecks x with
        | some f => failVerdict s v f
        | none => pushRead (setVer s { v with stage := .scan 0 }) (.scanRead 0 false) (anchorOf x).table

/-! ## The table scan (R203, R204) -/

/-- The fix-ups of R203: the record, and whether it was made LOST. -/
def fixup (a : Anchor) (p : Plate) : Plate × Bool :=
  let lost : Bool := p.located && match p.loc with
    | .crane => true
    | .bed b => !(a.beds.get b).present
    | _ => false
  (if lost then { p with st := .lost } else p, lost)

/-- The first record, in index order, for which `f` names a lower record. -/
def firstClash (t : List Plate) (f : Plate → Plate → Bool) : Option (Nat × Nat) :=
  t.zipIdx.findSome? fun p =>
    let j := (t.take p.2).findIdx (f p.1)
    if j < p.2 then some (p.2, j) else none
def rackOf (p : Plate) : Option Nat := if p.located then (match p.loc with | .rack n => some n | _ => none) else none
def infeedLevels (t : List Plate) : List Nat :=
  t.filterMap (fun p => if p.located then (match p.loc with | .infeed n => some n | _ => none) else none)
/-- The collection checks (R204). -/
def tableChecks (a : Anchor) (t : List Plate) : Option Fail :=
  let slots := a.classS.count + a.classM.count + a.classL.count
  let levels := infeedLevels t
  let inBay := (t.filter (fun p => p.located && p.loc == .overflow)).length
  match firstClash t (fun p q => p.st != .empty && q.st != .empty && p.id == q.id) with
  | some (i, j) => some (vTABLE_DUPLICATE, i, j)
  | none =>
    match t.zipIdx.findSome? (fun p => match rackOf p.1 with | some n => if slots ≤ n then some (p.2, n) else none | none => none) with
    | some (i, n) => some (vTABLE_SLOT, i, n)
    | none =>
      match firstClash t (fun p q => (rackOf p).isSome && rackOf p == rackOf q) with
      | some (i, j) => some (vTABLE_SLOT, i, j)
      | none =>
        if !(List.range levels.length).all (fun k => levels.contains (k + 1)) then some (vTABLE_FORM, levels.length, 2)
        else if Config.overflow < inBay then some (vTABLE_FORM, inBay, 3) else none
/-- The crane ring's base or count changes under the anchor `a` (R157). -/
def craneRingChanges (s : State) (a : Anchor) : Bool :=
  s.loader.inForce.any (fun o => o.craneBase != a.craneBase || o.craneCount != a.craneCount)
/-- A host order held by a failed move is returned at its element of the previous ring before an anchor with another crane ring takes
force (R157): its return is queued before the verdict is written (log 68); the failed move stays without it. Its claim and its
reservations end at the commit. -/
def returnHeld (s : State) : State :=
  let s := (s.crane.stock.filter (·.stage == .failed)).foldl
    (fun s o => returnHost s o.idx cABORTED_HALT (orderLoc s o) (heldMass s o) false) s
  setCrane s { s.crane with
    move := s.crane.move.map (fun (m : Move) => match m.req with | .host _ => { m with live := false } | .bed _ _ _ => m) }
/-- The scan has read and judged every record (R204, R205). -/
def scanEnd (s : State) (v : Verif) (a : Anchor) : State :=
  match tableChecks a v.table with
  | some f => failVerdict s v f
  | none =>
    let s := if craneRingChanges s a then returnHeld s else s
    giveVerdict (v.changed.foldl (fun s i => pushWb s (.scan i)) s) v 0 0 0
/-- A record is marked changed (R203): an EMPTY one by its zeroing, where memory held any of its 128 bytes as other than 0 (log 26);
any other by a fix-up, its claim, holder or hold expiry in memory being other than 0 or the record made LOST. Nothing else marks it. -/
def scanChanged (l0 l1 : Line) (lost : Bool) : Bool :=
  let x := l0.toNat
  if fld x 0 1 == 0 then l0 != 0 || l1 != 0 else lost || fld x 4 1 != 0 || fld x 6 2 != 0 || fld x 0x18 4 != 0
def scanSecond (s : State) (v : Verif) (a : Anchor) (i : Nat) (l0 l1 : Line) : State :=
  match Plate.scan? l0 l1 with
  | none => failVerdict s v (vTABLE_FORM, i, 1)
  | some p =>
    let (p, lost) := fixup a p
    let v := { v with stage := .scan (i + 1), first := none, table := v.table ++ [p],
                      changed := if scanChanged l0 l1 lost then v.changed ++ [i] else v.changed,
                      lost := if lost then v.lost + 1 else v.lost }
    let s := setVer s v
    if i + 1 < a.capacity then pushRead s (.scanRead (i + 1) false) (a.table + 128 * (i + 1)) else scanEnd s v a
def scanLine (s : State) (v : Verif) (a : Anchor) (i : Nat) (second : Bool) (d : Line) : State :=
  if second then scanSecond s v a i (v.first.getD 0) d
  else pushRead (setVer s { v with first := some d }) (.scanRead i true) (a.table + 128 * i + 64)

/-! ## Putting an anchor in force (R205, R71, R115, R157) -/

/-- A bed under its entry `new` of the new anchor; `old` is its entry in the previous one (R71, R85, R97, R111). With no anchor in
force before, a STOPPED bed present under the first one keeps its link, also where a commit puts that one in force (the model's choice,
log 96). -/
def newBed (old new : BedCfg) (b : Bed) : Bed :=
  if !new.present then
    { b with lk := { b.lk with live := false, hold := false }, run := { BedRun.reset with state := .absent } }
  else if b.run.state == .absent then Bed.reset
  else if old.present && (old.base != new.base || old.count != new.count) then { b with ring := { b.ring with pos := 0 } }
  else b
def takeBeds (s : State) (a : Anchor) : State :=
  let f (b : BedId) : Bed := newBed (bedCfg s b) (a.beds.get b) (bedOf s b)
  let z (b : BedId) : Zone := if (runOf s b).state == .absent && (a.beds.get b).present then .free else zoneOf s b
  { s with beds := ⟨f .b0, f .b1, f .b2, f .b3⟩, zones := ⟨z .b0, z .b1, z .b2, z .b3⟩ }
/-- The crane controller under the new anchor (R157). -/
def takeCraneCfg (s : State) (a : Anchor) : State :=
  let s := if craneRingChanges s a then setCrane s { s.crane with ringPos := 0 } else s
  let keep (b : BedId) : Bool := (a.beds.get b).present
  let c := s.crane
  let bank (b : BedId) : List BedReq := if keep b then c.bank.get b else []
  let inbox (b : BedId) : List Post := if keep b then c.inbox.get b else []
  setCrane s { c with
    bank := ⟨bank .b0, bank .b1, bank .b2, bank .b3⟩, inbox := ⟨inbox .b0, inbox .b1, inbox .b2, inbox .b3⟩,
    move := c.move.map (fun (m : Move) => match m.req with | .bed b _ _ => if keep b then m else { m with live := false } | .host _ => m) }
/-- Pending images after a successful commit: those of the previous table are discarded, a refused scan image stays as that of
its record (R16, R205). -/
def takeRefused (l : List RecId) : List RecId :=
  l.filterMap fun r => match r with | .plate _ => none | .scan i => some (.plate i) | r => some r
/-- The status records and logs written into the new control area (R205; log 34). -/
def firstRecords : List RecId := [.hall, .bed .b0, .bed .b1, .bed .b2, .bed .b3, .crane, .fault, .violations]
/-- An anchor goes into force (R205). A plate write-back still queued is composed from the new table (log 67). -/
def putInForce (s : State) (a : Anchor) (t : List Plate) : State :=
  let s := dropMoveRes (takeBeds (takeCraneCfg s a) a)
  let s := setLoader s { s.loader with inForce := some a }
  let s := setStock s { s.stock with table := t, reservedIds := [], waiters := [], slotRes := [], overRes := [],
                                     infeedRes := none, releases := [] }
  let s := setEngine s { s.engine with refused := takeRefused s.engine.refused }
  let s := setArb s (.empty (some a.permits))
  firstRecords.foldl pushControl (watchStart s)
/-- The end of a verification in one taking (R205, R206); with an anchor in force the hall status record is written after it
(R207). -/
def endVerification (s : State) (v : Verif) : State :=
  let s := match v.verdict, v.cand with
    | some d, some a => if d.code == 0 then putInForce s a v.table else s
    | _, _ => s
  let s := setLoader s { s.loader with ver := none, verdict := v.verdict.or s.loader.verdict }
  pushControl (if s.cmd.mode == .startUp then setMode s .halt .none else s) .hall
def verdictAnswer (s : State) (v : Verif) (a : Ack) : State :=
  let s := finishReq s
  let others := s.engine.refused.filter (· != .verdict)
  let s := if a == .refused then writeBackFlag (setEngine s { s.engine with refused := others ++ [.verdict] })
    else setEngine s { s.engine with refused := others }
  endVerification s v

/-! ## The commands -/

def anchorReadOf (s : State) : Option (Req × Nat × Verif) :=
  (engReq s).bind fun q => match q.what, s.loader.ver with
    | .anchorLine n, some v => some (q, n, v)
    | _, _ => none
def execAnchorReadAnswer (a : ReadAnswer) (s : State) : Host.Outcome State Fault Refusal :=
  match anchorReadOf s with
  | some (q, n, v) => taking s fun s =>
    match a with
    | .done d => anchorLine (finishReq s) v n d
    | .refused => failVerdict (finishReq s) v (vMEMORY, q.addr, 0)
  | none => idle s
def scanReadOf (s : State) : Option (Req × Nat × Bool × Verif × Anchor) :=
  (engReq s).bind fun q => match q.what, s.loader.ver with
    | .scanRead i k, some v => v.cand.map (fun a => (q, i, k, v, a))
    | _, _ => none
def execTableScanReadAnswer (a : ReadAnswer) (s : State) : Host.Outcome State Fault Refusal :=
  match scanReadOf s with
  | some (q, i, k, v, c) => taking s fun s =>
    match a with
    | .done d => scanLine (finishReq s) v c i k d
    | .refused => failVerdict (finishReq s) v (vMEMORY, q.addr, 0)
  | none => idle s
def execVerdictWriteAnswer (a : Ack) (s : State) : Host.Outcome State Fault Refusal :=
  match ((engReq s).filter (·.what == .writeBack .verdict)).bind (fun _ => s.loader.ver) with
  | some v => taking s fun s => verdictAnswer s v a
  | none => idle s

end Sys2Proof.Machine
end

