-- ==== Sys2Proof/Machine/Dispatch.lean ====
section
/-!
DEFINITION. Sys2Proof/Machine/Dispatch.lean: one arm per command.
-/
namespace Sys2Proof.Machine

def exec (i : Instr) (s : State) : Host.Outcome State Fault Refusal :=
  match i with
  | .hardReset as1 as0 => Sys2Proof.Machine.execHardReset as1 as0 s
  | .memoryReady => Sys2Proof.Machine.execMemoryReady s
  | .sspTransaction t => Sys2Proof.Machine.execSspTransaction t s
  | .hostClassify => Sys2Proof.Machine.execHostClassify s
  | .mspGrant => Sys2Proof.Machine.execMspGrant s
  | .hostWriteAnswer a => Sys2Proof.Machine.execHostWriteAnswer a s
  | .bracketClose a => Sys2Proof.Machine.execBracketClose a s
  | .bracketExpiry r => Sys2Proof.Machine.execBracketExpiry r s
  | .burnRingIssuedWrite => Sys2Proof.Machine.execBurnRingIssuedWrite s
  | .craneRingIssuedWrite => Sys2Proof.Machine.execCraneRingIssuedWrite s
  | .acknowledgeWrite => Sys2Proof.Machine.execAcknowledgeWrite s
  | .commit => Sys2Proof.Machine.execCommit s
  | .commandSlotReadRefused => Sys2Proof.Machine.execCommandSlotReadRefused s
  | .hallRun slot => Sys2Proof.Machine.execHallRun slot s
  | .hallHold slot => Sys2Proof.Machine.execHallHold slot s
  | .hallHalt slot => Sys2Proof.Machine.execHallHalt slot s
  | .hallReset slot => Sys2Proof.Machine.execHallReset slot s
  | .faultClear slot => Sys2Proof.Machine.execFaultClear slot s
  | .faultMask slot => Sys2Proof.Machine.execFaultMask slot s
  | .monitorTest slot => Sys2Proof.Machine.execMonitorTest slot s
  | .bedStart slot => Sys2Proof.Machine.execBedStart slot s
  | .bedStop slot => Sys2Proof.Machine.execBedStop slot s
  | .bedPause slot => Sys2Proof.Machine.execBedPause slot s
  | .bedResume slot => Sys2Proof.Machine.execBedResume slot s
  | .bedResumeWaive slot => Sys2Proof.Machine.execBedResumeWaive slot s
  | .bedResumeRemark slot => Sys2Proof.Machine.execBedResumeRemark slot s
  | .bedRelease slot => Sys2Proof.Machine.execBedRelease slot s
  | .bedRecover slot => Sys2Proof.Machine.execBedRecover slot s
  | .craneCancel slot => Sys2Proof.Machine.execCraneCancel slot s
  | .craneRecoverNone slot => Sys2Proof.Machine.execCraneRecoverNone slot s
  | .craneRecoverAtSource slot => Sys2Proof.Machine.execCraneRecoverAtSource slot s
  | .craneRecoverAtDestination slot => Sys2Proof.Machine.execCraneRecoverAtDestination slot s
  | .craneRecoverLost slot => Sys2Proof.Machine.execCraneRecoverLost slot s
  | .plateRegister slot => Sys2Proof.Machine.execPlateRegister slot s
  | .plateAmend slot => Sys2Proof.Machine.execPlateAmend slot s
  | .plateRetire slot => Sys2Proof.Machine.execPlateRetire slot s
  | .remnantFind slot => Sys2Proof.Machine.execRemnantFind slot s
  | .holdDrop slot => Sys2Proof.Machine.execHoldDrop slot s
  | .statsSnapshot slot => Sys2Proof.Machine.execStatsSnapshot slot s
  | .attentionMask slot => Sys2Proof.Machine.execAttentionMask slot s
  | .resultWriteAnswer a => Sys2Proof.Machine.execResultWriteAnswer a s
  | .writeBackAnswer a => Sys2Proof.Machine.execWriteBackAnswer a s
  | .takenWriteAnswer a => Sys2Proof.Machine.execTakenWriteAnswer a s
  | .bedElementReadAnswer a => Sys2Proof.Machine.execBedElementReadAnswer a s
  | .bedOwnershipReadAnswer a => Sys2Proof.Machine.execBedOwnershipReadAnswer a s
  | .markListReadAnswer a => Sys2Proof.Machine.execMarkListReadAnswer a s
  | .descriptorReadAnswer a => Sys2Proof.Machine.execDescriptorReadAnswer a s
  | .plateLookup b => Sys2Proof.Machine.execPlateLookup b s
  | .remnantIdReserve b => Sys2Proof.Machine.execRemnantIdReserve b s
  | .burnRequest b => Sys2Proof.Machine.execBurnRequest b s
  | .claimRelease => Sys2Proof.Machine.execClaimRelease s
  | .lockRequest b => Sys2Proof.Machine.execLockRequest b s
  | .checkReadAnswer a => Sys2Proof.Machine.execCheckReadAnswer a s
  | .streamFetchAnswer a => Sys2Proof.Machine.execStreamFetchAnswer a s
  | .permitRequest b => Sys2Proof.Machine.execPermitRequest b s
  | .permitGrant b => Sys2Proof.Machine.execPermitGrant b s
  | .tokenRequest b => Sys2Proof.Machine.execTokenRequest b s
  | .tokenOffer => Sys2Proof.Machine.execTokenOffer s
  | .readyReport b => Sys2Proof.Machine.execReadyReport b s
  | .gantryStepDone b seq => Sys2Proof.Machine.execGantryStepDone b seq s
  | .gantryPierceDone b => Sys2Proof.Machine.execGantryPierceDone b s
  | .gantryPierceFail b => Sys2Proof.Machine.execGantryPierceFail b s
  | .gantryArc b volts => Sys2Proof.Machine.execGantryArc b volts s
  | .gantryHold b => Sys2Proof.Machine.execGantryHold b s
  | .gantryGo b => Sys2Proof.Machine.execGantryGo b s
  | .gantryPaused b last => Sys2Proof.Machine.execGantryPaused b last s
  | .gantryStopped b => Sys2Proof.Machine.execGantryStopped b s
  | .gantryMarkDone b => Sys2Proof.Machine.execGantryMarkDone b s
  | .gantryMarkFail b => Sys2Proof.Machine.execGantryMarkFail b s
  | .gantryFault b cause => Sys2Proof.Machine.execGantryFault b cause s
  | .gantryAlive b => Sys2Proof.Machine.execGantryAlive b s
  | .bedLinkTimeout b => Sys2Proof.Machine.execBedLinkTimeout b s
  | .stopLimit b => Sys2Proof.Machine.execStopLimit b s
  | .pierceTimeout b => Sys2Proof.Machine.execPierceTimeout b s
  | .markReplyLimit b => Sys2Proof.Machine.execMarkReplyLimit b s
  | .heatNumberRequest b => Sys2Proof.Machine.execHeatNumberRequest b s
  | .remnantCreation b => Sys2Proof.Machine.execRemnantCreation b s
  | .craneRequestPost b => Sys2Proof.Machine.execCraneRequestPost b s
  | .craneRequestWithdraw b => Sys2Proof.Machine.execCraneRequestWithdraw b s
  | .bedReturnAnswer a => Sys2Proof.Machine.execBedReturnAnswer a s
  | .craneOwnershipReadAnswer a => Sys2Proof.Machine.execCraneOwnershipReadAnswer a s
  | .craneElementReadAnswer a => Sys2Proof.Machine.execCraneElementReadAnswer a s
  | .craneReturnAnswer a => Sys2Proof.Machine.execCraneReturnAnswer a s
  | .craneAccept id => Sys2Proof.Machine.execCraneAccept id s
  | .craneRefuse id => Sys2Proof.Machine.execCraneRefuse id s
  | .craneLifted id mass => Sys2Proof.Machine.execCraneLifted id mass s
  | .craneArrived id => Sys2Proof.Machine.execCraneArrived id s
  | .craneSet id => Sys2Proof.Machine.execCraneSet id s
  | .craneDropped id => Sys2Proof.Machine.execCraneDropped id s
  | .craneReturning id => Sys2Proof.Machine.execCraneReturning id s
  | .craneFault id cause => Sys2Proof.Machine.execCraneFault id cause s
  | .craneReady loaded => Sys2Proof.Machine.execCraneReady loaded s
  | .craneLinkTimeout => Sys2Proof.Machine.execCraneLinkTimeout s
  | .phaseLimit => Sys2Proof.Machine.execPhaseLimit s
  | .craneResetLimit => Sys2Proof.Machine.execCraneResetLimit s
  | .hostWatchExpiry => Sys2Proof.Machine.execHostWatchExpiry s
  | .holdExpiry n => Sys2Proof.Machine.execHoldExpiry n s
  | .anchorReadAnswer a => Sys2Proof.Machine.execAnchorReadAnswer a s
  | .tableScanReadAnswer a => Sys2Proof.Machine.execTableScanReadAnswer a s
  | .verdictWriteAnswer a => Sys2Proof.Machine.execVerdictWriteAnswer a s
  | .commandTrigger => Sys2Proof.Machine.execCommandTrigger s
  | .unknownCommand slot => Sys2Proof.Machine.execUnknownCommand slot s
  | .hostReadAnswer a => Sys2Proof.Machine.execHostReadAnswer a s

end Sys2Proof.Machine
end

