-- ==== Sys2Proof/Machine/Step.lean ====
section
/-!
DEFINITION. Sys2Proof/Machine/Step.lean: one step takes the command at the front of the queue; with none waiting the
hall clock advances by one millisecond (R216; log 2).
-/
namespace Sys2Proof.Machine

def step (s : State) : Host.Outcome State Fault Refusal :=
  match s.pending with
  | [] => .next (tick s)
  | c :: rest => exec c { s with pending := rest }

/-- `s` with the command that the word spells at the front of its queue; `s` where it spells none. -/
def State.withFetchWord (s : State) (nbits w : Nat) : State :=
  match decodeTableWord nbits w with
  | some c => { s with pending := c :: s.pending }
  | none => s

end Sys2Proof.Machine
end

