-- ==== Sys2Proof/Safety.lean ====
section
/-!
DEFINITION. Sys2Proof/Safety.lean: the words in which the statements about the machine are made: when a command stands to be
taken, what a result says, what the automatic acts of a taking leave alone, and the invariants.
-/
namespace Sys2Proof.Machine

/-! ## The state in which a command takes effect -/

/-- The owner of a command takes it with the slot read answered. -/
def slotRead (s : State) : State := finishReq (fresh s)
/-- A gantry message has restarted the link timer (R85). -/
def heard (s : State) (b : BedId) : State := setLink (fresh s) b { (bedOf s b).lk with since := s.clock }
/-- A crane message has restarted the link timer (R141). -/
def craneHeardAt (s : State) : State := craneHeard (fresh s)

/-- The read of the command slot is being answered for a command of this code and target, in a mode that takes commands
(R209, R210). -/
abbrev commandDue (s : State) (code target : Nat) : Prop :=
  slotReadFor s (· == code) = true ∧ cmdTarget s = target ∧ s.cmd.mode ≠ .halting ∧ s.cmd.mode ≠ .resetting
/-- The same for a command to bed `b`, present, with no parameter set outside `used` (R65). -/
abbrev bedCommandDue (s : State) (code : Nat) (b : BedId) (slot : Line) (used : List (Nat × Nat)) : Prop :=
  commandDue s code (bedNum b) ∧ present s b = true ∧ parZeroBut slot used = true
/-- The command in execution has been given this outcome and these details (R211). -/
def gives (u : State) (outcome : Byte) (d1 d2 d3 : Nat) : Prop :=
  ∃ waits always after, u.cmd.owed = some ⟨outcome, word d1, word d2, word d3, waits, always, after⟩
/-- The MSP has a request of the record engine in progress (R194). -/
abbrev engineHas (s : State) (q : Req) : Prop := engReq s = some q
/-- The MSP has the host forward `t` in progress (R181). -/
abbrev hostHas (s : State) (t : Transaction) : Prop := hostForward s = some t
/-- A live gantry message of a present bed in the given state (R85, R86). -/
abbrev bedHears (s : State) (b : BedId) (t : BedState) : Prop := isLive s b = true ∧ (runOf s b).state = t ∧ t ≠ .absent
/-- A crane message about the move in flight, outside a hall reset (R141, R142). -/
abbrev craneHears (s : State) (m : Move) (t : CraneState) : Prop :=
  s.crane.lk.live = true ∧ s.crane.move = some m ∧ s.crane.state = t ∧ s.crane.resetAt = none

/-- The commands of one row, with their codes. -/
def oneRowCommands (slot : Line) : List (Instr × Nat) :=
  [(.hallRun slot, 0x10), (.hallHold slot, 0x11), (.hallHalt slot, 0x12), (.hallReset slot, 0x13), (.faultClear slot, 0x14),
   (.faultMask slot, 0x15), (.monitorTest slot, 0x16), (.bedStart slot, 0x20), (.bedStop slot, 0x21), (.bedPause slot, 0x22),
   (.bedRelease slot, 0x24), (.bedRecover slot, 0x25), (.craneCancel slot, 0x30), (.plateRegister slot, 0x40),
   (.plateAmend slot, 0x41), (.plateRetire slot, 0x42), (.remnantFind slot, 0x43), (.holdDrop slot, 0x44),
   (.statsSnapshot slot, 0x50), (.attentionMask slot, 0x51)]

/-- The row that BED_RESUME has with the option of its slot (log 16). -/
def resumeRow (slot : Line) : Instr :=
  if par slot 0 1 = 1 then .bedResumeWaive slot else if par slot 0 1 = 2 then .bedResumeRemark slot else .bedResume slot
/-- The row that CRANE_RECOVER has with the outcome of its slot (log 16). -/
def recoverRow (slot : Line) : Instr :=
  if par slot 0 1 = 1 then .craneRecoverAtSource slot else if par slot 0 1 = 2 then .craneRecoverAtDestination slot
  else if par slot 0 1 = 3 then .craneRecoverLost slot else .craneRecoverNone slot
/-- The commands of several rows, with their codes. -/
def optionCommands (slot : Line) : List (Instr × Nat) := [(resumeRow slot, 0x23), (recoverRow slot, 0x31)]
/-- The four hall commands with their codes (R160). -/
def hallCommands (slot : Line) : List (Instr × Nat) :=
  [(.hallRun slot, 0x10), (.hallHold slot, 0x11), (.hallHalt slot, 0x12), (.hallReset slot, 0x13)]
/-- The commands whose target must say none, with their codes (R17, R148, R152, R160, R178, R179, R214, R215). -/
def untargetedCommands (slot : Line) : List (Instr × Nat) :=
  hallCommands slot ++
  [(.faultClear slot, 0x14), (.faultMask slot, 0x15), (.craneCancel slot, 0x30), (recoverRow slot, 0x31), (.plateRegister slot, 0x40),
   (.plateAmend slot, 0x41), (.plateRetire slot, 0x42), (.remnantFind slot, 0x43), (.holdDrop slot, 0x44), (.statsSnapshot slot, 0x50),
   (.attentionMask slot, 0x51)]
/-- The commands to a bed with their codes and the parameters they use (R65, R95, R96, R127). -/
def bedCommands (slot : Line) : List (Instr × Nat × List (Nat × Nat)) :=
  [(.bedStart slot, 0x20, []), (.bedStop slot, 0x21, []), (.bedPause slot, 0x22, []), (.bedRelease slot, 0x24, []),
   (.bedRecover slot, 0x25, []), (.monitorTest slot, 0x16, [(0, 1)]),
   (resumeRow slot, 0x23, [(0, 1)])]
/-- The parameters of a PLATE_AMEND are valid (R19, R217; log 53). -/
abbrev amendValid (s : State) (q : Line) : Prop :=
  1 ≤ par q 2 1 ∧ par q 2 1 ≤ 15 ∧ par q 3 1 ≤ 5 ∧
  (bit (par q 2 1) 0 = true → 1 ≤ par q 5 1 ∧ par q 5 1 ≤ 12 ∧ heatField (par q 0x14 12) (par q 5 1) = true) ∧
  (bit (par q 2 1) 1 = true → gradeOk (par q 0xC 8) = true) ∧
  (bit (par q 2 1) 2 = true → 1 ≤ par q 8 4 ∧ par q 8 4 ≤ 1000000) ∧
  (bit (par q 2 1) 3 = true →
    par q 3 1 = 1 ∨ par q 3 1 = 5 ∨ (par q 3 1 = 4 ∧ par q 4 1 < 64 ∧ par q 4 1 < rackSlots s))
/-- The number of the first parameter of a list that is not valid (R17). -/
def firstInvalid : List (Nat × Bool) → Option Nat
  | [] => none
  | (k, valid) :: l => if valid then firstInvalid l else some k
/-- The parameters of PLATE_REGISTER, each with its number in the command's row of Table 12-7 and its validity (R2, R17, R18), and
with number 0 the bytes that must be 0 (the model's choice, log 17); heat numbers end in bytes of 0 (log 29). -/
def registerParams (q : Line) : List (Nat × Bool) :=
  [(1, 1 ≤ par q 0 2), (2, 30 ≤ par q 2 2 ∧ par q 2 2 ≤ 1500), (3, 1 ≤ par q 4 2 ∧ par q 4 2 ≤ 24000),
   (4, 1 ≤ par q 6 2 ∧ par q 6 2 ≤ 4000), (5, 1 ≤ par q 8 4 ∧ par q 8 4 ≤ 1000000), (7, par q 0xE 1 ≤ 12),
   (8, gradeOk (par q 0x10 8)), (9, heatField (par q 0x18 12) (par q 0xE 1)), (0, parZeroBut q [(0, 0xF), (0x10, 0x14)])]
/-- Those of PLATE_AMEND (R19): a value is judged where its change is selected, the place kind in any case (log 53); a slot of 64 or
more with the parameters, one beyond the slots configured after them (log 17). -/
def amendParams (s : State) (q : Line) : List (Nat × Bool) :=
  let heat := bit (par q 2 1) 0 = true
  let grade := bit (par q 2 1) 1 = true
  let mass := bit (par q 2 1) 2 = true
  let place := bit (par q 2 1) 3 = true
  [(2, 1 ≤ par q 2 1 ∧ par q 2 1 ≤ 15), (3, par q 3 1 ≤ 5 ∧ (place → par q 3 1 = 1 ∨ par q 3 1 = 4 ∨ par q 3 1 = 5)),
   (4, place ∧ par q 3 1 = 4 → par q 4 1 < 64), (5, heat → 1 ≤ par q 5 1 ∧ par q 5 1 ≤ 12),
   (6, mass → 1 ≤ par q 8 4 ∧ par q 8 4 ≤ 1000000), (7, grade → gradeOk (par q 0xC 8) = true),
   (8, heat → heatField (par q 0x14 12) (par q 5 1) = true), (4, place ∧ par q 3 1 = 4 → par q 4 1 < rackSlots s),
   (0, parZeroBut q [(0, 6), (8, 0x18)])]
/-- Those of REMNANT_FIND (R21; log 17). -/
def findParams (q : Line) : List (Nat × Bool) :=
  [(1, 30 ≤ par q 0 2 ∧ par q 0 2 ≤ 1500), (2, 1 ≤ par q 2 2 ∧ par q 2 2 ≤ 24000),
   (3, 1 ≤ par q 4 2 ∧ par q 4 2 ≤ 4000), (4, gradeOk (par q 8 8)), (0, parZeroBut q [(0, 6), (8, 8)])]
/-- The answer of the MSP brings about what a deferred act says (R12, R16, R176, R211): a result is queued with the next number, a
cause joins the pending attention set. -/
def actDone (s u : State) : Act → Prop
  | .result c t g o d1 d2 d3 => u.cmd.resultNo = s.cmd.resultNo + 1 ∧ ∃ r ∈ u.engine.queue, r.what = .result ∧
      r.addr = param s (·.control) 0 + 0x80 ∧ r.data = resultLine (s.cmd.resultNo + 1) c t g o d1 d2 d3 ∧ r.enables = enable 0 64
  | .cause i => i < 8 → hasBit u.faults.pending i = true
  | .ownerRead b => (runOf s b).state = .waiting → (runOf s b).ret = none →
      ∃ r ∈ u.engine.queue, r.what = .bedOwner b ∧ r.addr = ringAddr s b
/-- What still waits once the answer of the request with this ticket has come (R16, R211). -/
def waitsLeft (l : List Deferred) (ticket : Nat) : List Deferred :=
  (l.map fun d => ({ d with waits := d.waits.filter (· != ticket) } : Deferred)).filter (fun d => !d.waits.isEmpty)
/-- The return write of the crane order `o` is the last request queued: outcome, final location and measured mass (R133, R136). -/
def craneReturned (u : State) (o : StockOrder) (outcome : Nat) (l : Loc) (mass : Nat) : Prop :=
  (u.engine.queue.getLast?.map fun x => (x.what, x.addr, fld x.data.toNat 0x14 1, fld x.data.toNat 0x15 1, fld x.data.toNat 0x16 1,
    fld x.data.toNat 0x18 4)) = some (.craneReturn o.idx, o.addr, outcome, l.num.1, l.num.2 % 256, mass % 2 ^ 32)
/-- The taken crane order `o` is returned with this outcome and final location (R134, R136). -/
def returnsOrder (u : State) (o : StockOrder) (r : Raw) (outcome : Nat) (l : Loc) : Prop :=
  u.crane.stock = [{ o with order := r, stage := .returning }] ∧ craneReturned u o outcome l 0
/-- The order `o` held by a failed move is returned FAULT_ABORT with this final location and the mass reported (R133, R153). -/
def returnsHeld (u : State) (o : StockOrder) (l : Loc) (mass : Nat) : Prop :=
  u.crane.stock = [{ o with stage := .returning }] ∧ craneReturned u o cFAULT_ABORT l mass
/-- The place of a failed move's piece may be taken in the state `s`: under the move's own reservation, or as one available without
(R33). -/
abbrev mayPlace (s : State) (m : Move) (l : Loc) : Prop := (m.reserves = true ∧ hasRes s m.req l = true) ∨ available s l = true
/-- Where a piece set down at a place lies (R5): the infeed stacks it. -/
def placedLoc (s : State) : Loc → Loc
  | .infeed _ => .infeed (locatedInfeed s + 1)
  | l => l
/-- Record `i` of the state `s` with its piece set down at a place (R14, R33): the scrap bay frees it. -/
def placedPlate (s : State) (i : Nat) (l : Loc) : Plate :=
  if l = .scrap then .blank else { plateAt s i with loc := placedLoc s l }
/-- The taken crane order `o` is accepted for record `j` and this destination, with its LIFT claim and no reservation but those
given (R10, R134). -/
def acceptsOrder (s u : State) (o : StockOrder) (r : Raw) (j : Nat) (l : Loc) (slots : List SlotRes) (bay : List OverRes) : Prop :=
  u.stock = { s.stock with table := s.stock.table.set j { plateAt s j with claim := .lift o.idx },
                           slotRes := s.stock.slotRes ++ slots, overRes := s.stock.overRes ++ bay } ∧
  u.crane.stock = [{ o with order := r, ix := j, dest := l, stage := .queued }]
/-- The verdict that a verification is writing: its code and details (R205 to R207). -/
def verdictOf (u : State) : Option (Nat × Word × Word) :=
  u.loader.ver.bind fun v => v.verdict.map fun x => (x.code, x.d1, x.d2)

/-- What R203 marks changed of a record read as the lines `l` and `d`: an EMPTY one that its zeroing changes, any other that a fix-up
changes, by its claim, holder and hold expiry or by making it LOST. -/
abbrev marksChanged (l d : Line) (lost : Bool) : Prop :=
  (fld l.toNat 0 1 = 0 ∧ (l ≠ 0 ∨ d ≠ 0)) ∨
    (fld l.toNat 0 1 ≠ 0 ∧ (lost = true ∨ fld l.toNat 4 1 ≠ 0 ∨ fld l.toNat 6 2 ≠ 0 ∨ fld l.toNat 0x18 4 ≠ 0))
/-- The order `h` of bed `b` has been returned with this outcome and code: its return write is the last request queued
(R44, R46, R57). -/
def returnsWith (u : State) (b : BedId) (h : Hand) (outcome code : Nat) : Prop :=
  (runOf u b).hand = none ∧ (u.engine.queue.getLast?.map fun r =>
    (r.what, r.addr, fld r.data.toNat 0 4, fld r.data.toNat 0x20 1, fld r.data.toNat 0x21 1)) =
      some (.bedReturn b, h.addr, RETURNED, outcome, code)
/-- The step position in the return write queued last (R44, R46). -/
def returnPlace (u : State) : Option (Nat × Nat) :=
  u.engine.queue.getLast?.map fun r => (fld r.data.toNat 0x24 2, fld r.data.toNat 0x26 1)
/-- Bed `b`'s part of a hall reset has ended with STOPPING (R64, R70): STOPPED, no order in hand, its crane requests discarded, and the
order it held returned with this outcome. -/
def endsBedReset (s u : State) (b : BedId) (how : ResetEnd) (outcome : Nat) : Prop :=
  (runOf u b).state = .stopped ∧ (runOf u b).pause = 0 ∧ (runOf u b).hand = none ∧ (runOf u b).resetEnd = some how ∧
  u.crane.bank.get b = [] ∧ u.crane.inbox.get b = [] ∧ (bedOf u b).ring = (bedOf s b).ring ∧
  u.cmd.resetStopped = s.cmd.resetStopped + (if how = .stopped then 1 else 0) ∧
  u.cmd.resetOther = s.cmd.resetOther + (if how = .other then 1 else 0) ∧
  ∀ h, (runOf s b).hand = some h → returnsWith u b h outcome 0
/-- The order is REJECTED by the check of this number (R48). -/
def rejects (u : State) (b : BedId) (h : Hand) (check : Nat) : Prop :=
  (runOf u b).state = .waiting ∧ returnsWith u b h 1 check
/-- Bed `b` is FAULTED with a detail flag set and no order in hand (R63). -/
def faulted (u : State) (b : BedId) (flag : Nat) : Prop :=
  (runOf u b).state = .faulted ∧ (runOf u b).hand = none ∧ hasBit (u.faults.beds.get b).flags flag = true
/-- The record that an order's lookup named (R49). -/
def lookIx (h : Hand) : Nat := (h.look.map (·.ix)).getD 0
/-- The record of a remnant created at bed `b` from the plate `p` and the descriptor `d` (R35). -/
def remnantRecord (s : State) (b : BedId) (p : Plate) (d : Line) : Plate :=
  { st := .stock, remnant := true, loc := .bed b, claim := .none, suspect := false, id := descId d, parent := p.id,
    thickness := p.thickness, length := descLength d, width := descWidth d, heatLen := p.heatLen, heat := p.heat,
    outline := descVertices d, mass := descMass d, regTime := s.clock, grade := p.grade }
/-- Every message of a gantry but ALIVE (R86). -/
def gantryMessages (b : BedId) (n volts cause : Byte) : List Instr :=
  [.gantryStepDone b n, .gantryPierceDone b, .gantryPierceFail b, .gantryArc b volts, .gantryHold b, .gantryGo b,
   .gantryPaused b n, .gantryStopped b, .gantryMarkDone b, .gantryMarkFail b, .gantryFault b cause]
/-- Every message of the crane but READY (R142). -/
def craneMessages (id : Byte) (mass : Word) (cause : CraneCause) : List Instr :=
  [.craneAccept id, .craneRefuse id, .craneLifted id mass, .craneArrived id, .craneSet id, .craneDropped id, .craneReturning id,
   .craneFault id cause]

/-! ## What the record engine sends -/

/-- The MSP is granted to the record engine for the request `r`, with `outs` answered before: the first line of the record's image in
the state `s` at its place with the later lines kept, or the request's one transaction (R16, R182, R194, R195; log 9). -/
def grantsEngine (s u : State) (r : Req) (outs : List Output) : Prop :=
  u.path.msp = some .engine ∧
  match r.what with
  | .writeBack w =>
    u.out = outs ++ [.msp (writeOf (recAddr s w) 8 wholeLine ((recLines s w).headD 0))] ∧
    u.engine.cur = some ⟨r, (recLines s w).tail, recAddr s w + 64, false⟩
  | _ => u.out = outs ++ [.msp (reqTransaction r)] ∧ u.engine.cur = some ⟨r, [], 0, false⟩

/-! ## Record images, field by field (chapter 12) -/

/-- The bytes of consecutive lines as one number, the first line lowest. -/
def recordNat (ls : List Line) : Nat := ls.foldr (fun l x => l.toNat + 2 ^ 512 * x) 0
/-- `ls` are `n` lines that hold each field listed, an offset, a size and a value, and 0 in every other byte (R217, R218). -/
def composedOf (ls : List Line) (n : Nat) (fs : List (Nat × Nat × Nat)) : Prop :=
  ls.length = n ∧ (∀ f ∈ fs, fld (recordNat ls) f.1 f.2.1 = f.2.2 % 2 ^ (8 * f.2.1)) ∧
  ∀ k, (∀ f ∈ fs, k < f.1 ∨ f.1 + f.2.1 ≤ k) → fld (recordNat ls) k 1 = 0
/-- Plate record (Table 12-10). -/
def plateFields (p : Plate) : List (Nat × Nat × Nat) :=
  [(0, 1, p.st.num), (1, 1, p.remnant.toNat), (2, 1, p.loc.num.1), (3, 1, p.loc.num.2), (4, 1, p.claim.num), (5, 1, p.suspect.toNat),
   (6, 2, p.claim.holder), (8, 2, p.id), (0xA, 2, p.parent), (0xC, 2, p.thickness), (0xE, 2, p.length), (0x10, 2, p.width),
   (0x12, 1, p.heatLen), (0x13, 1, p.outline.length), (0x14, 4, p.mass), (0x18, 4, p.claim.expiry), (0x1C, 4, p.regTime.toNat),
   (0x20, 8, p.grade.toNat), (0x28, 12, p.heat.toNat)] ++
  (p.outline.take 12).zipIdx.flatMap fun v => [(0x40 + 4 * v.2, 2, v.1.1), (0x42 + 4 * v.2, 2, v.1.2)]
/-- Bed status record: the fields of R47, R97, R110 and R122 in that order, packed as R218 says. -/
def bedFields (s : State) (b : BedId) : List (Nat × Nat × Nat) :=
  let r := runOf s b
  let t := r.stream
  let m := r.marks
  let h := r.hand
  let stop := t.form.getD ⟨0, 0, 0⟩
  let mark := if m.begun then m.table[m.cursor]? else none
  [(0, 1, r.state.num), (1, 1, waitCause s b), (2, 1, (zoneOf s b).num), (3, 1, (bedOf s b).ring.pos),
   (4, 1, (h.map (·.idx)).getD 0), (8, 4, (h.map fun h => ordTag h.order).getD 0), (0xC, 2, (h.map fun h => ordPlate h.order).getD 0),
   (0xE, 1, (isLive s b).toNat), (0xF, 1, r.pause.toNat), (0x10, 1, ((h.map (fullCheck s b)).getD false).toNat),
   (0x11, 2, t.cursor.place.1), (0x14, 4, t.cursor.place.2), (0x18, 4, t.steps.toNat), (0x1C, 2, t.window.length),
   (0x1E, 2, t.resend.length), (0x20, 1, streamWait s b), (0x21, 1, (bedOf s b).lk.hold.toNat), (0x22, 1, t.pausing.toNat),
   (0x23, 1, t.form.isSome.toNat), (0x24, 2, stop.idx), (0x28, 4, stop.rep), (0x2C, 1, stop.code), (0x2D, 1, t.exArc.toNat),
   (0x2E, 1, if r.state = .paused then (if t.fromMarking then 6 else 7) else 0),
   (0x2F, 1, (decide (r.state = .paused) && t.arcAtPause).toNat), (0x30, 1, (bedOf s b).lk.lastFault.toNat),
   (0x31, 2, m.cursor), (0x33, 2, markCount m .pending), (0x35, 2, markCount m .sent), (0x37, 2, markCount m .done),
   (0x39, 2, markCount m .failed), (0x3B, 2, markCount m .waived), (0x3D, 2, if mark.isSome then m.cursor else 0),
   (0x3F, 2, (mark.map (·.attempts)).getD 0), (0x41, 1, (mark.map (·.cause.num)).getD 0), (0x42, 1, m.pass.isSome.toNat),
   (0x43, 2, (m.table.filter (·.unmarked)).length), (0x45, 2, (m.formFail.map (·.1)).getD 0), (0x47, 1, (m.formFail.map (·.2)).getD 0),
   (0x48, 1, r.permit.toNat), (0x49, 1, (decide (s.arb.token = some b)).toNat), (0x4A, 1, r.pierce.isSome.toNat)]
/-- The bed at a place of a list of beds, H'FF behind its end (R218). -/
def bedAt (l : List BedId) (k : Nat) : Nat := (l[k]?.map bedNum).getD 0xFF
/-- A set of beds as one byte (R217). -/
def bedBits (l : List BedId) : Nat := (bedIds.map fun b => if l.contains b then 2 ^ bedNum b else 0).sum
/-- The free slots of the class that begins behind `before` slots and has `count` (R39). -/
def freeOf (s : State) (before count : Anchor → Nat) : Nat :=
  param s (fun c => (freeSlots s (before c) (count c)).length) 0
/-- Hall status record: the fields of R172, R39, R122, the commit number and verdict code, and those of R212. -/
def hallFields (s : State) : List (Nat × Nat × Nat) :=
  [(0, 1, s.cmd.mode.num), (1, 1, s.cmd.origin.num), (2, 1, bedBits s.cmd.torch),
   (3, 1, bedBits (bedIds.filter fun b =>
     decide (s.cmd.mode = .halting) && !bedIdle s b || decide (s.cmd.mode = .resetting) && !bedReset s b)),
   (4, 1, (decide (s.cmd.mode = .halting) && !craneIdle s || decide (s.cmd.mode = .resetting) && !s.crane.resetEnded).toNat),
   (5, 1, hallCommand s), (6, 1, param s (·.watch) 0),
   (7, 2, freeOf s (fun _ => 0) (·.classS.count)), (9, 2, freeOf s (·.classS.count) (·.classM.count)),
   (0xB, 2, freeOf s (fun c => c.classS.count + c.classM.count) (·.classL.count)), (0xD, 2, overflowUsed s),
   (0xF, 2, s.arb.pool.getD 0), (0x11, 2, freePermits s.arb), (0x13, 1, bedBits s.arb.holders),
   (0x14, 1, bedAt s.arb.waits 0), (0x15, 1, bedAt s.arb.waits 1), (0x16, 1, bedAt s.arb.waits 2), (0x17, 1, bedAt s.arb.waits 3),
   (0x18, 1, (s.arb.token.map bedNum).getD 0xFF),
   (0x19, 1, bedAt s.arb.tokenWaits 0), (0x1A, 1, bedAt s.arb.tokenWaits 1), (0x1B, 1, bedAt s.arb.tokenWaits 2),
   (0x1C, 1, bedAt s.arb.tokenWaits 3), (0x20, 4, s.loader.commitNo.toNat), (0x24, 1, (s.loader.verdict.map (·.code)).getD 0),
   (0x25, 1, s.faults.pending.toNat), (0x26, 1, s.faults.mask.toNat)]
/-- The kind of the request at a place of a bed's list in the BED bank, H'FF behind its end (R218). -/
def kindAt (s : State) (b : BedId) (k : Nat) : Nat := ((s.crane.bank.get b)[k]?.map (·.kind.num)).getD 0xFF
/-- Who asked for the move in flight or failed: the element of a host order, or a bed; H'FF without a move (R156; log 14). -/
def moveRequester (s : State) : Nat :=
  match s.crane.move with
  | none => 0xFF
  | some m =>
    match m.req with
    | .host i => i
    | .bed b _ _ => bedNum b
/-- Crane status record: the fields of R156, 0 for those of a move without one (logs 14, 85). -/
def craneFields (s : State) : List (Nat × Nat × Nat) :=
  let c := s.crane
  let m := c.move
  let src := ((m.map Move.src).getD Loc.none).num
  let dst := ((m.map Move.dst).getD Loc.none).num
  let heavy := firstOverweight s
  [(0, 1, c.state.num), (1, 1, c.lk.live.toNat), (2, 1, c.lk.load.num), (4, 4, (m.map (·.id.toNat)).getD 0),
   (8, 1, (m.map (·.kind.num)).getD 0), (9, 1, moveRequester s), (0xA, 2, (m.map (·.plate)).getD 0),
   (0xC, 1, src.1), (0xD, 1, src.2), (0xE, 1, dst.1), (0xF, 1, dst.2), (0x10, 4, (m.map fun m => m.expected.getD 0).getD 0),
   (0x14, 4, (m.map measuredOf).getD 0), (0x18, 1, (m.map (·.abort.toNat)).getD 0), (0x19, 1, (m.map (·.turned.toNat)).getD 0),
   (0x1A, 2, c.refusals), (0x1C, 1, c.lastFault.toNat), (0x1D, 1, (heavy.map (bedNum ·.1)).getD 0xFF),
   (0x1E, 1, (heavy.map (·.2.num)).getD 0), (0x1F, 2, c.stock.length),
   (0x21, 1, kindAt s .b0 0), (0x22, 1, kindAt s .b0 1), (0x23, 1, kindAt s .b1 0), (0x24, 1, kindAt s .b1 1),
   (0x25, 1, kindAt s .b2 0), (0x26, 1, kindAt s .b2 1), (0x27, 1, kindAt s .b3 0), (0x28, 1, kindAt s .b3 1),
   (0x29, 1, c.ringPos), (0x2A, 1, bedNum c.lastServed)]
/-- Fault record: groups 0 to 5, four bytes each (R177, R218). -/
def faultFields (s : State) : List (Nat × Nat × Nat) :=
  [(0, Group.bed .b0), (4, .bed .b1), (8, .bed .b2), (0xC, .bed .b3), (0x10, .crane), (0x14, .hall)].flatMap fun g =>
    [(g.1, 1, (s.faults.get g.2).flags.toNat), (g.1 + 1, 1, (s.faults.get g.2).masks.toNat),
     (g.1 + 2, 1, (s.faults.get g.2).comb.toNat), (g.1 + 3, 1, (persisting s g.2).toNat)]
/-- Violation log: its total, the number held, and 12 bytes for each record held (R188, R218). -/
def violationFields (p : Path) : List (Nat × Nat × Nat) :=
  (0, 4, p.logTotal.toNat) :: (4, 1, p.log.length) ::
    p.log.zipIdx.flatMap fun v =>
      [(8 + 12 * v.2, 4, v.1.addr.toNat), (12 + 12 * v.2, 1, v.1.cause.num), (16 + 12 * v.2, 4, v.1.time.toNat)]
/-- Verdict record (Table 12-4). -/
def verdictFields (v : Verdict) : List (Nat × Nat × Nat) :=
  [(0, 1, v.code), (1, 1, v.kept.toNat), (2, 2, v.lost), (4, 4, v.d1.toNat), (8, 4, v.d2.toNat), (0xC, 4, v.no.toNat),
   (0x10, 4, v.val.toNat), (0x14, 4, v.time.toNat)]

/-! ## Which commands change what -/

/-- Messages and timers of beds and crane, requests inside the part, watches: nothing of the memory path or the loader. -/
def insideCommand : Instr → Bool
  | .plateLookup _ | .remnantIdReserve _ | .burnRequest _ | .claimRelease | .lockRequest _ | .permitRequest _ | .permitGrant _
  | .tokenRequest _ | .tokenOffer | .readyReport _ | .gantryStepDone _ _ | .gantryPierceDone _ | .gantryPierceFail _
  | .gantryArc _ _ | .gantryHold _ | .gantryGo _ | .gantryPaused _ _ | .gantryStopped _ | .gantryMarkDone _ | .gantryMarkFail _
  | .gantryFault _ _ | .gantryAlive _ | .bedLinkTimeout _ | .stopLimit _ | .pierceTimeout _ | .markReplyLimit _
  | .heatNumberRequest _ | .remnantCreation _ | .craneRequestPost _ | .craneRequestWithdraw _ | .craneAccept _ | .craneRefuse _
  | .craneLifted _ _ | .craneArrived _ | .craneSet _ | .craneDropped _ | .craneReturning _ | .craneFault _ _ | .craneReady _
  | .craneLinkTimeout | .phaseLimit | .craneResetLimit | .hostWatchExpiry | .holdExpiry _ => true
  | _ => false
/-- Commands that may change plate records. -/
def tableCommand : Instr → Bool
  | .hardReset _ _ | .hallReset _ | .plateRegister _ | .plateAmend _ | .plateRetire _ | .remnantFind _ | .holdDrop _
  | .craneRecoverAtSource _ | .craneRecoverAtDestination _ | .craneRecoverLost _ | .burnRequest _ | .claimRelease | .tokenOffer
  | .remnantCreation _ | .craneLifted _ _ | .craneSet _ | .craneReturning _ | .craneFault _ _ | .craneElementReadAnswer _
  | .holdExpiry _ | .verdictWriteAnswer _ => true
  | _ => false
/-- Commands that may change the pending attention causes. -/
def attentionCommand : Instr → Bool
  | .hardReset _ _ | .acknowledgeWrite | .resultWriteAnswer _ | .writeBackAnswer _ | .bedReturnAnswer _ | .craneReturnAnswer _ =>
    true
  | _ => false
/-- Commands that may change the state of the crane link. -/
def craneLinkCommand : Instr → Bool
  | .hardReset _ _ | .craneAccept _ | .craneRefuse _ | .craneLifted _ _ | .craneArrived _ | .craneSet _ | .craneDropped _
  | .craneReturning _ | .craneFault _ _ | .craneReady _ | .craneLinkTimeout => true
  | _ => false

/-! ## What a taking's automatic acts leave alone -/

structure BedKept where
  lk : BedLink
  ring : Ring
deriving DecidableEq, Repr
def bedKept (b : Bed) : BedKept := ⟨b.lk, b.ring⟩
structure StockKept where
  table : List Plate
  tokenCtr : BitVec 16
  slotRes : List SlotRes
  overRes : List OverRes
  counters : List Word
deriving DecidableEq, Repr
def stockKept (k : Stock) : StockKept :=
  ⟨k.table, k.tokenCtr, k.slotRes, k.overRes, [k.created, k.toRack, k.toOverflow, k.scrapped, k.unregistered]⟩
structure CraneKept where
  lk : CraneLink
  ringPos : Nat
  refusals : Nat
  lastFault : Byte
  loadedStands : Bool
  resetAt : Option Word
  counters : List Word
deriving DecidableEq, Repr
def craneKept (c : Crane) : CraneKept :=
  ⟨c.lk, c.ringPos, c.refusals, c.lastFault, c.loadedStands, c.resetAt,
   [c.taken, c.returned, c.raised, c.moved, c.cancelled, c.faulted, c.mismatched]⟩
/-- The fields that only commands change, never what follows them by itself in their taking (log 8). -/
structure Quiet where
  clock : Word
  pending : List Instr
  path : Path
  loader : Loader
  groups : PerBed FaultGroup × FaultGroup × FaultGroup
  attention : Byte × Byte
  beds : PerBed BedKept
  stock : StockKept
  crane : CraneKept
deriving DecidableEq, Repr
def quiet (s : State) : Quiet :=
  { clock := s.clock, pending := s.pending, path := s.path, loader := s.loader,
    groups := (s.faults.beds, s.faults.crane, s.faults.hall), attention := (s.faults.pending, s.faults.mask),
    beds := ⟨bedKept s.beds.b0, bedKept s.beds.b1, bedKept s.beds.b2, bedKept s.beds.b3⟩,
    stock := stockKept s.stock, crane := craneKept s.crane }

/-! ## Invariants -/

/-- The queues of the memory path keep their sizes (R181, R188, R191). -/
def PathBounds (s : State) : Prop :=
  s.path.ssp.length ≤ Config.sspQueue ∧ s.path.brackets.length ≤ Config.brackets ∧ s.path.log.length ≤ Config.violationLog
/-- The lock table holds up to 6 entries, none without an owner (R52). -/
def LocksOk (s : State) : Prop :=
  s.locks.entries.length ≤ Config.lockEntries ∧ ∀ e ∈ s.locks.entries, e.owners ≠ []
/-- No more permits are held than there are (R112). -/
def PermitsOk (s : State) : Prop := s.arb.holders.length ≤ s.arb.pool.getD 0
/-- The STOCK bank holds up to 8 orders with aging counts up to 15 (R129). -/
def StockBankOk (s : State) : Prop :=
  s.crane.stock.length ≤ Config.stockBank ∧ ∀ o ∈ s.crane.stock, o.age ≤ Config.agingMax
/-- No hold token is 0 and no move ID is 0 (R12, R140). -/
def CountersOk (s : State) : Prop := s.stock.tokenCtr ≠ 0 ∧ s.crane.nextId ≠ 0

end Sys2Proof.Machine
end

