-- ==== Sys2Proof/Certificates/Slice0/Obligations.lean ====
section
/-!
DEFINITION. Sys2Proof/Certificates/Slice0/Obligations.lean: the statements for the provers. Most say of a command: under
conditions on the state and the operands it answers a next state, which is the state `u` after its own effect with what
follows by itself in the taking (`settle s u`); `Obligations.TakingKeeps` says what that leaves alone.
-/

open Sys2Proof Sys2Proof.Machine

/-! ## The machine as a whole -/

/-- A step takes the command at the front of the queue. With no command waiting one millisecond passes (the model's choice, log
2). -/
def Obligations.StepTakesFront : Prop :=
  (∀ (c : Instr) (rest : List Instr) (s : State), step { s with pending := c :: rest } = exec c { s with pending := rest }) ∧
  (∀ s : State, s.pending = [] → step s = .next { s with clock := s.clock + 1, out := [] })

/-- What hard reset leaves, as R23, R37, R71, R128, R157, R180, R188, R197, R200, R211 to R216 give it, every counter of R215 0; the
straps low (log 1). The invariants hold there. -/
def Obligations.ResetValues : Prop :=
  let s := State.reset
  s.cmd.mode = .startUp ∧ s.cmd.current = none ∧ s.cmd.resultNo = 0 ∧ s.cmd.snapNo = 0 ∧ s.clock = 0 ∧ s.pending = [] ∧
  s.loader.base = 0 ∧ s.loader.inForce = none ∧ s.loader.verdict = none ∧ s.loader.commitNo = 0 ∧ s.loader.commitVal = 0 ∧
  s.path.ssp = [] ∧ s.path.fwd = none ∧ s.path.brackets = [] ∧ s.path.log = [] ∧ s.path.logTotal = 0 ∧
  s.path.lastUrgent = .b3 ∧ s.path.lastFetch = .b3 ∧ s.path.lastSide = .engine ∧ s.engine.queue = [] ∧
  s.stock.table = [] ∧ s.stock.reservedIds = [] ∧ s.stock.tokenCtr = 1 ∧ s.stock.slotRes = [] ∧ s.stock.overRes = [] ∧
  s.locks.entries = [] ∧ s.locks.waits = [] ∧ s.arb.pool = none ∧ s.arb.holders = [] ∧ s.arb.waits = [] ∧ s.arb.token = none ∧
  s.arb.tokenWaits = [] ∧ s.faults.pending = 0 ∧ s.faults.mask = 0 ∧ s.faults.watch = none ∧
  (∀ b : BedId, (runOf s b).state = .stopped ∧ isLive s b = false ∧ (bedOf s b).lk.hold = false ∧ (bedOf s b).ring = ⟨0, 0, 0, 0⟩ ∧
    (runOf s b).hand = none ∧ (runOf s b).pause = 0 ∧ (runOf s b).stream = .empty ∧ (runOf s b).marks = .empty ∧
    (runOf s b).permit = false ∧ (runOf s b).arc = ⟨0, 0⟩ ∧ zoneOf s b = .free ∧ s.faults.beds.get b = ⟨0, 0, false⟩) ∧
  s.faults.crane = ⟨0, 0, false⟩ ∧ s.faults.hall = ⟨0, 0, false⟩ ∧
  s.crane.state = .idle ∧ s.crane.lk.live = false ∧ s.crane.lk.load = .unknown ∧ s.crane.move = none ∧ s.crane.stock = [] ∧
  s.crane.ringPos = 0 ∧ s.crane.nextId = 1 ∧ s.crane.lastServed = .b3 ∧ s.crane.refusals = 0 ∧
  s.path.retries = 0 ∧ s.path.expired = 0 ∧ s.path.violElement = 0 ∧ s.path.violRange = 0 ∧ s.path.violTable = 0 ∧
  s.path.violArea = 0 ∧ s.path.violAnchor = 0 ∧ s.stock.created = 0 ∧ s.stock.toRack = 0 ∧ s.stock.toOverflow = 0 ∧
  s.stock.scrapped = 0 ∧ s.stock.unregistered = 0 ∧ s.crane.taken = 0 ∧ s.crane.returned = 0 ∧ s.crane.raised = 0 ∧
  s.crane.moved = 0 ∧ s.crane.cancelled = 0 ∧ s.crane.faulted = 0 ∧ s.crane.mismatched = 0 ∧
  counters s = List.replicate 31 0 ∧ PathBounds s ∧ LocksOk s ∧ PermitsOk s ∧ StockBankOk s ∧ CountersOk s

/-- HARD_RESET samples the straps; until memory-ready first rises the MSP grants nothing, and that rise starts the start-up
verification as commit number 1 with commit value 0, a later one has no effect (R200). That the commands that wait are kept over HARD_RESET is the model's choice (log
51). -/
def Obligations.HardResetAndMemoryReady : Prop :=
  (∀ (as1 as0 : Bool) (s : State),
    exec (.hardReset as1 as0) s = .next { State.hardReset as1 as0 with pending := s.pending }) ∧
  ((State.hardReset false false).loader.base = 0 ∧ (State.hardReset false true).loader.base = 0x10000 ∧
    (State.hardReset true false).loader.base = 0x1000000 ∧ (State.hardReset true true).loader.base = 0xFFF0000) ∧
  (∀ as1 as0, (State.hardReset as1 as0).cmd.mode = .startUp ∧ (State.hardReset as1 as0).loader.inForce = none ∧
    (State.hardReset as1 as0).path.memReady = false) ∧
  (∀ s : State, s.path.memReady = false → exec .mspGrant s = .next { s with out := [] }) ∧
  (∀ s : State, s.path.memReady = false →
    ∃ u, exec .memoryReady s = .next (settle s u) ∧ u.path.memReady = true ∧
      u.loader.commitNo = s.loader.commitNo + 1 ∧ u.loader.commitVal = 0 ∧
      (u.loader.ver.map fun v => (v.stage, v.lines)) = some (.anchor, []) ∧
      u.engine.queue = s.engine.queue ++ [⟨s.engine.nextTicket, .anchorLine 0, s.loader.base, 0, 0, false⟩]) ∧
  (∀ s : State, s.path.memReady = true → exec .memoryReady s = .next { s with out := [] })

/-! ## Memory path -/

/-- What the SSP does with a transaction offered (R181). -/
def Obligations.SspOffer : Prop :=
  ∀ (t : Transaction) (s : State),
    ((t.beats = 0 ∨ 8 < t.beats ∨ 64 < t.addr.toNat % 64 + 8 * t.beats) →
      exec (.sspTransaction t) s = .next (settle s { s with out := [.sspRefused] })) ∧
    (0 < t.beats → t.beats ≤ 8 → t.addr.toNat % 64 + 8 * t.beats ≤ 64 →
      (t.write = true → (∀ k, k < 8 * t.beats → t.enables.getLsbD k = false) →
        exec (.sspTransaction t) s = .next (settle s { s with out := [.sspDone] })) ∧
      ((t.write = false ∨ ∃ k, k < 8 * t.beats ∧ t.enables.getLsbD k = true) → s.path.ssp.length < 8 →
        exec (.sspTransaction t) s =
          .next (settle s { s with out := [], path := { s.path with ssp := s.path.ssp ++ [t] } })) ∧
      ((t.write = false ∨ ∃ k, k < 8 * t.beats ∧ t.enables.getLsbD k = true) → 8 ≤ s.path.ssp.length →
        exec (.sspTransaction t) s =
          .next (settle s { s with out := [], path := { s.path with held := s.path.held ++ [t] } })))

/-- The classifier answers RETRY, drops a write that touches a protected place, or forwards (R185 to R188). A read of a record's
first line opens a bracket where one of the four is free, or restarts the one open on it (R191). The queue then takes in the first of the
transactions held while it was full (R181): that they are held in their order is the model's reading (log 25), and so is RETRY, not a
drop, for a write that touches the verdict record in START_UP or during a verification (log 92). -/
def Obligations.Classification : Prop :=
  ∀ (s : State) (t : Transaction) (rest : List Transaction), s.path.fwd = none → s.path.ssp = t :: rest →
    (mustRetry s t = true →
      ∃ u, exec .hostClassify s = .next (settle s u) ∧ u.out = [.sspRetry] ∧ u.path.retries = s.path.retries + 1 ∧
        u.path.fwd = none ∧ u.path.ssp = rest ++ s.path.held.take 1 ∧ u.path.brackets = s.path.brackets) ∧
    (mustRetry s t = false → t.write = true → ∀ c, protectedCause s t = some c →
      ∃ u, exec .hostClassify s = .next (settle s u) ∧
        u.out = [if param s (·.dropDone) false then .sspDone else .sspRefused] ∧ u.path.fwd = none ∧
        u.path.ssp = rest ++ s.path.held.take 1 ∧ u.path.logTotal = s.path.logTotal + 1 ∧
        u.path.log.getLast? = some ⟨t.addr + word ((txBytes t).headD 0), c, s.clock⟩ ∧
        hasBit u.faults.hall.flags fhVIOLATION = true ∧ u.path.brackets = s.path.brackets ∧
        u.path.violElement = s.path.violElement + (if c = .element then 1 else 0) ∧
        u.path.violRange = s.path.violRange + (if c = .range then 1 else 0) ∧
        u.path.violTable = s.path.violTable + (if c = .table then 1 else 0) ∧
        u.path.violArea = s.path.violArea + (if c = .area then 1 else 0) ∧
        u.path.violAnchor = s.path.violAnchor + (if c = .anchor then 1 else 0)) ∧
    (mustRetry s t = false → (t.write = true → protectedCause s t = none) →
      ∃ u, exec .hostClassify s = .next (settle s u) ∧ u.out = [] ∧ u.path.fwd = some ⟨t, false⟩ ∧
        u.path.ssp = rest ++ s.path.held.take 1 ∧ u.faults = s.faults ∧
        ((t.write = true ∨ ∀ r n, recordAt s t ≠ some (r, 0, n)) → u.path.brackets = s.path.brackets) ∧
        (∀ r n, t.write = false → recordAt s t = some (r, 0, n) →
          (bracketOpen s.path r = true →
            u.path.brackets = s.path.brackets.map (fun x => if x.record = r then ⟨r, s.clock⟩ else x)) ∧
          (bracketOpen s.path r = false → s.path.brackets.length < 4 → u.path.brackets = s.path.brackets ++ [⟨r, s.clock⟩]) ∧
          (bracketOpen s.path r = false → 4 ≤ s.path.brackets.length → u.path.brackets = s.path.brackets)))

/-- Whom the MSP is granted to: the later lines of a write-back begun, then the urgent fetches, then host or engine by the policy, the
non-urgent fetches in round robin after the record engine (R195). A request of the record engine leaves the queue and sends the first
line of a write-back, composed at this grant (the model's reading, log 9), or its own transaction: a read of a line, of an ownership word
or of a crane element, TAKEN alone, a return's fields, a result (R182, R194). A forwarded write that touches a protected place at its
grant is dropped (R185), the grant passes on and the side last served stays as it was (the model's reading, log 24). That the side last
served is kept at every contest, under HOST_FIRST too, is the model's reading (log 42). `fetchUrgent` and `fetchWaits` rest on two more:
a mark-list read is never urgent (the model's choice, log 65), and a stream fetch that is discarded stays a claimant and is never urgent
(the model's reading, log 30). -/
def Obligations.MspGrant : Prop :=
  ∀ s : State, s.path.memReady = true → s.path.msp = none →
    (∀ c l ls, s.engine.cur = some c → c.lines = l :: ls →
      ∃ u, exec .mspGrant s = .next (settle s u) ∧ u.out = [.msp (writeOf c.next 8 wholeLine l)] ∧ u.path.msp = some .engine ∧
        u.engine.cur = some { c with lines := ls, next := c.next + 64 }) ∧
    (s.engine.cur = none →
      (∀ b f, (bedsAfter s.path.lastUrgent).find? (fetchUrgent s) = some b → (runOf s b).fetch = some f →
        ∃ u, exec .mspGrant s = .next (settle s u) ∧ u.out = [.msp (readOf f.addr 8)] ∧ u.path.msp = some (.fetch b) ∧
          u.path.lastUrgent = b) ∧
      ((bedsAfter s.path.lastUrgent).find? (fetchUrgent s) = none →
        (∀ t, s.path.fwd = some ⟨t, false⟩ → (t.write = true → protectedCause s t = none) →
          (engineWaits s = false ∨ param s (·.alternate) false = false ∨ s.path.lastSide = .engine) →
          ∃ u, exec .mspGrant s = .next (settle s u) ∧ u.out = [.msp t] ∧ u.path.msp = some .host ∧
            u.path.fwd = some ⟨t, true⟩ ∧ u.path.lastSide = if engineWaits s then .host else s.path.lastSide) ∧
        (∀ r, enginePresents s = some r →
          (s.path.fwd = none ∨
            (∃ t, s.path.fwd = some ⟨t, false⟩) ∧ param s (·.alternate) false = true ∧ s.path.lastSide = .host) →
          ∃ u, exec .mspGrant s = .next (settle s u) ∧ grantsEngine s u r [] ∧
            u.engine.queue = s.engine.queue.filter (·.ticket != r.ticket) ∧ u.path.fwd = s.path.fwd) ∧
        (∀ b f, enginePresents s = none → (bedsAfter s.path.lastFetch).find? (fetchWaits s) = some b →
          (runOf s b).fetch = some f →
          (s.path.fwd = none ∨
            (∃ t, s.path.fwd = some ⟨t, false⟩) ∧ param s (·.alternate) false = true ∧ s.path.lastSide = .host) →
          ∃ u, exec .mspGrant s = .next (settle s u) ∧ u.out = [.msp (readOf f.addr 8)] ∧ u.path.msp = some (.fetch b) ∧
            u.path.lastFetch = b ∧ (runOf u b).fetch = some { f with granted := true }) ∧
        (∀ t c, s.path.fwd = some ⟨t, false⟩ → t.write = true → protectedCause s t = some c →
          (engineWaits s = false ∨ param s (·.alternate) false = false ∨ s.path.lastSide = .engine) →
          ∃ u, exec .mspGrant s = .next (settle s u) ∧
            u.out.head? = some (if param s (·.dropDone) false then .sspDone else .sspRefused) ∧ u.path.fwd = none ∧
            u.path.logTotal = s.path.logTotal + 1 ∧ hasBit u.faults.hall.flags fhVIOLATION = true ∧
            u.path.lastSide = s.path.lastSide ∧
            (∀ r, enginePresents s = some r →
              grantsEngine (dropWrite (setPath s { s.path with fwd := none }) t c) u r
                [if param s (·.dropDone) false then .sspDone else .sspRefused])))) ∧
  ∀ (k a : Nat) (d : Line) (e : BitVec 64) (f : Bool),
    (∀ w, (w = .slotRead ∨ (∃ b, w = .bedElement b ∨ w = .descriptor b) ∨ ∃ i j, w = .anchorLine i ∨ w = .scanRead i j) →
      reqTransaction ⟨k, w, a, d, e, f⟩ = ⟨word a, false, 8, 0, 0⟩) ∧
    (∀ w, (∃ b i, w = .bedOwner b ∨ w = .craneOwner i) → reqTransaction ⟨k, w, a, d, e, f⟩ = ⟨word a, false, 1, 0, 0⟩) ∧
    (∀ i, reqTransaction ⟨k, .craneElement i, a, d, e, f⟩ = ⟨word a, false, 4, 0, 0⟩) ∧
    (∀ w, (∃ b i, w = .bedTaken b ∨ w = .craneTaken i) →
      reqTransaction ⟨k, w, a, d, e, f⟩ = ⟨word a, true, 1, enable 0 4, lineOf TAKEN⟩) ∧
    (∀ i, reqTransaction ⟨k, .craneReturn i, a, d, e, f⟩ = ⟨word a, true, 4, e, d⟩) ∧
    (∀ w, (w = .result ∨ w = .busyResult ∨ ∃ b, w = .bedReturn b) → reqTransaction ⟨k, w, a, d, e, f⟩ = ⟨word a, true, 8, e, d⟩)

/-- The MSP's answers to the host are relayed and end the host forward; a last-line read closes its bracket, and the limit
closes one with the counter advanced (R182, R192). A trigger taken while a command is in execution is answered by a BUSY result of its
own, and the command stays in execution (R210, R211); that so is one answered during a verification, in which no command is taken (R159,
R208), is the model's reading (log 64). -/
def Obligations.HostAnswersAndBrackets : Prop :=
  (∀ (s : State) (t : Transaction), hostHas s t → t.write = true →
    (∃ u, exec (.hostWriteAnswer .refused) s = .next (settle s u) ∧ u.out = [.sspRefused] ∧ u.path.fwd = none ∧
      u.path.msp = none) ∧
    (snooped s t = false →
      ∃ u, exec (.hostWriteAnswer .done) s = .next (settle s u) ∧ u.out = [.sspDone] ∧ u.path.fwd = none ∧ u.path.msp = none ∧
        (isTrigger s t = false → u.cmd = s.cmd ∧ u.engine = s.engine ∧ u.faults = s.faults) ∧
        (isTrigger s t = true →
          let c := param s (·.control) 0
          u.cmd = { s.cmd with resultNo := s.cmd.resultNo + 1 } ∧
          u.engine.queue = s.engine.queue ++ [⟨s.engine.nextTicket, .busyResult, c + 0x80,
            resultLine (s.cmd.resultNo + 1) (BitVec.ofNat 16 (txField t c 2)) (byte (txField t (c + 2) 1))
              (word (txField t (c + 4) 4)) oBUSY 0 0 0, enable 0 64, false⟩] ∧
          u.faults.watch = s.faults.watch.map (fun _ => s.clock)))) ∧
  (∀ (s : State) (t : Transaction) (a : ReadAnswer), hostHas s t → t.write = false →
    (closes s t = none →
      exec (.hostReadAnswer a) s =
        .next (settle s { s with out := [readReply a], path := { s.path with fwd := none, msp := none } })) ∧
    (∀ r, closes s t = some r →
      exec (.bracketClose a) s = .next (settle s { s with
        out := [readReply a],
        path := { s.path with fwd := none, msp := none, brackets := s.path.brackets.filter (·.record != r) } }))) ∧
  (∀ (s : State) (r : RecId), bracketOpen s.path r = true →
    exec (.bracketExpiry r) s = .next (settle s { s with
      out := [], path := { s.path with brackets := s.path.brackets.filter (·.record != r), expired := s.path.expired + 1 } }))

/-- The acknowledge write removes each pending cause it names and restarts the host watch; the line follows (R212, R213). -/
def Obligations.Acknowledge : Prop :=
  ∀ (s : State) (t : Transaction), hostHas s t → t.write = true → isAck s t = true →
    ∃ u, exec .acknowledgeWrite s = .next (settle s u) ∧ u.out = [.sspDone] ∧ u.path.fwd = none ∧ u.path.msp = none ∧
      (∀ i, i < 8 → (hasBit u.faults.pending i = true ↔
        hasBit s.faults.pending i = true ∧ bit (txField t (param s (·.control) 0 + 0x40) 1) i = false)) ∧
      (attentionLine u = true ↔ ∃ i, i < 8 ∧ hasBit u.faults.pending i = true ∧ hasBit s.faults.mask i = false) ∧
      u.faults.watch = s.faults.watch.map (fun _ => s.clock)

/-- A trigger with no command in execution and no verification running puts the command in execution and reads the slot (R209; that
one taken during a verification is answered BUSY is the model's reading of R159 and R208, log 64); a commit in HALT begins a
verification, or waits for the command in execution (R208). -/
def Obligations.TriggerAndCommit : Prop :=
  (∀ (s : State) (t : Transaction), hostHas s t → t.write = true → isTrigger s t = true → s.cmd.current = none →
    s.loader.ver = none →
    let c := param s (·.control) 0
    ∃ u, exec .commandTrigger s = .next (settle s u) ∧ u.out = [.sspDone] ∧
      u.cmd.current = some ⟨BitVec.ofNat 16 (txField t c 2), byte (txField t (c + 2) 1), word (txField t (c + 4) 4), .reading⟩ ∧
      u.engine.queue = s.engine.queue ++ [⟨s.engine.nextTicket, .slotRead, c, 0, 0, false⟩] ∧
      u.faults.watch = s.faults.watch.map (fun _ => s.clock)) ∧
  (∀ (s : State) (t : Transaction), hostHas s t → t.write = true → isCommit s t = true →
    let v := word (txField t (s.loader.base + 8) 4)
    (s.cmd.current = none →
      ∃ u, exec .commit s = .next (settle s u) ∧ u.loader.commitNo = s.loader.commitNo + 1 ∧ u.loader.commitVal = v ∧
        u.loader.ver.isSome = true ∧ u.path.brackets = [] ∧ u.loader.inForce = s.loader.inForce ∧
        u.engine.queue = s.engine.queue ++ [⟨s.engine.nextTicket, .anchorLine 0, s.loader.base, 0, 0, false⟩]) ∧
    (s.cmd.current.isSome = true →
      ∃ u, exec .commit s = .next (settle s u) ∧ u.loader = { s.loader with pendingCommit := some v }))

/-- ISSUED at the ring position of a WAITING bed is a take; written elsewhere it leaves the bed alone (R42). ISSUED at the crane
ring position, the ring running, its element not held and fewer than 8 orders held, is a take (R132); that an order of an earlier ring
holds the element of its index in the ring in force too is the model's choice (log 83). -/
def Obligations.RingTakes : Prop :=
  (∀ (s : State) (t : Transaction) (b : BedId) (i : Nat), hostHas s t → t.write = true → burnIssued s t = some (b, i) →
     ((runOf s b).state = .waiting → (runOf s b).ret = none → (bedOf s b).ring.pos = i →
       ∃ u, exec .burnRingIssuedWrite s = .next (settle s u) ∧ (runOf u b).state = .accepting ∧
         (bedOf u b).ring = { (bedOf s b).ring with taken := (bedOf s b).ring.taken + 1 } ∧
         ((runOf u b).hand.map fun h => (h.addr, h.idx)) = some ((bedCfg s b).base + 64 * i, i) ∧
         u.engine.queue = s.engine.queue ++ [⟨s.engine.nextTicket, .bedElement b, (bedCfg s b).base + 64 * i, 0, 0, false⟩]) ∧
     (((runOf s b).state ≠ .waiting ∨ (bedOf s b).ring.pos ≠ i) →
       ∃ u, exec .burnRingIssuedWrite s = .next (settle s u) ∧ u.beds = s.beds ∧ u.engine = s.engine)) ∧
  (∀ (s : State) (t : Transaction) (i : Nat), hostHas s t → t.write = true → craneIssued s t = [i] →
     (mayTake s = true → s.crane.ringPos = i →
       ∃ u, exec .craneRingIssuedWrite s = .next (settle s u) ∧ u.crane.taken = s.crane.taken + 1 ∧
         u.crane.stock = s.crane.stock ++ [⟨i, craneAddr s i, 0, 0, .none, 0, .reading⟩] ∧
         u.crane.ringPos = if i + 1 < param s (·.craneCount) 1 then i + 1 else 0) ∧
     ((mayTake s = false ∨ s.crane.ringPos ≠ i) →
       ∃ u, exec .craneRingIssuedWrite s = .next (settle s u) ∧ u.crane = s.crane))

/-! ## The command engine -/

/-- A refused slot read ends the command PARAM with detail 2 equal to 1 and sets WRITE_BACK (R209); a code that names no command
gives UNKNOWN (R210). In HALTING and RESETTING every command read is answered BUSY and changes nothing but its result (R160,
R210). The commands of a bed judge their target and parameters first (R65, R95, R96, R127); that an ABSENT bed gives STATE whatever
the parameters is the model's choice (log 17). Every other command answers PARAM to a target other than none (R17, R160, R178); that it
does whatever its parameters are is the model's choice (log 17). -/
def Obligations.CommandTurnedAway : Prop :=
  ((∀ s : State, slotReadFor s (fun _ => true) = true →
     ∃ u, exec .commandSlotReadRefused s = .next (settle s u) ∧ gives u oPARAM 0 1 0 ∧
       hasBit u.faults.hall.flags fhWRITE_BACK = true ∧ u.path.msp = none ∧ u.engine.cur = none) ∧
   (∀ (s : State) (slot : Line), slotReadFor s (fun c => !commandCodes.contains c) = true →
     ∃ u, exec (.unknownCommand slot) s = .next (settle s u) ∧ gives u oUNKNOWN 0 0 0 ∧ u.faults = s.faults)) ∧
  (∀ (s : State) (slot : Line), ∀ p ∈ oneRowCommands slot ++ optionCommands slot, slotReadFor s (· == p.2) = true →
     (s.cmd.mode = .halting ∨ s.cmd.mode = .resetting) →
     exec p.1 s = .next (settle s (deny (slotRead s) oBUSY 0 0))) ∧
  (∀ (s : State) (slot : Line) (tgt : Nat), ∀ p ∈ untargetedCommands slot, commandDue s p.2 tgt → tgt ≠ 0xFF →
     exec p.1 s = .next (settle s (deny (slotRead s) oPARAM 0 0))) ∧
  (∀ (s : State) (slot : Line) (tgt : Nat), ∀ p ∈ bedCommands slot, commandDue s p.2.1 tgt →
     (3 < tgt → exec p.1 s = .next (settle s (deny (slotRead s) oPARAM 0 0))) ∧
     (∀ b, tgt = bedNum b → present s b = false → exec p.1 s = .next (settle s (deny (slotRead s) oSTATE 1 0))) ∧
     (∀ b, tgt = bedNum b → present s b = true → parZeroBut slot p.2.2 = false →
       exec p.1 s = .next (settle s (deny (slotRead s) oPARAM 0 0))))

/-- HALL_RUN brings the hall to RUN: from HALT the crane ring starts and the beds stay as they are, from HOLD cause HOLD is removed
from every bed and detail 1 counts those that had it; in RUN it answers MODE (R89, R132, R160, R161). HALL_HOLD in RUN puts the hall
in HOLD with origin COMMAND and adds cause HOLD to every bed MARKING, BURNING or PAUSED (R162); elsewhere it answers MODE (R160). It
completes when every bed has reported its torch off (R163). Each of the four hall commands with a target or with a parameter not 0
answers PARAM (R160), before its mode is judged (the model's choice, log 17). -/
def Obligations.HallRunAndHold : Prop :=
  (∀ (s : State) (slot : Line) (tgt : Nat), ∀ p ∈ hallCommands slot, commandDue s p.2 tgt →
     (tgt ≠ 0xFF ∨ parZeroBut slot [] = false) → exec p.1 s = .next (settle s (deny (slotRead s) oPARAM 0 0))) ∧
  (∀ (s : State) (slot : Line), commandDue s 0x10 0xFF → parZeroBut slot [] = true →
     (s.cmd.mode = .halt →
       ∃ u, exec (.hallRun slot) s = .next (settle s u) ∧ u.cmd.mode = .run ∧ u.cmd.origin = .none ∧ gives u oDONE 0 0 0 ∧
         u.beds = s.beds ∧ u.crane = { s.crane with ownRead := true } ∧ u.faults = s.faults) ∧
     (s.cmd.mode = .hold →
       ∃ u, exec (.hallRun slot) s = .next (settle s u) ∧ u.cmd.mode = .run ∧ u.cmd.origin = .none ∧
         gives u oDONE (bedIds.filter (fun b => hasBit (runOf s b).pause pHOLD)).length 0 0 ∧
         (∀ b, runOf u b = { runOf s b with pause := (runOf s b).pause &&& ~~~ byte (2 ^ pHOLD) }) ∧
         (∀ b, hasBit (runOf u b).pause pHOLD = false) ∧ u.crane = s.crane ∧ u.faults = s.faults) ∧
     (s.cmd.mode = .run → exec (.hallRun slot) s = .next (settle s (deny (slotRead s) oMODE 0 0)))) ∧
  (∀ (s : State) (slot : Line), commandDue s 0x11 0xFF → parZeroBut slot [] = true →
     (s.cmd.mode = .run →
       ∃ u, exec (.hallHold slot) s = .next (settle s u) ∧ u.cmd.mode = .hold ∧ u.cmd.origin = .command ∧
         (∀ b, activeState (runOf s b).state = true → hasBit (runOf u b).pause pHOLD = true) ∧
         (∀ b, activeState (runOf s b).state = false → runOf u b = runOf s b) ∧
         (∀ b, (runOf u b).state = (runOf s b).state) ∧
         u.cmd.torch = bedIds.filter (fun b => (runOf s b).state == .burning || (runOf s b).state == .stopping) ∧
         u.cmd.current.map (·.stage) = some (.hold (bedIds.filter (fun b => activeState (runOf s b).state)).length)) ∧
     ((s.cmd.mode = .halt ∨ s.cmd.mode = .hold) →
       exec (.hallHold slot) s = .next (settle s (deny (slotRead s) oMODE 0 0)))) ∧
  (∀ (s : State) (n : Nat), stageOf s = .hold n →
     (s.cmd.torch = [] → holdDone s = give s oDONE n 0 0 [.writeBack .hall]) ∧ (s.cmd.torch ≠ [] → holdDone s = s)) ∧
  (∀ s : State, s.cmd.mode = .hold →
     settleTorch s = setCmd s { s.cmd with
       torch := s.cmd.torch.filter (fun b => (runOf s b).state == .burning || (runOf s b).state == .stopping) })

/-- HALL_HALT in RUN or HOLD puts the hall in HALTING and ends each bed's work by its state (R69, R164). HALTING ends when every bed
and the crane are idle (R165); that it also waits for a permit grant still under way is the model's reading (log 11). -/
def Obligations.HallHalt : Prop :=
  (∀ (s : State) (slot : Line), commandDue s 0x12 0xFF → parZeroBut slot [] = true →
    ((s.cmd.mode = .run ∨ s.cmd.mode = .hold) →
      ∃ u, exec (.hallHalt slot) s = .next (settle s u) ∧ u.cmd.mode = .halting ∧
        (∀ b, (runOf u b).state = match (runOf s b).state with
          | .waiting | .accepting | .checking | .staging | .unloading => .stopped
          | .marking | .burning | .paused => .stopping
          | t => t) ∧
        (∀ o ∈ u.crane.stock, o.stage ≠ .queued)) ∧
    (s.cmd.mode = .halt → exec (.hallHalt slot) s = .next (settle s (deny (slotRead s) oMODE 0 0)))) ∧
  ∀ s : State, s.cmd.mode = .halting →
    ((∀ b, bedIdle s b = true) → craneIdle s = true → s.arb.grants = [] →
      haltDone s = give (setCmd s { s.cmd with mode := .halt }) oDONE s.cmd.haltBurn.toNat s.cmd.haltCrane.toNat
        (if s.crane.state = .faulted then 1 else 0) [.writeBack .hall]) ∧
    (((∃ b, bedIdle s b = false) ∨ craneIdle s = false ∨ s.arb.grants ≠ []) → haltDone s = s)

/-- HALL_RESET puts the hall in RESETTING: flags but RESET_LOADED clear, masks kept, claims and reservations gone, the host
watch stopped, brackets closed, the violation log emptied (R24, R40, R166, R180, R193, R197); where the crane's part ends at once it may
set LINK_LOST or RESET_LOADED (R155). RESETTING ends when every bed and the crane have made their part (R167; waiting for a permit
grant under way too is the model's reading, log 11). -/
def Obligations.HallReset : Prop :=
  (∀ (s : State) (slot : Line), commandDue s 0x13 0xFF → parZeroBut slot [] = true →
    (s.cmd.mode = .halt ∨ s.cmd.mode = .run ∨ s.cmd.mode = .hold) →
      ∃ u, exec (.hallReset slot) s = .next (settle s u) ∧ u.cmd.mode = .resetting ∧ u.loader = s.loader ∧ u.clock = s.clock ∧
        (∀ p ∈ u.stock.table, p.claim = .none) ∧ u.stock.reservedIds = [] ∧ u.stock.slotRes = [] ∧ u.stock.overRes = [] ∧
        u.stock.infeedRes = none ∧ u.stock.waiters = [] ∧ u.stock.tokenCtr = s.stock.tokenCtr ∧ u.faults.watch = none ∧
        u.faults.pending = s.faults.pending ∧ u.faults.mask = s.faults.mask ∧ u.path.brackets = [] ∧ u.path.log = [] ∧
        u.path.logTotal = 0 ∧ u.path.ssp = s.path.ssp ∧
        (∀ b, (u.faults.beds.get b) = ⟨0, (s.faults.beds.get b).masks, false⟩) ∧
        u.faults.hall = ⟨0, s.faults.hall.masks, false⟩ ∧ u.faults.crane.masks = s.faults.crane.masks ∧
        (hasBit s.faults.crane.flags fcRESET_LOADED = true → hasBit u.faults.crane.flags fcRESET_LOADED = true) ∧
        (∀ i, i < 8 → i ≠ fcRESET_LOADED → i ≠ fcLINK_LOST → hasBit u.faults.crane.flags i = false) ∧
        (s.crane.lk.live = true →
          ((s.crane.move.isSome = true ∧ s.crane.state ≠ .faulted) ∨ ∀ p ∈ s.stock.table, p.located = true → p.loc ≠ .crane) →
          u.faults.crane = ⟨if hasBit s.faults.crane.flags fcRESET_LOADED then byte (2 ^ fcRESET_LOADED) else 0, s.faults.crane.masks,
            s.faults.crane.comb && hasBit s.faults.crane.flags fcRESET_LOADED &&
              !hasBit s.faults.crane.masks fcRESET_LOADED⟩) ∧
        (∀ b, present s b = true → isLive s b = true → (runOf u b).state = .stopping) ∧
        (∀ b, present s b = true → isLive s b = false → (runOf u b).state = .stopped ∧ (runOf u b).hand = none)) ∧
  ∀ s : State, s.cmd.mode = .resetting →
    ((∀ b, bedReset s b = true) → s.crane.resetEnded = true → s.arb.grants = [] →
      let u := resetDone s
      u.cmd.mode = .halt ∧ u.crane.resetEnded = false ∧ (∀ b, (runOf u b).resetEnd = none) ∧
        u.faults = { s.faults with watch := if param s (·.watch) 0 = 0 then none else some s.clock } ∧
        gives u oDONE s.cmd.resetStopped.toNat s.cmd.resetOther.toNat (if s.crane.state = .faulted then 1 else 0)) ∧
    (((∃ b, bedReset s b = false) ∨ s.crane.resetEnded = false ∨ s.arb.grants ≠ []) → resetDone s = s)

/-! ## Fault commands, attention, statistics -/

/-- FAULT_CLEAR (R174, R179): of the flags named, those set whose condition stands are kept (that a condition sets no flag that
was clear is the model's reading, log 37). FAULT_MASK replaces the masks of one group; unmasking a set flag sets the combined flag (R175,
R178). A target, an undefined group or a further parameter not 0 gives PARAM. -/
def Obligations.FaultClearAndMask : Prop :=
  (∀ (s : State) (slot : Line) (tgt : Nat),
     (commandDue s 0x14 tgt → (tgt ≠ 0xFF ∨ groupOf? (par slot 0 1) = none ∨ parZeroBut slot [(0, 3)] = false) →
       exec (.faultClear slot) s = .next (settle s (deny (slotRead s) oPARAM 0 0))) ∧
     (commandDue s 0x15 tgt → (tgt ≠ 0xFF ∨ groupOf? (par slot 0 1) = none ∨ parZeroBut slot [(0, 2)] = false) →
       exec (.faultMask slot) s = .next (settle s (deny (slotRead s) oPARAM 0 0)))) ∧
  (∀ (s : State) (slot : Line) (g : Group), commandDue s 0x14 0xFF → groupOf? (par slot 0 1) = some g →
     parZeroBut slot [(0, 3)] = true →
     let m := byte (par slot 1 1)
     let v := s.faults.get g
     (m &&& ~~~ groupFlags g = 0 → ((m ≠ 0 ∧ par slot 2 1 = 0) ∨ par slot 2 1 = 1) →
       let kept := m &&& v.flags &&& persisting (slotRead s) g
       let flags := v.flags &&& ~~~ (m &&& ~~~ kept)
       let refused := par slot 2 1 == 1 && flags &&& ~~~ v.masks != 0
       let comb := if par slot 2 1 = 1 ∧ refused = false then false else v.comb
       ∃ u, exec (.faultClear slot) s = .next (settle s u) ∧ u.faults = s.faults.set g ⟨flags, v.masks, comb⟩ ∧
         gives u oDONE kept.toNat refused.toNat comb.toNat) ∧
     ((m &&& ~~~ groupFlags g ≠ 0 ∨ (m = 0 ∧ par slot 2 1 = 0) ∨ 1 < par slot 2 1) →
       exec (.faultClear slot) s = .next (settle s (deny (slotRead s) oPARAM 0 0)))) ∧
  (∀ (s : State) (slot : Line) (g : Group), commandDue s 0x15 0xFF → groupOf? (par slot 0 1) = some g →
     parZeroBut slot [(0, 2)] = true →
     let m := byte (par slot 1 1)
     let v := s.faults.get g
     (m &&& ~~~ groupFlags g = 0 →
       let comb := v.comb || (v.flags &&& v.masks &&& ~~~ m != 0)
       ∃ u, exec (.faultMask slot) s = .next (settle s u) ∧ u.faults.get g = ⟨v.flags, m, comb⟩ ∧
         (∀ g', g' ≠ g → u.faults.get g' = s.faults.get g') ∧ u.faults.owed = (s.faults.owed || (comb && !v.comb)) ∧
         gives u oDONE comb.toNat 0 0) ∧
     (m &&& ~~~ groupFlags g ≠ 0 → exec (.faultMask slot) s = .next (settle s (deny (slotRead s) oPARAM 0 0))))

/-- ATTENTION_MASK replaces the line mask whole; another non-zero parameter, or a target, gives PARAM (R214). -/
def Obligations.AttentionMask : Prop :=
  ∀ (s : State) (slot : Line) (tgt : Nat), commandDue s 0x51 tgt →
    (tgt = 0xFF → parZeroBut slot [(0, 1)] = true →
      ∃ u, exec (.attentionMask slot) s = .next (settle s u) ∧ u.faults = { s.faults with mask := byte (par slot 0 1) } ∧
        u.cmd.owed = some ⟨oDONE, word (byte (par slot 0 1)).toNat, word s.faults.pending.toNat, 0, [.writeBack .hall], [], none⟩) ∧
    ((tgt ≠ 0xFF ∨ parZeroBut slot [(0, 1)] = false) →
      exec (.attentionMask slot) s = .next (settle s (deny (slotRead s) oPARAM 0 0)))

/-- STATS_SNAPSHOT copies the 31 counters, the hall clock and the snapshot number; with the clear option every counter is 0
after it (R215). A target, another option or a further parameter not 0 gives PARAM. The order of
the five violation counters among the 31 is the model's reading (log 99). -/
def Obligations.StatsSnapshot : Prop :=
  (∀ (s : State) (slot : Line) (tgt : Nat), commandDue s 0x50 tgt →
     (tgt ≠ 0xFF ∨ 1 < par slot 0 1 ∨ parZeroBut slot [(0, 1)] = false) →
     exec (.statsSnapshot slot) s = .next (settle s (deny (slotRead s) oPARAM 0 0))) ∧
  ∀ (s : State) (slot : Line), commandDue s 0x50 0xFF → parZeroBut slot [(0, 1)] = true → par slot 0 1 ≤ 1 →
    (counters s).length = 31 ∧
    ∃ u, exec (.statsSnapshot slot) s = .next (settle s u) ∧ u.cmd.snapNo = s.cmd.snapNo + 1 ∧
      u.cmd.snapshot = counters s ++ [s.clock, s.cmd.snapNo + 1] ∧
      gives u oDONE (s.cmd.snapNo + 1).toNat s.clock.toNat 0 ∧
      counters u = if par slot 0 1 = 1 then List.replicate 31 0 else counters s

/-! ## Commands to the beds -/

/-- MONITOR_TEST sets ARC_HIGH or ARC_LOW and clears the counters, with no other effect on the bed (R127). Its result waits for a
bed status write-back and for the fault record's that shows the flag (the model's reading, log 55). Another limit gives PARAM; a bed
in another state gives STATE with that state, and one with its link not LIVE STATE with detail 2 equal to 1; that the state is judged
before the link is the model's choice (log 17). What another target or a
further parameter gives `Obligations.CommandTurnedAway` says for every bed command. -/
def Obligations.MonitorTest : Prop :=
  (∀ (s : State) (slot : Line) (b : BedId), bedCommandDue s 0x16 b slot [(0, 1)] →
    (par slot 0 1 ≠ 1 → par slot 0 1 ≠ 2 → exec (.monitorTest slot) s = .next (settle s (deny (slotRead s) oPARAM 0 0))) ∧
    ((par slot 0 1 = 1 ∨ par slot 0 1 = 2) → (runOf s b).state ≠ .stopped → (runOf s b).state ≠ .waiting →
      exec (.monitorTest slot) s = .next (settle s (deny (slotRead s) oSTATE (runOf s b).state.num 0))) ∧
    ((par slot 0 1 = 1 ∨ par slot 0 1 = 2) → ((runOf s b).state = .stopped ∨ (runOf s b).state = .waiting) → isLive s b = false →
      exec (.monitorTest slot) s = .next (settle s (deny (slotRead s) oSTATE (runOf s b).state.num 1)))) ∧
  ∀ (s : State) (slot : Line) (b : BedId), bedCommandDue s 0x16 b slot [(0, 1)] →
    ((runOf s b).state = .stopped ∨ (runOf s b).state = .waiting) → isLive s b = true →
    (par slot 0 1 = 1 ∨ par slot 0 1 = 2) →
    ∃ u, exec (.monitorTest slot) s = .next (settle s u) ∧ runOf u b = { runOf s b with arc := ⟨0, 0⟩ } ∧
      hasBit (u.faults.beds.get b).flags (if par slot 0 1 = 1 then fARC_HIGH else fARC_LOW) = true ∧
      u.cmd.owed = some ⟨oDONE, word (bedCfg s b).arcN, 0, 0, [.writeBack .fault], [.writeBack (.bed b)], none⟩ ∧
      (s.loader.inForce.isSome = true → queued u (.writeBack (.bed b)) = true)

/-- BED_START brings a STOPPED bed with a live link to WAITING; it answers STATE, MODE or STATE with detail 2 otherwise (R66). That
its ring position is read only behind its result is the model's reading (log 12).
BED_STOP by the bed's state (R67): at once to STOPPED before MARKING and from UNLOADING, through STOPPING from MARKING, BURNING
and PAUSED, its result given when STOPPING ends, STATE elsewhere. -/
def Obligations.BedStartAndStop : Prop :=
  (∀ (s : State) (slot : Line) (b : BedId), bedCommandDue s 0x20 b slot [] →
     ((runOf s b).state = .stopped → s.cmd.mode ≠ .halt → isLive s b = true →
       ∃ u, exec (.bedStart slot) s = .next (settle s u) ∧ (runOf u b).state = .waiting ∧
         u.cmd.owed = some ⟨oDONE, 0, 0, 0, [.writeBack (.bed b)], [], some b⟩) ∧
     ((runOf s b).state ≠ .stopped → exec (.bedStart slot) s = .next (settle s (deny (slotRead s) oSTATE 0 0))) ∧
     ((runOf s b).state = .stopped → s.cmd.mode = .halt →
       exec (.bedStart slot) s = .next (settle s (deny (slotRead s) oMODE 0 0))) ∧
     ((runOf s b).state = .stopped → s.cmd.mode ≠ .halt → isLive s b = false →
       exec (.bedStart slot) s = .next (settle s (deny (slotRead s) oSTATE 2 0)))) ∧
  (∀ (s : State) (slot : Line) (b : BedId), bedCommandDue s 0x21 b slot [] →
     (((runOf s b).state = .waiting ∨ (runOf s b).state = .accepting ∨ (runOf s b).state = .checking ∨
         (runOf s b).state = .staging ∨ (runOf s b).state = .unloading) →
       ∃ u, exec (.bedStop slot) s = .next (settle s u) ∧ (runOf u b).state = .stopped ∧ gives u oDONE 0 0 0 ∧
         ((runOf s b).state ≠ .waiting → (runOf u b).hand = none)) ∧
     (((runOf s b).state = .marking ∨ (runOf s b).state = .burning ∨ (runOf s b).state = .paused) →
       ∃ u, exec (.bedStop slot) s = .next (settle s u) ∧ (runOf u b).state = .stopping ∧
         (runOf u b).stop = some ⟨.stopped, s.clock⟩ ∧ (isLive s b = true → Output.abort b ∈ u.out) ∧
         u.cmd.owed = s.cmd.owed ∧ u.cmd.current.map (·.stage) = some (.stopping b)) ∧
     (((runOf s b).state = .stopped ∨ (runOf s b).state = .stopping ∨ (runOf s b).state = .faulted) →
       exec (.bedStop slot) s = .next (settle s (deny (slotRead s) oSTATE 0 0)))) ∧
  (∀ (s : State) (b : BedId), stageOf s = .stopping b →
     ((runOf s b).state ≠ .stopping →
       stopDone s = give s oDONE (runOf s b).state.num 0 0 [.writeBack (.bed b), .bedReturn b]) ∧
     ((runOf s b).state = .stopping → stopDone s = s))

/-- BED_PAUSE (R95). -/
def Obligations.BedPause : Prop :=
  ∀ (s : State) (slot : Line) (b : BedId), bedCommandDue s 0x22 b slot [] →
    let sent := (runOf s b).pause = 0 ∧ (runOf s b).stream.pausing = false
    (((runOf s b).state = .marking ∨ (runOf s b).state = .burning) →
      ∃ u, exec (.bedPause slot) s = .next (settle s u) ∧ (runOf u b).state = (runOf s b).state ∧
        (runOf u b).pause = (runOf s b).pause ||| byte (2 ^ pCOMMAND) ∧
        (sent → (runOf u b).stream.pausing = true ∧ (isLive s b = true → Output.pause b ∈ u.out) ∧ gives u oDONE 1 0 0) ∧
        (¬ sent → (runOf u b).stream = (runOf s b).stream ∧ u.out = [] ∧ gives u oDONE 0 0 0)) ∧
    ((runOf s b).state ≠ .marking → (runOf s b).state ≠ .burning →
      exec (.bedPause slot) s = .next (settle s (deny (slotRead s) oSTATE (runOf s b).state.num 0)))

/-- BED_RESUME removes COMMAND, ARC and PIERCE; WAIVE also MARK_INTERLOCK, making FAILED marks WAIVED; REMARK begins a remark
pass in PAUSED (R96, R107, R108). Another option gives PARAM; where the bed is neither PAUSED nor waiting for a PAUSED reply, or has made
a form stop, each of the three gives STATE with the bed's state. -/
def Obligations.BedResume : Prop :=
  ∀ (s : State) (slot : Line) (b : BedId), bedCommandDue s 0x23 b slot [(0, 1)] →
    (mayResume (runOf s b) = true →
      (par slot 0 1 = 0 →
        ∃ u, exec (.bedResume slot) s = .next (settle s u) ∧
          runOf u b = { runOf s b with pause := (runOf s b).pause &&& ~~~ resumeCauses } ∧
          gives u oDONE (setSize ((runOf s b).pause &&& ~~~ resumeCauses)) 0 0) ∧
      (par slot 0 1 = 1 →
        ∃ u, exec (.bedResumeWaive slot) s = .next (settle s u) ∧
          (runOf u b).pause = (runOf s b).pause &&& ~~~ (resumeCauses ||| byte (2 ^ pMARK)) ∧
          ((runOf s b).marks.begun = true → (runOf u b).marks.table =
            (runOf s b).marks.table.map (fun x => if x.st = .failed then { x with st := .waived } else x)) ∧
          gives u oDONE (setSize ((runOf s b).pause &&& ~~~ (resumeCauses ||| byte (2 ^ pMARK)))) 0 0) ∧
      (par slot 0 1 = 2 → (runOf s b).state = .paused →
        ∃ u, exec (.bedResumeRemark slot) s = .next (settle s u) ∧
          (runOf u b).pause = (runOf s b).pause &&& ~~~ resumeCauses ∧ (runOf u b).marks.pass = some .waiting ∧
          (runOf u b).state = .paused ∧ u.cmd.current.map (·.stage) = some (.remark b)) ∧
      (par slot 0 1 = 2 → (runOf s b).state ≠ .paused →
        exec (.bedResumeRemark slot) s = .next (settle s (deny (slotRead s) oSTATE (runOf s b).state.num 1)))) ∧
    (2 < par slot 0 1 → exec (.bedResume slot) s = .next (settle s (deny (slotRead s) oPARAM 0 0))) ∧
    (((runOf s b).stream.form ≠ none ∨ ((runOf s b).state ≠ .paused ∧
        (((runOf s b).state ≠ .marking ∧ (runOf s b).state ≠ .burning) ∨ (runOf s b).stream.pausing = false))) →
      let refuses (c : Instr) : Prop := exec c s = .next (settle s (deny (slotRead s) oSTATE (runOf s b).state.num 0))
      (par slot 0 1 = 0 → refuses (.bedResume slot)) ∧ (par slot 0 1 = 1 → refuses (.bedResumeWaive slot)) ∧
      (par slot 0 1 = 2 → refuses (.bedResumeRemark slot)))

/-- BED_RELEASE posts the unloading requests of a bed UNLOADING with wait cause RELEASE and answers DONE; in any other state,
or in UNLOADING without that wait, it answers STATE (R62). -/
def Obligations.BedRelease : Prop :=
  (∀ (s : State) (slot : Line) (b : BedId), commandDue s 0x24 (bedNum b) → (runOf s b).state = .absent → parZeroBut slot [] = true →
    exec (.bedRelease slot) s = .next (settle s (deny (slotRead s) oSTATE 1 0))) ∧
  ∀ (s : State) (slot : Line) (b : BedId), bedCommandDue s 0x24 b slot [] →
    (∀ h, (runOf s b).hand = some h → (runOf s b).state = .unloading → (runOf s b).unl = .release →
      ∃ u, exec (.bedRelease slot) s = .next (settle s u) ∧ (runOf u b).unl = .posted ∧ (runOf u b).state = .unloading ∧
        gives u oDONE 0 0 0 ∧ u.crane.inbox.get b = s.crane.inbox.get b ++
          ((match h.remnant with
            | .none | .notRegistered => []
            | _ => [Post.post ⟨.remnantOut, h.remRec, (h.desc.map descId).getD 0, h.remDest, false, false⟩]) ++
           (let i := (h.look.map (·.ix)).getD 0
            if holds s i (ordPlate h.order) = true ∧ (plateAt s i).st = .skeleton then
              [Post.post ⟨.skeletonOut, i, ordPlate h.order, .scrap, false, false⟩] else []))) ∧
    (((runOf s b).state ≠ .unloading ∨ (runOf s b).unl ≠ .release) →
      exec (.bedRelease slot) s = .next (settle s (deny (slotRead s) oSTATE 0 0)))

/-- BED_RECOVER returns a FAULTED bed with a live link to STOPPED with its pause cause set empty and answers DONE; with the
link not live it answers STATE, detail 2; in any other state STATE, detail 1. No detail flag is cleared (R68). -/
def Obligations.BedRecover : Prop :=
  (∀ (s : State) (slot : Line) (b : BedId), commandDue s 0x25 (bedNum b) → (runOf s b).state = .absent → parZeroBut slot [] = true →
    exec (.bedRecover slot) s = .next (settle s (deny (slotRead s) oSTATE 1 0))) ∧
  ∀ (s : State) (slot : Line) (b : BedId), bedCommandDue s 0x25 b slot [] →
    ((runOf s b).state = .faulted → isLive s b = true →
      ∃ u, exec (.bedRecover slot) s = .next (settle s u) ∧ (runOf u b).state = .stopped ∧ (runOf u b).pause = 0 ∧
        gives u oDONE 0 0 0 ∧ u.faults = s.faults) ∧
    ((runOf s b).state = .faulted → isLive s b = false →
      exec (.bedRecover slot) s = .next (settle s (deny (slotRead s) oSTATE 2 0))) ∧
    ((runOf s b).state ≠ .faulted → exec (.bedRecover slot) s = .next (settle s (deny (slotRead s) oSTATE 1 0)))

/-! ## Commands of the crane -/

/-- CRANE_CANCEL by the state of the order named, by its element or, with H'FFFF, as that of the move in flight (R148 to R150): a
target, another parameter or an index beyond the ring gives PARAM, an element of no order held or no move in flight NOT_FOUND, a move
of a bed STATE, detail 1. What an order whose element is not read yet returns is the model's choice (log 60). -/
def Obligations.CraneCancel : Prop :=
  (∀ (s : State) (slot : Line) (tgt : Nat), commandDue s 0x30 tgt →
    (tgt ≠ 0xFF ∨ parZeroBut slot [(0, 2)] = false ∨ (par slot 0 2 ≠ 0xFFFF ∧ param s (·.craneCount) 0 ≤ par slot 0 2)) →
    exec (.craneCancel slot) s = .next (settle s (deny (slotRead s) oPARAM 0 0))) ∧
  (∀ (s : State) (slot : Line), commandDue s 0x30 0xFF → parZeroBut slot [(0, 2)] = true →
    (par slot 0 2 ≠ 0xFFFF → par slot 0 2 < param s (·.craneCount) 0 → (∀ o ∈ s.crane.stock, o.idx ≠ par slot 0 2) →
      exec (.craneCancel slot) s = .next (settle s (deny (slotRead s) oNOT_FOUND 0 0))) ∧
    (par slot 0 2 = 0xFFFF → (s.crane.state = .faulted ∨ s.crane.move = none) →
      exec (.craneCancel slot) s = .next (settle s (deny (slotRead s) oNOT_FOUND 0 0))) ∧
    (∀ m b k id, par slot 0 2 = 0xFFFF → s.crane.state ≠ .faulted → s.crane.move = some m → m.req = .bed b k id →
      exec (.craneCancel slot) s = .next (settle s (deny (slotRead s) oSTATE 1 0)))) ∧
  ∀ (s : State) (slot : Line) (o : StockOrder), commandDue s 0x30 0xFF → parZeroBut slot [(0, 2)] = true →
    ((par slot 0 2 = o.idx ∧ o.idx ≠ 0xFFFF ∧ o.idx < param s (·.craneCount) 0) ∨
      (par slot 0 2 = 0xFFFF ∧ s.crane.state ≠ .faulted ∧ ∃ m, s.crane.move = some m ∧ m.req = .host o.idx)) →
    s.crane.stock.find? (·.idx == o.idx) = some o →
    (o.stage = .queued →
      ∃ u, exec (.craneCancel slot) s = .next (settle s u) ∧ gives u oDONE 1 0 0 ∧
        u.crane.cancelled = s.crane.cancelled + 1 ∧
        (∀ o' ∈ u.crane.stock, o'.idx = o.idx → o'.stage = .returning) ∧
        (∀ r ∈ u.stock.slotRes, r.req ≠ .host o.idx)) ∧
    (o.stage = .reading →
      ∃ u, exec (.craneCancel slot) s = .next (settle s u) ∧ gives u oDONE 1 0 0 ∧
        u.crane.cancelled = s.crane.cancelled + 1 ∧ u.stock = s.stock ∧
        (∀ o' ∈ u.crane.stock, o'.idx = o.idx → o'.stage = .returning)) ∧
    (o.stage = .failed → exec (.craneCancel slot) s = .next (settle s (deny (slotRead s) oSTATE 3 0))) ∧
    (o.stage = .returning → exec (.craneCancel slot) s = .next (settle s (deny (slotRead s) oTOO_LATE 0 0))) ∧
    (∀ m, o.stage = .inFlight → s.crane.move = some m →
      (m.abort = true → exec (.craneCancel slot) s = .next (settle s (deny (slotRead s) oSTATE 2 0))) ∧
      (m.abort = false → (s.crane.state = .dispatched ∨ s.crane.state = .lifting) →
        ∃ u, exec (.craneCancel slot) s = .next (settle s u) ∧ gives u oDONE 2 0 0 ∧
          u.crane.move = some { m with abort := true } ∧ u.crane.state = s.crane.state ∧
          (s.crane.lk.live = true → Output.craneAbort m.id ∈ u.out)) ∧
      (m.abort = false → s.crane.state = .travelling → available s m.src = false →
        exec (.craneCancel slot) s = .next (settle s (deny (slotRead s) oTOO_LATE 0 0))) ∧
      (m.abort = false → s.crane.state = .travelling → available s m.src = true →
        ∃ u, exec (.craneCancel slot) s = .next (settle s u) ∧ gives u oDONE 3 0 0 ∧ u.crane.state = .returning ∧
          u.crane.move = some { m with abort := true, turned := true }) ∧
      (m.abort = false → (s.crane.state = .setting ∨ s.crane.state = .returning) →
        exec (.craneCancel slot) s = .next (settle s (deny (slotRead s) oTOO_LATE 0 0))))

/-- CRANE_RECOVER of a FAULTED crane, link LIVE and no load reported: without a failed move outcome NONE makes it IDLE; a
failed move's piece is placed by the outcome declared (R152, R153), under the move's own reservation or at a place available without
one, a piece not lifted leaving its source first for AT_DESTINATION; where it is neither the result is FULL with the location kind
(R33). A host order held is returned FAULT_ABORT with the place declared and the mass reported (R133). That a move keeps no reservation
over a hall reset or a commit is R24, R40 and R205. That detail 3 judges the load state, which LIFTED, SET and DROPPED change too, is the
model's choice (log 89). The refusals come in the order of R152's table, and leave the crane FAULTED. -/
def Obligations.CraneRecover : Prop :=
  (∀ (s : State) (slot : Line) (tgt : Nat), commandDue s 0x31 tgt →
    (tgt ≠ 0xFF ∨ 3 < par slot 0 1 ∨ parZeroBut slot [(0, 1)] = false) →
    exec (recoverRow slot) s = .next (settle s (deny (slotRead s) oPARAM 0 0))) ∧
  (∀ (s : State) (slot : Line), commandDue s 0x31 0xFF → parZeroBut slot [(0, 1)] = true → par slot 0 1 ≤ 3 →
    let refuses (o : Byte) (d : Nat) : Prop := exec (recoverRow slot) s = .next (settle s (deny (slotRead s) o d 0))
    (s.crane.state ≠ .faulted → refuses oSTATE 1) ∧
    (s.crane.state = .faulted →
      (s.crane.lk.live = false → refuses oSTATE 2) ∧
      (s.crane.lk.live = true → s.crane.lk.load = .present → refuses oSTATE 3) ∧
      (s.crane.lk.live = true → s.crane.lk.load ≠ .present →
        (s.crane.move = none → par slot 0 1 ≠ 0 → refuses oPARAM 0) ∧
        (∀ m, s.crane.move = some m → par slot 0 1 = 0 → refuses oPARAM 0) ∧
        (∀ m, s.crane.move = some m → (par slot 0 1 = 1 ∨ par slot 0 1 = 2) → holds s m.ix m.plate = true →
          (plateAt s m.ix).st = .lost → refuses oSTATE 4)))) ∧
  ∀ (s : State) (slot : Line), commandDue s 0x31 0xFF → parZeroBut slot [(0, 1)] = true → s.crane.state = .faulted →
    s.crane.lk.live = true → s.crane.lk.load ≠ .present →
    (par slot 0 1 = 0 → s.crane.move = none →
      ∃ u, exec (.craneRecoverNone slot) s = .next (settle s u) ∧ u.crane.state = .idle ∧ u.crane.refusals = 0 ∧
        gives u oDONE 0 0 0) ∧
    (∀ m, s.crane.move = some m → holds s m.ix m.plate = true → m.ix < s.stock.table.length →
      (par slot 0 1 = 1 → (plateAt s m.ix).st ≠ .lost → m.lifted = false →
        ∃ u, exec (.craneRecoverAtSource slot) s = .next (settle s u) ∧ u.crane.state = .idle ∧ u.crane.move = none ∧
          u.crane.refusals = 0 ∧ gives u oDONE 0 0 0 ∧ (plateAt u m.ix).loc = (plateAt s m.ix).loc ∧
          (plateAt u m.ix).st = (plateAt s m.ix).st) ∧
      (par slot 0 1 = 1 → (plateAt s m.ix).st ≠ .lost → m.lifted = true →
        (m.src ≠ .scrap → mayPlace s m m.src →
          ∃ u, exec (.craneRecoverAtSource slot) s = .next (settle s u) ∧ u.crane.state = .idle ∧ u.crane.move = none ∧
            gives u oDONE 0 0 0 ∧
            plateAt u m.ix = { placedPlate s m.ix m.src with suspect := m.massBad || (plateAt s m.ix).suspect } ∧
            (∀ o, s.crane.stock = [o] → m.req = .host o.idx → m.live = true → returnsHeld u o (placedLoc s m.src) (measuredOf m))) ∧
        (¬ mayPlace s m m.src →
          exec (.craneRecoverAtSource slot) s = .next (settle s (deny (slotRead s) oFULL m.src.num.1 0)))) ∧
      (par slot 0 1 = 2 → (plateAt s m.ix).st ≠ .lost →
        let free := if m.lifted then s else stockLift s m.ix m.plate
        (mayPlace free m m.dst →
          ∃ u, exec (.craneRecoverAtDestination slot) s = .next (settle s u) ∧ u.crane.state = .idle ∧ u.crane.move = none ∧
            gives u oDONE 0 0 0 ∧ plateAt u m.ix = placedPlate free m.ix m.dst ∧
            (∀ o, s.crane.stock = [o] → m.req = .host o.idx → m.live = true → returnsHeld u o (placedLoc free m.dst) (measuredOf m))) ∧
        (¬ mayPlace free m m.dst →
          exec (.craneRecoverAtDestination slot) s = .next (settle s (deny (slotRead s) oFULL m.dst.num.1 0)))) ∧
      (par slot 0 1 = 3 →
        ∃ u, exec (.craneRecoverLost slot) s = .next (settle s u) ∧ u.crane.state = .idle ∧ u.crane.move = none ∧
          gives u oDONE 0 0 0 ∧ (plateAt u m.ix).st = .lost ∧
          (∀ o, s.crane.stock = [o] → m.req = .host o.idx → m.live = true → returnsHeld u o .lost (measuredOf m))))

/-! ## Commands of the stock unit -/

/-- PLATE_REGISTER with an invalid parameter answers PARAM with the number of the first one (R2, R17, R18), else fills the lowest EMPTY
record at the top of the infeed, or says why not (R18). Number 0 for the bytes that must be 0, judged last, is the model's choice (log 17),
and that a heat number ends in bytes of 0 its reading (log 29). -/
def Obligations.PlateRegister : Prop :=
  (∀ (s : State) (q : Line) (k : Nat), commandDue s 0x40 0xFF → firstInvalid (registerParams q) = some k →
    exec (.plateRegister q) s = .next (settle s (deny (slotRead s) oPARAM k 0))) ∧
  ∀ (s : State) (q : Line) (i : Nat), commandDue s 0x40 0xFF → parZeroBut q [(0, 0xF), (0x10, 0x14)] = true →
    1 ≤ par q 0 2 → 30 ≤ par q 2 2 → par q 2 2 ≤ 1500 → 1 ≤ par q 4 2 → par q 4 2 ≤ 24000 → 1 ≤ par q 6 2 → par q 6 2 ≤ 4000 →
    1 ≤ par q 8 4 → par q 8 4 ≤ 1000000 → par q 0xE 1 ≤ 12 → gradeOk (par q 0x10 8) = true →
    heatField (par q 0x18 12) (par q 0xE 1) = true →
    (findPlate s (par q 0 2) = none → s.stock.reservedIds.find? (·.1 == par q 0 2) = none → lowestEmpty s = some i →
      infeedCount s < 4 → liftingInfeed s = false →
      ∃ u p, exec (.plateRegister q) s = .next (settle s u) ∧ u.stock.table = s.stock.table.set i p ∧
        p.st = .stock ∧ p.remnant = false ∧ p.loc = .infeed (locatedInfeed s + 1) ∧ p.claim = .none ∧ p.suspect = false ∧
        p.outline = [] ∧ p.regTime = s.clock ∧ p.id = par q 0 2 ∧ p.thickness = par q 2 2 ∧ p.length = par q 4 2 ∧
        p.width = par q 6 2 ∧ p.mass = par q 8 4 ∧ p.parent = par q 0xC 2 ∧ p.heatLen = par q 0xE 1 ∧
        p.grade = BitVec.ofNat 64 (par q 0x10 8) ∧ gives u oDONE i (locatedInfeed s + 1) 0 ∧
        (queued u (.writeBack (.plate i)) = true)) ∧
    (∀ j, findPlate s (par q 0 2) = some j →
      exec (.plateRegister q) s = .next (settle s (deny (slotRead s) oDUPLICATE 1 j))) ∧
    (∀ e, findPlate s (par q 0 2) = none → s.stock.reservedIds.find? (·.1 == par q 0 2) = some e →
      exec (.plateRegister q) s = .next (settle s (deny (slotRead s) oDUPLICATE 2 (bedNum e.2)))) ∧
    (findPlate s (par q 0 2) = none → s.stock.reservedIds.find? (·.1 == par q 0 2) = none → lowestEmpty s = none →
      exec (.plateRegister q) s = .next (settle s (deny (slotRead s) oFULL 1 0))) ∧
    (findPlate s (par q 0 2) = none → s.stock.reservedIds.find? (·.1 == par q 0 2) = none → lowestEmpty s = some i →
      4 ≤ infeedCount s → exec (.plateRegister q) s = .next (settle s (deny (slotRead s) oFULL 2 0))) ∧
    (findPlate s (par q 0 2) = none → s.stock.reservedIds.find? (·.1 == par q 0 2) = none → lowestEmpty s = some i →
      infeedCount s < 4 → liftingInfeed s = true → exec (.plateRegister q) s = .next (settle s (deny (slotRead s) oSTATE 3 0)))

/-- PLATE_AMEND with an invalid parameter answers PARAM with the number of the first one (R17, R19). With valid ones an unknown plate gives NOT_FOUND; any change of a record under HOLD or LIFT, and any
but HEAT alone under BURN, gives STATE, detail 1; HEAT, GRADE and MASS write their fields, MASS clearing mass suspect; PLACE of a record
not LOST gives STATE, detail 2, and of a LOST one makes it STOCK at the place named, or says why not (R19). That a place kind which Table 12-12
does not define is invalid with PLACE not selected too is the model's reading of R217 (log 53), as that a heat number
ends in bytes of 0 (log 29). That plate ID 0 is a plate not found, and no invalid parameter, that a slot of 64 or more is judged with the
parameters and one beyond those configured after them, and number 0 for the bytes that must be 0 are the model's choice (log 17). -/
def Obligations.PlateAmend : Prop :=
  (∀ (s : State) (q : Line) (k : Nat), commandDue s 0x41 0xFF → firstInvalid (amendParams s q) = some k →
    exec (.plateAmend q) s = .next (settle s (deny (slotRead s) oPARAM k 0))) ∧
  ∀ (s : State) (q : Line), commandDue s 0x41 0xFF → parZeroBut q [(0, 6), (8, 0x18)] = true → amendValid s q →
    (findPlate s (par q 0 2) = none → exec (.plateAmend q) s = .next (settle s (deny (slotRead s) oNOT_FOUND 0 0))) ∧
    ∀ i, findPlate s (par q 0 2) = some i →
      let p := plateAt s i
      let set := par q 2 1
      let refuses (o : Byte) (d : Nat) : Prop := exec (.plateAmend q) s = .next (settle s (deny (slotRead s) o d 0))
      let writes (p' : Plate) : Prop :=
        ∃ u, exec (.plateAmend q) s = .next (settle s u) ∧ u.stock.table = s.stock.table.set i p' ∧ gives u oDONE i 0 0 ∧
          queued u (.writeBack (.plate i)) = true
      let fields : Plate := { p with
        heatLen := if bit set 0 then par q 5 1 else p.heatLen, heat := if bit set 0 then BitVec.ofNat 96 (par q 0x14 12) else p.heat,
        grade := if bit set 1 then BitVec.ofNat 64 (par q 0xC 8) else p.grade,
        mass := if bit set 2 then par q 8 4 else p.mass, suspect := !bit set 2 && p.suspect }
      (((∃ t e, p.claim = .hold t e) ∨ (∃ e, p.claim = .lift e)) → refuses oSTATE 1) ∧
      (∀ b, p.claim = .burn b → (set ≠ 1 → refuses oSTATE 1) ∧ (set = 1 → writes fields)) ∧
      (p.claim = .none → bit set 3 = false → writes fields) ∧
      (p.claim = .none → bit set 3 = true →
        (p.st ≠ .lost → refuses oSTATE 2) ∧
        (p.st = .lost → par q 3 1 = 1 →
          (liftingInfeed s = true → refuses oSTATE 3) ∧
          (liftingInfeed s = false → 4 ≤ infeedCount s → refuses oFULL 2) ∧
          (liftingInfeed s = false → infeedCount s < 4 →
            writes { fields with st := .stock, loc := .infeed (locatedInfeed s + 1) })) ∧
        (p.st = .lost → par q 3 1 = 4 →
          (fitsSlot s (par q 4 1) p.length p.width = false → refuses oSTATE 4) ∧
          (fitsSlot s (par q 4 1) p.length p.width = true → slotFree s (par q 4 1) = false → refuses oFULL 4) ∧
          (fitsSlot s (par q 4 1) p.length p.width = true → slotFree s (par q 4 1) = true →
            writes { fields with st := .stock, loc := .rack (par q 4 1) })) ∧
        (p.st = .lost → par q 3 1 = 5 →
          (8 ≤ overflowUsed s → refuses oFULL 3) ∧
          (overflowUsed s < 8 → writes { fields with st := .stock, loc := .overflow })))

/-- PLATE_RETIRE empties an unclaimed record, found by plate ID, that is LOST or located elsewhere than CRANE, the infeed top
if at the infeed, and named by no crane request of a bed or move; otherwise it answers NOT_FOUND or STATE (R20). That plate ID 0 is a
plate not found, and no invalid parameter, and detail 1 equal to 0 of PARAM for another parameter not 0 are the model's choice (log 17). -/
def Obligations.PlateRetire : Prop :=
  (∀ (s : State) (q : Line), commandDue s 0x42 0xFF → parZeroBut q [(0, 2)] = false →
    exec (.plateRetire q) s = .next (settle s (deny (slotRead s) oPARAM 0 0))) ∧
  ∀ (s : State) (q : Line), commandDue s 0x42 0xFF → parZeroBut q [(0, 2)] = true →
    (findPlate s (par q 0 2) = none → exec (.plateRetire q) s = .next (settle s (deny (slotRead s) oNOT_FOUND 0 0))) ∧
    (∀ i, findPlate s (par q 0 2) = some i →
      let p := plateAt s i
      let buried := p.st ≠ .lost ∧ ∃ n, p.loc = .infeed n ∧ n < locatedInfeed s
      (p.claim ≠ .none → exec (.plateRetire q) s = .next (settle s (deny (slotRead s) oSTATE 1 0))) ∧
      (p.claim = .none → p.st ≠ .lost → p.loc = .crane →
        exec (.plateRetire q) s = .next (settle s (deny (slotRead s) oSTATE 2 0))) ∧
      (p.claim = .none → buried → exec (.plateRetire q) s = .next (settle s (deny (slotRead s) oSTATE 3 0))) ∧
      (p.claim = .none → (p.st = .lost ∨ p.loc ≠ .crane) → ¬ buried → namedByCrane s i = true →
        exec (.plateRetire q) s = .next (settle s (deny (slotRead s) oSTATE 4 0))) ∧
      (p.claim = .none → (p.st = .lost ∨ p.loc ≠ .crane) → ¬ buried → namedByCrane s i = false →
        ∃ u, exec (.plateRetire q) s = .next (settle s u) ∧ u.stock.table = s.stock.table.set i .blank ∧
          gives u oDONE i 0 0 ∧ queued u (.writeBack (.plate i)) = true))

/-- REMNANT_FIND with an invalid parameter answers PARAM with the number of the first one (R17, R21); else it holds the smallest
fitting candidate with the next token and an expiry; with none it answers NOT_FOUND and the counter stays (R12, R21). Number 0 for the bytes
that must be 0, judged last, is the model's choice (log 17). -/
def Obligations.RemnantFind : Prop :=
  (∀ (s : State) (q : Line) (k : Nat), commandDue s 0x43 0xFF → firstInvalid (findParams q) = some k →
    exec (.remnantFind q) s = .next (settle s (deny (slotRead s) oPARAM k 0))) ∧
  ∀ (s : State) (q : Line), commandDue s 0x43 0xFF → parZeroBut q [(0, 6), (8, 8)] = true → 30 ≤ par q 0 2 → par q 0 2 ≤ 1500 →
    1 ≤ par q 2 2 → par q 2 2 ≤ 24000 → 1 ≤ par q 4 2 → par q 4 2 ≤ 4000 → gradeOk (par q 8 8) = true →
    let cand (i : Nat) (p : Plate) : Prop := s.stock.table[i]? = some p ∧
      findCandidate p (par q 0 2) (par q 2 2) (par q 4 2) (BitVec.ofNat 64 (par q 8 8)) = true
    ((∃ i p, cand i p) →
      ∃ i p u, cand i p ∧ (∀ j r, cand j r → p.length * p.width < r.length * r.width ∨
          (p.length * p.width = r.length * r.width ∧ p.id ≤ r.id)) ∧
        exec (.remnantFind q) s = .next (settle s u) ∧
        u.stock.table = s.stock.table.set i { p with claim := .hold s.stock.tokenCtr (s.clock + holdMs s) } ∧
        u.stock.tokenCtr = (if s.stock.tokenCtr = 0xFFFF then 1 else s.stock.tokenCtr + 1) ∧
        gives u oDONE p.id s.stock.tokenCtr.toNat (s.clock + holdMs s).toNat) ∧
    ((∀ i p, ¬ cand i p) → exec (.remnantFind q) s = .next (settle s (deny (slotRead s) oNOT_FOUND 0 0)))

/-- HOLD_DROP sets a claim HOLD with the token given to NONE, writes the record back and answers DONE; a plate ID or token of 0
gives PARAM; whatever else is found gives NOT_FOUND; HOLD_EXPIRED is not raised (R22). -/
def Obligations.HoldDrop : Prop :=
  ∀ (s : State) (q : Line), commandDue s 0x44 0xFF → parZeroBut q [(0, 4)] = true →
    ((par q 0 2 = 0 ∨ par q 2 2 = 0) →
      exec (.holdDrop q) s = .next (settle s (deny (slotRead s) oPARAM (if par q 0 2 = 0 then 1 else 2) 0))) ∧
    (par q 0 2 ≠ 0 → par q 2 2 ≠ 0 →
      (∀ i t e, findPlate s (par q 0 2) = some i → (plateAt s i).claim = .hold t e → t.toNat = par q 2 2 →
        ∃ u, exec (.holdDrop q) s = .next (settle s u) ∧
          u.stock.table = s.stock.table.set i { plateAt s i with claim := .none } ∧ gives u oDONE 0 0 0 ∧
          queued u (.writeBack (.plate i)) = true ∧ u.faults = s.faults ∧ u.engine.deferred = s.engine.deferred) ∧
      ((∀ i t e, findPlate s (par q 0 2) = some i → (plateAt s i).claim = .hold t e → t.toNat ≠ par q 2 2) →
        exec (.holdDrop q) s = .next (settle s (deny (slotRead s) oNOT_FOUND 0 0))))

/-! ## Answers of the MSP -/

/-- A result write answered DONE adds cause COMMAND and ends the command, for the BUSY result of a trigger (R210) the cause alone;
a refused one is queued again with WRITE_BACK set (R196, R211). -/
def Obligations.ResultWriteAnswer : Prop :=
  (∀ (s : State) (r : Req), engineHas s r → r.what = .busyResult →
    (∃ u, exec (.resultWriteAnswer .done) s = .next (settle s u) ∧ u.cmd = s.cmd ∧ u.loader = s.loader ∧
      hasBit u.faults.pending aCOMMAND = true ∧ u.engine.cur = none ∧ u.engine.queue = s.engine.queue ∧ u.path.msp = none) ∧
    (∃ u, exec (.resultWriteAnswer .refused) s = .next (settle s u) ∧ u.cmd = s.cmd ∧ u.faults.pending = s.faults.pending ∧
      hasBit u.faults.hall.flags fhWRITE_BACK = true ∧ u.engine.queue = s.engine.queue ++ [{ r with refused := true }])) ∧
  ∀ (s : State) (r : Req), engineHas s r → r.what = .result →
    (s.loader.pendingCommit = none →
      ∃ u, exec (.resultWriteAnswer .done) s = .next (settle s u) ∧ u.cmd.current = none ∧
        hasBit u.faults.pending aCOMMAND = true ∧ u.engine.cur = none ∧ u.path.msp = none) ∧
    (∀ v, s.loader.pendingCommit = some v → s.cmd.mode = .halt →
      ∃ u, exec (.resultWriteAnswer .done) s = .next (settle s u) ∧ u.cmd.current = none ∧
        u.loader.commitNo = s.loader.commitNo + 1 ∧ u.loader.commitVal = v ∧ u.loader.ver.isSome = true) ∧
    (∀ v, s.loader.pendingCommit = some v → s.cmd.mode ≠ .halt →
      ∃ u, exec (.resultWriteAnswer .done) s = .next (settle s u) ∧ u.cmd.current = none ∧
        u.loader = { s.loader with pendingCommit := none }) ∧
    (∃ u, exec (.resultWriteAnswer .refused) s = .next (settle s u) ∧ u.cmd = s.cmd ∧
      hasBit u.faults.hall.flags fhWRITE_BACK = true ∧ u.engine.queue = s.engine.queue ++ [{ r with refused := true }])

/-- A line of a write-back before its last is answered and the next may be granted, a refused one setting WRITE_BACK; the last line ends
the write-back, and its image stays pending where any line of it was refused (R16, R196). What waited for its answer alone, DONE or
REFUSED, then comes about, what waits for another answer still waits (R12, R16, R176, R211). A refused TAKEN write sets WRITE_BACK and is
not repeated (R42). -/
def Obligations.WriteBackAndTakenAnswer : Prop :=
  (∀ (s : State) (c : Current) (r : RecId), s.path.msp = some .engine → s.engine.cur = some c → c.req.what = .writeBack r →
    r ≠ .verdict → c.lines ≠ [] →
    (∃ u, exec (.writeBackAnswer .done) s = .next (settle s u) ∧ u.engine = s.engine ∧ u.path.msp = none ∧ u.faults = s.faults) ∧
    (∃ u, exec (.writeBackAnswer .refused) s = .next (settle s u) ∧ u.path.msp = none ∧
      u.engine = { s.engine with cur := some { c with refused := true } } ∧ hasBit u.faults.hall.flags fhWRITE_BACK = true)) ∧
  (∀ (s : State) (c : Current) (r : RecId), s.path.msp = some .engine → s.engine.cur = some c → c.req.what = .writeBack r →
    r ≠ .verdict → c.lines = [] → s.engine.deferred = [] →
    (∃ u, exec (.writeBackAnswer .done) s = .next (settle s u) ∧ u.engine.cur = none ∧ u.path.msp = none ∧
      u.faults = s.faults ∧ (r ∈ u.engine.refused ↔ c.refused = true)) ∧
    (∃ u, exec (.writeBackAnswer .refused) s = .next (settle s u) ∧ u.engine.cur = none ∧ u.path.msp = none ∧
      hasBit u.faults.hall.flags fhWRITE_BACK = true ∧ r ∈ u.engine.refused)) ∧
  (∀ (s : State) (c : Current) (r : RecId) (a : Ack), s.path.msp = some .engine → s.engine.cur = some c →
    c.req.what = .writeBack r → r ≠ .verdict → c.lines = [] →
    ∃ u, exec (.writeBackAnswer a) s = .next (settle s u) ∧ u.engine.cur = none ∧ u.path.msp = none ∧
      u.engine.deferred = waitsLeft s.engine.deferred c.req.ticket ∧
      (∀ act, s.engine.deferred = [⟨[c.req.ticket], act⟩] → actDone s u act) ∧
      (∀ d, s.engine.deferred = [d] → d.waits.filter (· != c.req.ticket) ≠ [] →
        u.cmd = s.cmd ∧ u.faults.pending = s.faults.pending ∧ u.engine.queue = s.engine.queue)) ∧
  (∀ (s : State) (q : Req), engineHas s q → isTaken q = true →
    (exec (.takenWriteAnswer .done) s = .next (settle s (slotRead s))) ∧
    (∃ u, exec (.takenWriteAnswer .refused) s = .next (settle s u) ∧ u.engine.cur = none ∧ u.engine.queue = s.engine.queue ∧
      hasBit u.faults.hall.flags fhWRITE_BACK = true))

/-- The reads of a bed's element and ownership word (R42, R43, R48, R51, R63, R196). That an order ended before its element read is
answered takes nothing from it, nor one in STOPPING in a hall reset (log 86), and that a bed STOPPED or FAULTED, or STOPPING in a hall reset, only takes flag MEMORY from a refused
ownership read, are the model's choices (logs 56, 63). That `ordReservedSet` judges undefined numbers of the result fields too is the
model's reading (log 53). -/
def Obligations.BedElementAndOwnershipRead : Prop :=
  (∀ (s : State) (q : Req) (b : BedId) (h : Hand) (d : Line), engineHas s q → q.what = .bedElement b →
    (runOf s b).hand = some h → (runOf s b).state = .accepting → (runOf s b).acc = .element →
    (ordReservedSet d = false →
      ∃ u, exec (.bedElementReadAnswer (.done d)) s = .next (settle s u) ∧ (runOf u b).state = .accepting ∧
        (runOf u b).hand = some { h with order := d } ∧ (runOf u b).acc = .lookup false ∧
        u.engine.queue = s.engine.queue ++ [⟨s.engine.nextTicket, .bedTaken b, h.addr, 0, 0, false⟩]) ∧
    (ordReservedSet d = true →
      ∃ u, exec (.bedElementReadAnswer (.done d)) s = .next (settle s u) ∧ (runOf u b).state = .waiting ∧
        (runOf u b).hand = none ∧ (u.engine.queue.getLast?.map fun r => (r.what, r.addr, fld r.data.toNat 0x20 2)) =
          some (.bedReturn b, h.addr, 1 + 256 * 1)) ∧
    (∃ u, exec (.bedElementReadAnswer .refused) s = .next (settle s u) ∧ (runOf u b).state = .faulted ∧
      hasBit (u.faults.beds.get b).flags fMEMORY = true)) ∧
  (∀ (s : State) (q : Req) (b : BedId) (a : ReadAnswer), engineHas s q → q.what = .bedElement b →
    ((runOf s b).hand = none ∨ (runOf s b).state ≠ .accepting ∨ (runOf s b).acc ≠ .element) →
    exec (.bedElementReadAnswer a) s = .next (settle s (slotRead s))) ∧
  (∀ (s : State) (q : Req) (b : BedId) (d : Line), engineHas s q → q.what = .bedOwner b →
    (fld d.toNat 0 4 = 1 → q.addr = ringAddr s b → (runOf s b).state = .waiting → (runOf s b).ret = none →
      ∃ u, exec (.bedOwnershipReadAnswer (.done d)) s = .next (settle s u) ∧ (runOf u b).state = .accepting ∧
        (bedOf u b).ring = { (bedOf s b).ring with taken := (bedOf s b).ring.taken + 1 } ∧
        ((runOf u b).hand.map fun h => (h.addr, h.idx)) = some (ringAddr s b, (bedOf s b).ring.pos)) ∧
    ((fld d.toNat 0 4 ≠ 1 ∨ q.addr ≠ ringAddr s b ∨ (runOf s b).state ≠ .waiting ∨ (runOf s b).ret ≠ none) →
      exec (.bedOwnershipReadAnswer (.done d)) s = .next (settle s (slotRead s))) ∧
    ((runOf s b).state ≠ .absent → (runOf s b).state ≠ .stopped → (runOf s b).state ≠ .faulted →
      ((runOf s b).state ≠ .stopping ∨ s.cmd.mode ≠ .resetting) →
      ∃ u, exec (.bedOwnershipReadAnswer .refused) s = .next (settle s u) ∧ (runOf u b).state = .faulted ∧
        (runOf u b).hand = none ∧ hasBit (u.faults.beds.get b).flags fMEMORY = true) ∧
    (((runOf s b).state = .stopped ∨ (runOf s b).state = .faulted ∨
        ((runOf s b).state = .stopping ∧ s.cmd.mode = .resetting)) →
      ∃ u, exec (.bedOwnershipReadAnswer .refused) s = .next (settle s u) ∧ u.beds = s.beds ∧
        hasBit (u.faults.beds.get b).flags fMEMORY = true))

/-- The lines of a mark list fill the mark table, judged by check 9 at their end; an order that passes goes on to check 10, without a
descriptor to check 11, and its descriptor is read, kept and judged (R34, R48, R98, R100). A refused read faults the bed with MEMORY
(R51). The cause shown for an entry that breaks several conditions of R100 is the first in its table's order, and a descriptor read
answered after its order's end, or in STOPPING in a hall reset, is ignored: the model's choices (logs 54, 56, 86). -/
def Obligations.MarkListAndDescriptorRead : Prop :=
  (∀ (s : State) (b : BedId) (h : Hand) (f : Fetch) (d : Line), s.path.msp = some (.fetch b) → (runOf s b).fetch = some f →
    f.use = .marks → f.discard = false → (runOf s b).hand = some h →
    let tbl := (runOf s b).marks.table ++
      (listPart d (runOf s b).marks.table.length (ordMarks h.order)).map (⟨·, .pending, 0, .none, false⟩)
    (tbl.length < ordMarks h.order →
      ∃ u, exec (.markListReadAnswer (.done d)) s = .next (settle s u) ∧ (runOf u b).marks.table = tbl ∧
        (runOf u b).fetch = none ∧ u.path.msp = none ∧ (runOf u b).state = (runOf s b).state) ∧
    (ordMarks h.order ≤ tbl.length → ∀ k c, markCheck tbl (h.look.getD ⟨0, 0, 0, 0, false⟩) = some (k, c) →
      ∃ u, exec (.markListReadAnswer (.done d)) s = .next (settle s u) ∧ (runOf u b).state = .waiting ∧
        (runOf u b).marks.formFail = some (k, c) ∧
        (u.engine.queue.getLast?.map fun r => (r.what, fld r.data.toNat 0x20 2)) = some (.bedReturn b, 1 + 256 * 9)) ∧
    (ordMarks h.order ≤ tbl.length → markCheck tbl (h.look.getD ⟨0, 0, 0, 0, false⟩) = none →
      ∃ u, exec (.markListReadAnswer (.done d)) s = .next (settle s u) ∧
        (ordDescAddr h.order = 0 → (h.look.map (·.away)).getD false = true → rejects u b h 11) ∧
        (ordDescAddr h.order = 0 → (h.look.map (·.away)).getD false = false →
          (runOf u b).acc = .burn ∧ (runOf u b).marks.table = tbl ∧ (runOf u b).hand = some h ∧ u.engine = s.engine) ∧
        (ordDescAddr h.order ≠ 0 → listAddressOk s (ordDescAddr h.order) 64 = false → rejects u b h 10) ∧
        (ordDescAddr h.order ≠ 0 → listAddressOk s (ordDescAddr h.order) 64 = true →
          (runOf u b).acc = .descriptor ∧ (runOf u b).marks.table = tbl ∧ (runOf u b).hand = some h ∧
          u.engine.queue = s.engine.queue ++ [⟨s.engine.nextTicket, .descriptor b, ordDescAddr h.order, 0, 0, false⟩])) ∧
    ∃ u, exec (.markListReadAnswer .refused) s = .next (settle s u) ∧ faulted u b fMEMORY) ∧
  (∀ (s : State) (q : Req) (b : BedId) (h : Hand) (d : Line), engineHas s q → q.what = .descriptor b →
    (runOf s b).hand = some h → (runOf s b).state = .accepting → (runOf s b).acc = .descriptor →
    (descOk d = true →
      ∃ u, exec (.descriptorReadAnswer (.done d)) s = .next (settle s u) ∧ (runOf u b).acc = .reserve ∧
        (runOf u b).hand = some { h with desc := some d }) ∧
    (descOk d = false →
      ∃ u, exec (.descriptorReadAnswer (.done d)) s = .next (settle s u) ∧ (runOf u b).state = .waiting ∧
        (u.engine.queue.getLast?.map fun r => (r.what, fld r.data.toNat 0x20 2)) = some (.bedReturn b, 1 + 256 * 10)) ∧
    ∃ u, exec (.descriptorReadAnswer .refused) s = .next (settle s u) ∧ faulted u b fMEMORY) ∧
  ∀ (s : State) (q : Req) (b : BedId) (a : ReadAnswer), engineHas s q → q.what = .descriptor b →
    ((runOf s b).hand = none ∨ (runOf s b).state ≠ .accepting ∨ (runOf s b).acc ≠ .descriptor) →
    exec (.descriptorReadAnswer a) s = .next (settle s (slotRead s))

/-- A line of the segment list: in CHECKING it is judged, an invalid step returning CHECK_FAILED, the last line leading to
STAGING (R55); in streaming it joins the prefetch FIFO (R78). A refused read faults the bed with MEMORY (R51). A bed asks for the next
line of its list with no fetch outstanding and, in streaming, room for two steps (R55, R78). -/
def Obligations.SegmentListRead : Prop :=
  (∀ (s : State) (b : BedId) (h : Hand) (f : Fetch) (c : Cursor) (d : Line), s.path.msp = some (.fetch b) →
    (runOf s b).fetch = some f → f.use = .check → f.discard = false → (runOf s b).hand = some h → (runOf s b).chk = some c →
    let n := (runOf s b).stream.nextLine
    let out := checkRun (formCfg s b h) 20000 c (listPart d (2 * n) (ordSteps h.order))
    (∀ x, out.2 = some x →
      ∃ u, exec (.checkReadAnswer (.done d)) s = .next (settle s u) ∧ (runOf u b).state = .waiting ∧
        (u.engine.queue.getLast?.map fun r => (r.what, fld r.data.toNat 0x20 1)) = some (.bedReturn b, 2)) ∧
    (out.2 = none → 2 * (n + 1) < ordSteps h.order →
      ∃ u, exec (.checkReadAnswer (.done d)) s = .next (settle s u) ∧ (runOf u b).state = (runOf s b).state ∧
        (runOf u b).chk = some out.1 ∧ (runOf u b).stream.nextLine = n + 1) ∧
    (out.2 = none → ordSteps h.order ≤ 2 * (n + 1) →
      ∃ u, exec (.checkReadAnswer (.done d)) s = .next (settle s u) ∧ (runOf u b).state = .staging) ∧
    (∃ u, exec (.checkReadAnswer .refused) s = .next (settle s u) ∧ (runOf u b).state = .faulted ∧
      hasBit (u.faults.beds.get b).flags fMEMORY = true)) ∧
  (∀ (s : State) (b : BedId) (h : Hand) (f : Fetch) (d : Line), s.path.msp = some (.fetch b) →
    (runOf s b).fetch = some f → f.use = .stream → f.discard = false → (runOf s b).hand = some h →
    (∃ u, exec (.streamFetchAnswer (.done d)) s = .next (settle s u) ∧ (runOf u b).fetch = none ∧
      (runOf u b).stream = { (runOf s b).stream with
        fifo := (runOf s b).stream.fifo ++ listPart d (2 * (runOf s b).stream.nextLine) (ordSteps h.order),
        nextLine := (runOf s b).stream.nextLine + 1 }) ∧
    (∃ u, exec (.streamFetchAnswer .refused) s = .next (settle s u) ∧ (runOf u b).state = .faulted ∧
      hasBit (u.faults.beds.get b).flags fMEMORY = true)) ∧
  (∀ (s : State) (b : BedId) (h : Hand), (runOf s b).hand = some h → (runOf s b).fetch = none →
    let n := (streamOf s b).nextLine
    let asks (use : FetchFor) : Prop :=
      askFetch s b = setRun s b { runOf s b with fetch := some ⟨use, ordSegAddr h.order + 64 * n, false, false⟩ }
    ((runOf s b).state = .checking → 2 * n < ordSteps h.order → asks .check) ∧
    (activeState (runOf s b).state = true → 2 * n < ordSteps h.order → (streamOf s b).fifo.length + 2 ≤ 32 → asks .stream) ∧
    (activeState (runOf s b).state = true → (ordSteps h.order ≤ 2 * n ∨ 32 < (streamOf s b).fifo.length + 2) → askFetch s b = s))

/-- A return write answered DONE passes the element to the host, advances the counters and raises the attention asked for, and what
waited for it alone comes about; a bed WAITING then reads its ring position, but behind the result of a BED_START that is still to be
written (R43, R66; that this read is left to the result is the model's reading, log 12), and the crane ring, while it runs, reads its own
(R132, R136; that it reads none while stopped is the model's choice, log 81). A refused one is queued again at the tail with WRITE_BACK
set, and what waits for it still waits (R44, R67, R136, R196, R211). -/
def Obligations.ReturnAnswers : Prop :=
  (∀ (s : State) (q : Req), engineHas s q →
    (∀ b t, q.what = .bedReturn b → (runOf s b).ret = some t →
      (∃ u, exec (.bedReturnAnswer .done) s = .next (settle s u) ∧ (runOf u b).ret = none ∧
        u.engine.deferred = waitsLeft s.engine.deferred q.ticket ∧
        (∀ act, s.engine.deferred = [⟨[q.ticket], act⟩] → actDone s u act)) ∧
      (∃ u, exec (.bedReturnAnswer .refused) s = .next (settle s u) ∧ u.engine.deferred = s.engine.deferred ∧ u.cmd = s.cmd)) ∧
    (∀ i, q.what = .craneReturn i →
      (∃ u, exec (.craneReturnAnswer .done) s = .next (settle s u) ∧ u.crane.stock = s.crane.stock.filter (·.idx != i) ∧
        u.engine.deferred = waitsLeft s.engine.deferred q.ticket ∧
        (∀ act, s.engine.deferred = [⟨[q.ticket], act⟩] → actDone s u act)) ∧
      (∃ u, exec (.craneReturnAnswer .refused) s = .next (settle s u) ∧ u.engine.deferred = s.engine.deferred ∧
        u.cmd = s.cmd))) ∧
  (∀ (s : State) (q : Req) (b : BedId) (t : Return), engineHas s q → q.what = .bedReturn b → (runOf s b).ret = some t →
    s.engine.deferred = [] →
    (∃ u, exec (.bedReturnAnswer .done) s = .next (settle s u) ∧ (runOf u b).ret = none ∧
      (bedOf u b).ring.pos = (if (bedOf s b).ring.pos + 1 < (bedCfg s b).count then (bedOf s b).ring.pos + 1 else 0) ∧
      (bedOf u b).ring.returned = (bedOf s b).ring.returned + 1 ∧
      (bedOf u b).ring.raised = (bedOf s b).ring.raised + (if t.attn then 1 else 0) ∧
      u.faults.pending = (if t.attn then setBit s.faults.pending (bedNum b) else s.faults.pending) ∧
      ((runOf s b).state = .waiting → ∃ r ∈ u.engine.queue, r.what = .bedOwner b ∧ r.addr = ringAddr u b) ∧
      ((runOf s b).state ≠ .waiting → u.engine.queue = s.engine.queue)) ∧
    (∃ u, exec (.bedReturnAnswer .refused) s = .next (settle s u) ∧ (runOf u b).ret = some t ∧ bedOf u b = bedOf s b ∧
      u.engine.queue = s.engine.queue ++ [{ q with refused := true }] ∧ hasBit u.faults.hall.flags fhWRITE_BACK = true)) ∧
  (∀ (s : State) (q : Req) (b : BedId) (t : Return) (ws : List Nat), engineHas s q → q.what = .bedReturn b →
    (runOf s b).ret = some t → s.engine.deferred = [⟨ws, .ownerRead b⟩] → q.ticket ∉ ws → ws ≠ [] →
    ∃ u, exec (.bedReturnAnswer .done) s = .next (settle s u) ∧ (runOf u b).ret = none ∧ u.engine.queue = s.engine.queue ∧
      u.engine.deferred = s.engine.deferred) ∧
  (∀ (s : State) (q : Req) (i : Nat) (o : StockOrder), engineHas s q → q.what = .craneReturn i →
    s.crane.stock.find? (·.idx == i) = some o → s.engine.deferred = [] →
    (∃ u, exec (.craneReturnAnswer .done) s = .next (settle s u) ∧ u.crane.stock = s.crane.stock.filter (·.idx != i) ∧
      u.crane.returned = s.crane.returned + 1 ∧ u.crane.raised = s.crane.raised + (if crAttn o.order then 1 else 0) ∧
      u.faults.pending = (if crAttn o.order then setBit s.faults.pending aRETURN_CRANE else s.faults.pending) ∧
      (s.crane.ownRead = false → (s.cmd.mode = .run ∨ s.cmd.mode = .hold) → u.engine.queue = s.engine.queue ++
        [⟨s.engine.nextTicket, .craneOwner s.crane.ringPos, craneAddr s s.crane.ringPos, 0, 0, false⟩]) ∧
      (s.cmd.mode ≠ .run → s.cmd.mode ≠ .hold → u.engine.queue = s.engine.queue)) ∧
    (∃ u, exec (.craneReturnAnswer .refused) s = .next (settle s u) ∧ u.crane = s.crane ∧
      u.engine.queue = s.engine.queue ++ [{ q with refused := true }] ∧ hasBit u.faults.hall.flags fhWRITE_BACK = true))

/-- The crane ring reads (R132, R196) and the 13 checks of an order in their order, with the LIFT claim and the reservation of one
accepted, a hold of the order's token converted (R10, R134). That RESERVED_SET judges undefined enumerations of the result fields too is
the model's reading (log 53). That the answer for an order that has ended before it takes nothing, and that a refused one is then not
queued again, is the model's choice (log 60). -/
def Obligations.CraneRingReads : Prop :=
  (∀ (s : State) (q : Req) (i : Nat) (d : Line), engineHas s q → q.what = .craneOwner i → i = s.crane.ringPos →
    (fld d.toNat 0 4 = 1 → mayTake s = true →
      ∃ u, exec (.craneOwnershipReadAnswer (.done d)) s = .next (settle s u) ∧ u.crane.taken = s.crane.taken + 1 ∧
        u.crane.stock = s.crane.stock ++ [⟨i, craneAddr s i, 0, 0, .none, 0, .reading⟩]) ∧
    (fld d.toNat 0 4 ≠ 1 →
      ∃ u, exec (.craneOwnershipReadAnswer (.done d)) s = .next (settle s u) ∧ u.crane = { s.crane with ownRead := false }) ∧
    (∃ u, exec (.craneOwnershipReadAnswer .refused) s = .next (settle s u) ∧ u.crane = { s.crane with ownRead := false } ∧
      hasBit u.faults.hall.flags fhWRITE_BACK = true)) ∧
  (∀ (s : State) (q : Req) (i j : Nat) (o : StockOrder) (d : Line), engineHas s q → q.what = .craneElement i →
    s.crane.stock = [o] → o.idx = i → o.stage = .reading →
    let r : Raw := (lineHalves d).1
    let p := plateAt s j
    let back (code : Nat) (l : Loc) : Prop :=
      ∃ u, exec (.craneElementReadAnswer (.done d)) s = .next (settle s u) ∧ u.stock = s.stock ∧ returnsOrder u o r code l
    let takes (l : Loc) (slots : List SlotRes) (bay : List OverRes) : Prop :=
      ∃ u, exec (.craneElementReadAnswer (.done d)) s = .next (settle s u) ∧ acceptsOrder s u o r j l slots bay ∧
        queued u (.writeBack (.plate j)) = true
    let here := p.st ≠ .lost ∧ p.loc ≠ .crane ∧ underRemnantOut s j = none
    let claimed := p.claim = .none ∨ ∃ t e, p.claim = .hold t e ∧ t = crToken r ∧ t ≠ 0
    (crReservedSet r = true → back 1 .none) ∧
    (crReservedSet r = false → findPlate s (crPlate r) = none → back 2 .none) ∧
    (crReservedSet r = false → findPlate s (crPlate r) = some j →
      (p.st = .lost → back 3 .lost) ∧
      (p.st ≠ .lost → p.loc = .crane → back 3 .crane) ∧
      (p.st ≠ .lost → p.loc ≠ .crane → underRemnantOut s j ≠ none → back 4 p.loc) ∧
      (here → ((∃ b, p.claim = .burn b) ∨ ∃ e, p.claim = .lift e) → back 4 p.loc) ∧
      (here → ∀ t e, p.claim = .hold t e → (t ≠ crToken r ∨ t = 0) → back 5 p.loc) ∧
      (here → claimed → p.suspect = true → back 6 p.loc) ∧
      (here → claimed → p.suspect = false → p.st = .stock → param s (·.rated) 0 < p.mass → back 7 p.loc) ∧
      (here → claimed → p.suspect = false → (p.st = .stock → p.mass ≤ param s (·.rated) 0) →
        (∀ b, crKind r = 1 → crNum r = bedNum b →
          ((p.loc = .bed b ∨ present s b = false) → back 8 p.loc) ∧
          (p.loc ≠ .bed b → present s b = true →
            ((locatedAt s (.bed b) ≠ [] ∨ bedTakes s b p.id [.accepting] = false) → back 13 p.loc) ∧
            (locatedAt s (.bed b) = [] → bedTakes s b p.id [.accepting] = true → takes (.bed b) [] []))) ∧
        (crKind r = 1 → 4 ≤ crNum r → back 8 p.loc) ∧
        (crKind r = 2 →
          (autoSlot s p.length p.width = none → back 10 p.loc) ∧
          (∀ n, autoSlot s p.length p.width = some n → takes (.rack n) [⟨n, p.id, .host i⟩] [])) ∧
        (∀ n, crKind r = 3 → crNum r = n →
          ((p.loc = .rack n ∨ rackSlots s ≤ n ∨ fitsSlot s n p.length p.width = false) → back 8 p.loc) ∧
          (p.loc ≠ .rack n → n < rackSlots s → fitsSlot s n p.length p.width = true →
            (slotFree s n = false → back 9 p.loc) ∧
            (slotFree s n = true → takes (.rack n) [⟨n, p.id, .host i⟩] []))) ∧
        (crKind r = 4 →
          (p.loc = .overflow → back 8 p.loc) ∧
          (p.loc ≠ .overflow → 8 ≤ overflowUsed s → back 11 p.loc) ∧
          (p.loc ≠ .overflow → overflowUsed s < 8 → takes .overflow [] [⟨p.id, .host i⟩])) ∧
        (crKind r = 5 →
          (∀ n, p.loc = .infeed n → back 8 p.loc) ∧
          ((∀ n, p.loc ≠ .infeed n) → 4 ≤ infeedCount s → back 12 p.loc) ∧
          ((∀ n, p.loc ≠ .infeed n) → infeedCount s < 4 → takes (.infeed 0) [] [])) ∧
        (crKind r = 6 → p.loc ≠ .scrap → takes .scrap [] []))) ∧
    (∃ u, exec (.craneElementReadAnswer .refused) s = .next (settle s u) ∧ u.crane = s.crane ∧
      u.engine.queue = s.engine.queue ++ [{ q with refused := false }] ∧ hasBit u.faults.hall.flags fhWRITE_BACK = true)) ∧
  (∀ (s : State) (q : Req) (i : Nat), engineHas s q → q.what = .craneElement i →
    (∀ o, s.crane.stock.find? (·.idx == i) = some o → o.stage ≠ .reading) →
    (∀ d, exec (.craneElementReadAnswer (.done d)) s = .next (settle s (slotRead s))) ∧
    (∃ u, exec (.craneElementReadAnswer .refused) s = .next (settle s u) ∧ u.crane = s.crane ∧
      u.engine.queue = s.engine.queue ∧ hasBit u.faults.hall.flags fhWRITE_BACK = true))

/-- The verification: checks 1 to 3 of line 0, checks 4 to 11 at the last line, each failure with its code and details, the
regions joined to the retry set once checks 5 to 9 have passed (R201, R202); the table scan with its collection checks and the write-back
of the records changed before the verdict (R203, R204); a refused read ends it with MEMORY, and the verdict write's answer ends it, with
a hall status write where an anchor is in force (R205 to R207). The order and the field reported of the conditions of check 10 are the
model's (log 18), and so are the details that R201 does not give, which are 0 (log 80). What the scan does not judge of a
record, and that any byte of an EMPTY record other than 0 marks it changed, is the model's reading of R203 (log 26). -/
def Obligations.Verification : Prop :=
  (∀ (s : State) (q : Req) (v : Verif) (n : Nat) (d : Line), engineHas s q → q.what = .anchorLine n → s.loader.ver = some v →
    (n = 0 → v.lines = [] → fld d.toNat 0 4 = 0x31344850 → fld d.toNat 4 2 = 1 → 512 ≤ fld d.toNat 6 2 →
      fld d.toNat 6 2 ≤ 960 → fld d.toNat 6 2 % 64 = 0 →
      ∃ u, exec (.anchorReadAnswer (.done d)) s = .next (settle s u) ∧ u.loader.ver = some { v with lines := [d] } ∧
        u.engine.queue = s.engine.queue ++ [⟨s.engine.nextTicket, .anchorLine 1, s.loader.base + 64, 0, 0, false⟩]) ∧
    (n = 0 → v.lines = [] →
      let fails (code d1 : Nat) : Prop :=
        ∃ u, exec (.anchorReadAnswer (.done d)) s = .next (settle s u) ∧ verdictOf u = some (code, word d1, word 0)
      (fld d.toNat 0 4 ≠ 0x31344850 → fails 1 (fld d.toNat 0 4)) ∧
      (fld d.toNat 0 4 = 0x31344850 → fld d.toNat 4 2 ≠ 1 → fails 2 (fld d.toNat 4 2)) ∧
      (fld d.toNat 0 4 = 0x31344850 → fld d.toNat 4 2 = 1 →
        (fld d.toNat 6 2 < 512 ∨ 960 < fld d.toNat 6 2 ∨ fld d.toNat 6 2 % 64 ≠ 0) → fails 3 (fld d.toNat 6 2))) ∧
    (∃ u, exec (.anchorReadAnswer .refused) s = .next (settle s u) ∧ verdictOf u = some (12, word q.addr, word 0))) ∧
  (∀ (s : State) (q : Req) (v : Verif) (n : Nat) (d : Line), engineHas s q → q.what = .anchorLine n → s.loader.ver = some v → n ≠ 0 →
    let x := anchorNat (v.lines ++ [d])
    let len := fld x 6 2
    let a := anchorOf x
    let base := s.loader.base
    let fails (f : Fail) : Prop :=
      ∃ u, exec (.anchorReadAnswer (.done d)) s = .next (settle s u) ∧ verdictOf u = some (f.1, word f.2.1, word f.2.2)
    let failsJoined (f : Fail) : Prop :=
      ∃ u, exec (.anchorReadAnswer (.done d)) s = .next (settle s u) ∧ verdictOf u = some (f.1, word f.2.1, word f.2.2) ∧
        (u.loader.ver.bind (·.cand)) = some a
    (64 * (n + 1) < len →
      ∃ u, exec (.anchorReadAnswer (.done d)) s = .next (settle s u) ∧ u.loader.ver = some { v with lines := v.lines ++ [d] } ∧
        u.engine.queue =
          s.engine.queue ++ [⟨s.engine.nextTicket, .anchorLine (n + 1), base + 64 * (n + 1), 0, 0, false⟩]) ∧
    (len ≤ 64 * (n + 1) →
      (checksum x len ≠ 0 → fails (4, checksum x len, 0)) ∧
      (checksum x len = 0 →
        (∀ p, (bases a).find? (fun p => p.2.1 % 64 != 0) = some p → fails (5, p.1, p.2.2)) ∧
        ((∀ p ∈ bases a, p.2.1 % 64 = 0) →
          ((a.memMiB < 16 ∨ 4096 < a.memMiB) → fails (6, 6, 0)) ∧
          (∀ r, 16 ≤ a.memMiB → a.memMiB ≤ 4096 →
            (regionList base a).find? (fun r => 1048576 * a.memMiB < r.2.1 + r.2.2.1) = some r → fails (6, r.1, r.2.2.2)) ∧
          (outsideCheck base a = none →
            (∀ f, overlapIn (regionList base a) = some f → fails f) ∧
            (overlapIn (regionList base a) = none →
              (¬ a.craneCount ∈ [4, 8, 16, 32, 64] → fails (8, 11, 0)) ∧
              (a.craneCount ∈ [4, 8, 16, 32, 64] →
                (∀ b, (presentBeds a).find? (fun b => !powerOfTwo (a.beds.get b).count) = some b → fails (8, 14, bedNum b)) ∧
                ((∀ b ∈ presentBeds a, powerOfTwo (a.beds.get b).count = true) →
                  (a.capacity < 64 ∨ 1024 < a.capacity ∨ a.capacity % 64 ≠ 0) → fails (9, a.capacity, 0))))))) ∧
      (regionChecks base x = none →
        (∀ f, paramCheck x len a = some f → failsJoined f) ∧
        (paramCheck x len a = none → presentBeds a = [] → failsJoined (11, 0, 0)) ∧
        (paramCheck x len a = none → presentBeds a ≠ [] →
          ∃ u, exec (.anchorReadAnswer (.done d)) s = .next (settle s u) ∧
            (u.loader.ver.map fun v => (v.stage, v.cand)) = some (.scan 0, some a) ∧
            u.engine.queue = s.engine.queue ++ [⟨s.engine.nextTicket, .scanRead 0 false, a.table, 0, 0, false⟩])))) ∧
  (∀ (s : State) (v : Verif) (a : Anchor) (t : Transaction), s.cmd.mode ≠ .startUp → s.loader.ver = some v → v.cand = some a →
    (∃ r ∈ regionsOf s.loader.base a, touches t r.2.1 r.2.2 = true) → mustRetry s t = true) ∧
  (∀ (s : State) (q : Req) (v : Verif) (a : Anchor) (i : Nat) (l d : Line) (p : Plate), engineHas s q → s.loader.ver = some v →
    v.cand = some a → q.what = .scanRead i true → v.first = some l → Plate.scan? l d = some p → a.capacity ≤ i + 1 →
    let tbl := v.table ++ [(fixup a p).1]
    let slots := a.classS.count + a.classM.count + a.classL.count
    let dup := firstClash tbl (fun p q => p.st != .empty && q.st != .empty && p.id == q.id)
    let far := tbl.zipIdx.findSome? (fun p =>
      match rackOf p.1 with | some n => if slots ≤ n then some (p.2, n) else none | none => none)
    let shared := firstClash tbl (fun p q => (rackOf p).isSome && rackOf p == rackOf q)
    let levels := infeedLevels tbl
    let bay := (tbl.filter (fun p => p.located && p.loc == .overflow)).length
    let gives' (code d1 d2 : Nat) : Prop :=
      ∃ u, exec (.tableScanReadAnswer (.done d)) s = .next (settle s u) ∧ verdictOf u = some (code, word d1, word d2)
    (∀ k j, dup = some (k, j) → gives' 14 k j) ∧
    (∀ k n, dup = none → far = some (k, n) → gives' 15 k n) ∧
    (∀ k j, dup = none → far = none → shared = some (k, j) → gives' 15 k j) ∧
    (dup = none → far = none → shared = none →
      ((∃ k, k < levels.length ∧ k + 1 ∉ levels) → gives' 13 levels.length 2) ∧
      ((∀ k, k < levels.length → k + 1 ∈ levels) →
        (8 < bay → gives' 13 bay 3) ∧
        (bay ≤ 8 →
          ∃ u, exec (.tableScanReadAnswer (.done d)) s = .next (settle s u) ∧ verdictOf u = some (0, word 0, word 0) ∧
            (u.loader.ver.map fun v => (v.stage, v.table)) = some (.writing, tbl) ∧
            (u.loader.ver.bind fun w => w.verdict.map (·.lost)) = some (if (fixup a p).2 then v.lost + 1 else v.lost) ∧
            (∀ k, (k ∈ v.changed ∨ (k = i ∧ marksChanged l d (fixup a p).2)) → queued u (.writeBack (.scan k)) = true) ∧
            (∀ k, queued u (.writeBack (.scan k)) = true →
              queued s (.writeBack (.scan k)) = true ∨ k ∈ v.changed ∨ (k = i ∧ marksChanged l d (fixup a p).2)) ∧
            (queued s (.writeBack .verdict) = false → (u.engine.queue.getLast?.map (·.what)) = some (.writeBack .verdict)))))) ∧
  (∀ (s : State) (q : Req) (v : Verif) (a : Anchor) (i : Nat) (d : Line), engineHas s q → s.loader.ver = some v →
    v.cand = some a →
    (q.what = .scanRead i false →
      ∃ u, exec (.tableScanReadAnswer (.done d)) s = .next (settle s u) ∧ u.loader.ver = some { v with first := some d }) ∧
    (q.what = .scanRead i true → ∀ l p, v.first = some l → Plate.scan? l d = some p → i + 1 < a.capacity →
      ∃ u, exec (.tableScanReadAnswer (.done d)) s = .next (settle s u) ∧
        (u.loader.ver.map fun v => (v.stage, v.table)) = some (.scan (i + 1), v.table ++ [(fixup a p).1]) ∧
        (marksChanged l d (fixup a p).2 → (u.loader.ver.map (·.changed)) = some (v.changed ++ [i])) ∧
        (¬ marksChanged l d (fixup a p).2 → (u.loader.ver.map (·.changed)) = some v.changed)) ∧
    (q.what = .scanRead i true → ∀ l, v.first = some l → Plate.scan? l d = none →
      ∃ u, exec (.tableScanReadAnswer (.done d)) s = .next (settle s u) ∧
        verdictOf u = some (13, word i, word 1)) ∧
    (∀ k, q.what = .scanRead i k →
      ∃ u, exec (.tableScanReadAnswer .refused) s = .next (settle s u) ∧ verdictOf u = some (12, word q.addr, word 0))) ∧
  (∀ (s : State) (q : Req) (v : Verif) (x : Verdict), engineHas s q → q.what = .writeBack .verdict → s.loader.ver = some v →
    v.verdict = some x →
    (∀ a, x.code = 0 → v.cand = some a →
      ∃ u, exec (.verdictWriteAnswer .done) s = .next (settle s u) ∧ u.loader.inForce = some a ∧ u.loader.ver = none ∧
        u.loader.verdict = some x ∧ u.stock.table = v.table ∧ u.stock.tokenCtr = s.stock.tokenCtr ∧
        u.arb.pool = some a.permits ∧ u.arb.holders = [] ∧ queued u (.writeBack .hall) = true ∧
        u.cmd.mode = (if s.cmd.mode = .startUp then .halt else s.cmd.mode)) ∧
    (x.code ≠ 0 →
      ∃ u, exec (.verdictWriteAnswer .done) s = .next (settle s u) ∧ u.loader.inForce = s.loader.inForce ∧
        u.loader.ver = none ∧ u.loader.verdict = some x ∧ u.stock = s.stock ∧ u.arb = s.arb ∧
        (s.loader.inForce.isSome = true → queued u (.writeBack .hall) = true) ∧
        u.cmd.mode = (if s.cmd.mode = .startUp then .halt else s.cmd.mode)) ∧
    (∃ u, exec (.verdictWriteAnswer .refused) s = .next (settle s u) ∧ u.loader.ver = none ∧ u.loader.verdict = some x ∧
      hasBit u.faults.hall.flags fhWRITE_BACK = true ∧ RecId.verdict ∈ u.engine.refused))

/-! ## Requests to the stock unit and the lock table -/

/-- A bed's plate lookup and checks 2 to 11 (R48, R49): the first lookup goes on to the lists' addresses and counts, the mark list
and the descriptor, a later one to check 11. The reservation of a remnant plate ID (R7, check 10 of R48). That the empty
segment list of an order with step count 0 lies beyond the memory size where its address does, LIST_ADDRESS before LIST_LENGTH, is the
model's choice (log 94). -/
def Obligations.LookupAndIdReserve : Prop :=
  (∀ (s : State) (b : BedId) (h : Hand) (again : Bool), (runOf s b).hand = some h → (runOf s b).state = .accepting →
     (runOf s b).acc = .lookup again →
     (findPlate s (ordPlate h.order) = none → ∃ u, exec (.plateLookup b) s = .next (settle s u) ∧ rejects u b h 2) ∧
     (∀ i, findPlate s (ordPlate h.order) = some i →
       let p := plateAt s i
       ((p.st = .skeleton ∨ p.st = .lost) → ∃ u, exec (.plateLookup b) s = .next (settle s u) ∧ rejects u b h 3) ∧
       (p.st = .stock → (bedCfg s b).thick < p.thickness →
         ∃ u, exec (.plateLookup b) s = .next (settle s u) ∧ rejects u b h 4) ∧
       (p.st = .stock → p.thickness ≤ (bedCfg s b).thick → bedOccupied s b (ordPlate h.order) = true →
         ∃ u, exec (.plateLookup b) s = .next (settle s u) ∧ rejects u b h 5) ∧
       (p.st = .stock → p.thickness ≤ (bedCfg s b).thick → bedOccupied s b (ordPlate h.order) = false → again = true →
         (p.suspect = true → p.loc ≠ .bed b → ∃ u, exec (.plateLookup b) s = .next (settle s u) ∧ rejects u b h 11) ∧
         ((p.suspect = false ∨ p.loc = .bed b) → ∃ u, exec (.plateLookup b) s = .next (settle s u) ∧
           (runOf u b).acc = .burn ∧ (runOf u b).state = .accepting ∧ u.stock = s.stock ∧
           ((runOf u b).hand.bind (·.look)).map (fun k => (k.ix, k.thickness, k.length, k.width)) =
             some (i, p.thickness, p.length, p.width))) ∧
       (p.st = .stock → p.thickness ≤ (bedCfg s b).thick → bedOccupied s b (ordPlate h.order) = false → again = false →
         let o := h.order
         let turned (check : Nat) : Prop := ∃ u, exec (.plateLookup b) s = .next (settle s u) ∧ rejects u b h check
         let goes (acc : AccStage) (u : State) : Prop := exec (.plateLookup b) s = .next (settle s u) ∧
           (runOf u b).state = .accepting ∧ (runOf u b).acc = acc ∧ u.stock = s.stock ∧
           ((runOf u b).hand.bind (·.look)).map (fun k => (k.ix, k.thickness, k.length, k.width)) =
             some (i, p.thickness, p.length, p.width)
         let placed := listAddressOk s (ordSegAddr o) (32 * ordSteps o) = true ∧
           (0 < ordMarks o → listAddressOk s (ordMarkAddr o) (32 * ordMarks o) = true)
         (¬ placed → turned 6) ∧
         (placed → ordSteps o = 0 → turned 7) ∧
         (placed → ordSteps o ≠ 0 → 64 < ordMarks o → turned 8) ∧
         (placed → ordSteps o ≠ 0 → 0 < ordMarks o → ordMarks o ≤ 64 →
           ∃ u, goes .marks u ∧ (runOf u b).marks.table = []) ∧
         (placed → ordSteps o ≠ 0 → ordMarks o = 0 →
           (ordDescAddr o = 0 → p.suspect = true → p.loc ≠ .bed b → turned 11) ∧
           (ordDescAddr o = 0 → (p.suspect = false ∨ p.loc = .bed b) → ∃ u, goes .burn u) ∧
           (ordDescAddr o ≠ 0 → listAddressOk s (ordDescAddr o) 64 = false → turned 10) ∧
           (ordDescAddr o ≠ 0 → listAddressOk s (ordDescAddr o) 64 = true →
             ∃ u, goes .descriptor u ∧
               u.engine.queue =
                 s.engine.queue ++ [⟨s.engine.nextTicket, .descriptor b, ordDescAddr o, 0, 0, false⟩]))))) ∧
  (∀ (s : State) (b : BedId) (h : Hand) (d : Line), (runOf s b).hand = some h → h.desc = some d →
     (runOf s b).state = .accepting → (runOf s b).acc = .reserve →
     (idTaken s (descId d) = true → ∃ u, exec (.remnantIdReserve b) s = .next (settle s u) ∧ rejects u b h 10) ∧
     (idTaken s (descId d) = false → ((h.look.map (·.away)).getD false = false) →
       ∃ u, exec (.remnantIdReserve b) s = .next (settle s u) ∧
         u.stock = { s.stock with reservedIds := s.stock.reservedIds ++ [(descId d, b)] } ∧ (runOf u b).acc = .burn))

/-- A BURN request (R9, R10, R36, R50): granted on claim NONE or the order's own hold, granted with the claim unchanged where the bed
holds it already, refused with the check's number, or kept waiting on claim LIFT. That it is judged by the claim as it stands, also with a
release of the bed's earlier order on its way, is the model's reading (log 36), and so is that it is granted on a record that has become
SKELETON with claim NONE too (log 47). -/
def Obligations.BurnRequest : Prop :=
  ∀ (s : State) (b : BedId) (h : Hand), (runOf s b).hand = some h → (runOf s b).state = .accepting → (runOf s b).acc = .burn →
    let p := plateAt s (lookIx h)
    (holds s (lookIx h) (ordPlate h.order) = false →
      ∃ u, exec (.burnRequest b) s = .next (settle s u) ∧ rejects u b h 2) ∧
    (holds s (lookIx h) (ordPlate h.order) = true →
      (p.st = .lost → ∃ u, exec (.burnRequest b) s = .next (settle s u) ∧ rejects u b h 3) ∧
      (p.st ≠ .lost → (underRemnantOut s (lookIx h)).isSome = true →
        ∃ u, exec (.burnRequest b) s = .next (settle s u) ∧ rejects u b h 13) ∧
      (p.st ≠ .lost → underRemnantOut s (lookIx h) = none →
        ((p.claim = .none ∨ ∃ t e, p.claim = .hold t e ∧ t = ordToken h.order ∧ t ≠ 0) →
          ∃ u, exec (.burnRequest b) s = .next (settle s u) ∧
            u.stock = { s.stock with table := s.stock.table.set (lookIx h) { p with claim := .burn b } } ∧
            queued u (.writeBack (.plate (lookIx h))) = true ∧ (runOf u b).acc = .lockReq ∧
            (runOf u b).hand = some { h with claimed := true }) ∧
        (∀ t e, p.claim = .hold t e → (t ≠ ordToken h.order ∨ t = 0) →
          ∃ u, exec (.burnRequest b) s = .next (settle s u) ∧ rejects u b h 12) ∧
        (p.claim = .burn b →
          ∃ u, exec (.burnRequest b) s = .next (settle s u) ∧ u.stock = s.stock ∧ u.engine = s.engine ∧ (runOf u b).acc = .lockReq ∧
            (runOf u b).hand = some { h with claimed := true }) ∧
        (∀ b', p.claim = .burn b' → b' ≠ b → ∃ u, exec (.burnRequest b) s = .next (settle s u) ∧ rejects u b h 13) ∧
        (∀ e, p.claim = .lift e →
          ∃ u, exec (.burnRequest b) s = .next (settle s u) ∧ (runOf u b).acc = .claimWait ∧
            u.stock = { s.stock with waiters := s.stock.waiters ++ [(lookIx h, b)] })))

/-- A claim release sets the claim to NONE if it still matches, and the end of a LIFT tells the waiters (R11); that the releases under
way are taken first in, first out is the model's reading (log 36); a bed told so makes a
fresh lookup (R49). A lock request is granted whole with no bed waiting and room for it, and joins the wait list otherwise; a bed granted
its locks leaves ACCEPTING for CHECKING or STAGING (R53). A release takes the bed out of every owner set and off the wait list, frees the
entries left without an owner, and grants the heads of the list one after the other while there is room (R54). -/
def Obligations.ClaimReleaseAndLockRequest : Prop :=
  (∀ (s : State) (b : BedId), (runOf s b).state = .accepting → (runOf s b).acc = .claimWait →
    ((∀ w ∈ s.stock.waiters, w.2 ≠ b) → claimTold s b = setRun s b { runOf s b with acc := .lookup true }) ∧
    ((∃ w ∈ s.stock.waiters, w.2 = b) → claimTold s b = s)) ∧
  (∀ (l : Locks) (b : BedId), l.waits.length ≤ 4 →
    let es := (l.entries.map fun e => { e with owners := e.owners.filter (· != b) }).filter (fun e => !e.owners.isEmpty)
    let ws := l.waits.filter (fun w => w.1 != b)
    let after (n : Nat) : List LockEntry := (ws.take n).foldl (fun x w => grantLocks x w.1 w.2) es
    ∃ k, l.release b = ⟨after k, ws.drop k⟩ ∧
      (∀ n w, n < k → ws[n]? = some w → lockRoom (after n) w.2 = true) ∧
      (∀ w, ws[k]? = some w → lockRoom (after k) w.2 = false)) ∧
  (∀ (s : State) (b : BedId) (h : Hand), (runOf s b).hand = some h → (runOf s b).state = .accepting →
    (runOf s b).acc = .lockWait →
    (s.locks.owns b = true → (runOf (locksTold s b) b).hand = some h ∧ (locksTold s b).locks = s.locks ∧
      (runOf (locksTold s b) b).state = (if ordFull h.order || (bedCfg s b).full then .checking else .staging)) ∧
    (s.locks.owns b = false → locksTold s b = s)) ∧
  (∀ (s : State) (r : Release) (rest : List Release), s.stock.releases = r :: rest →
    (holds s r.ix r.plate = true → (plateAt s r.ix).claim = r.claim →
      ∃ u, exec .claimRelease s = .next (settle s u) ∧ u.stock.releases = rest ∧
        u.stock.table = s.stock.table.set r.ix { plateAt s r.ix with claim := .none } ∧
        queued u (.writeBack (.plate r.ix)) = true ∧
        (∀ e, r.claim = .lift e → u.stock.waiters = s.stock.waiters.filter (·.1 != r.ix))) ∧
    ((holds s r.ix r.plate = false ∨ (plateAt s r.ix).claim ≠ r.claim) →
      exec .claimRelease s = .next (settle s (setStock (fresh s) { s.stock with releases := rest })))) ∧
  (∀ (s : State) (b : BedId) (h : Hand), (runOf s b).hand = some h → (runOf s b).state = .accepting →
    (runOf s b).acc = .lockReq →
    (s.locks.waits = [] → lockRoom s.locks.entries (orderRanges h.order) = true →
      ∃ u, exec (.lockRequest b) s = .next (settle s u) ∧ u.locks.waits = [] ∧
        u.locks.entries.length ≤ Config.lockEntries ∧
        (∀ r ∈ orderRanges h.order, ∃ e ∈ u.locks.entries, e.addr = r.1 ∧ e.len = r.2 ∧ b ∈ e.owners) ∧
        (∀ e ∈ s.locks.entries, ∃ e' ∈ u.locks.entries, e'.addr = e.addr ∧ e'.len = e.len ∧ ∀ x ∈ e.owners, x ∈ e'.owners)) ∧
    ((s.locks.waits ≠ [] ∨ lockRoom s.locks.entries (orderRanges h.order) = false) →
      ∃ u, exec (.lockRequest b) s = .next (settle s u) ∧ (runOf u b).acc = .lockWait ∧
        u.locks = { s.locks with waits := s.locks.waits ++ [(b, orderRanges h.order)] }))

/-! ## Permits and the token -/

/-- A bed that has a PIERCE to send and no permit asks for one; the request is granted with a permit free and none waiting, and
waits otherwise; a grant is kept by a bed whose order has stood since and given back by any other (R113). That a grant is delivered at
a taking of its own is the model's reading (log 11). -/
def Obligations.PermitRequestAndGrant : Prop :=
  (∀ (s : State) (b : BedId), (runOf s b).state = .burning → (streamOf s b).form = none → (nextPierce (streamOf s b)).isSome = true →
    (runOf s b).permit = false → b ∉ s.arb.waits → b ∉ s.arb.grants → b ∉ s.arb.holders →
    (runOf (askArbiter s b) b).permitAsk = true) ∧
  (∀ (s : State) (b : BedId) (n : Nat), (runOf s b).permitAsk = true → s.arb.pool = some n →
    (s.cmd.mode = .run → s.arb.waits = [] → s.arb.holders.length < n →
      ∃ u, exec (.permitRequest b) s = .next (settle s u) ∧ (runOf u b).permitAsk = false ∧
        u.arb = { s.arb with holders := s.arb.holders ++ [b], grants := s.arb.grants ++ [b] }) ∧
    ((s.cmd.mode ≠ .run ∨ n ≤ s.arb.holders.length) →
      ∃ u, exec (.permitRequest b) s = .next (settle s u) ∧ (runOf u b).permitAsk = false ∧
        u.arb = { s.arb with waits := s.arb.waits ++ [b] })) ∧
  (∀ (s : State) (b : BedId), s.arb.grants.contains b = true →
    (s.arb.ended.contains b = false → (runOf s b).hand.isSome = true →
      (activeState (runOf s b).state = true ∨ (runOf s b).state = .stopping) →
      ∃ u, exec (.permitGrant b) s = .next (settle s u) ∧ (runOf u b).permit = true ∧
        u.arb = { s.arb with grants := s.arb.grants.filter (· != b), ended := s.arb.ended.filter (· != b) }) ∧
    ((s.arb.ended.contains b = true ∨ (runOf s b).hand = none) → s.arb.waits = [] →
      ∃ u, exec (.permitGrant b) s = .next (settle s u) ∧ (runOf u b).permit = (runOf s b).permit ∧
        u.arb = { s.arb with grants := s.arb.grants.filter (· != b), ended := s.arb.ended.filter (· != b),
                             holders := s.arb.holders.filter (· != b) }))

/-- The token: the bed's request, its list, its offers and its acceptance, with which the PIERCE goes out and the first PIERCE of an
order makes its plate SKELETON (R13, R82, R83, R116, R117). A bed that has left the list since the offer declines, and the head is
offered the token (R117). -/
def Obligations.Token : Prop :=
  (∀ (s : State) (b : BedId), (runOf s b).state = .burning → (streamOf s b).form = none → (nextPierce (streamOf s b)).isSome = true →
    (streamOf s b).pausing = false → (runOf s b).permit = true → s.arb.token ≠ some b → b ∉ s.arb.tokenWaits →
    (runOf (askArbiter s b) b).tokenAsk = true) ∧
  (∀ (s : State) (b : BedId), (runOf s b).tokenAsk = true →
    (s.arb.tokenWaits = [] → s.cmd.mode = .run → s.arb.token = none → s.arb.offer = none →
      ∃ u, exec (.tokenRequest b) s = .next (settle s u) ∧ (runOf u b).tokenAsk = false ∧
        u.arb = { s.arb with tokenWaits := [b], offer := some b }) ∧
    (s.arb.tokenWaits ≠ [] →
      ∃ u, exec (.tokenRequest b) s = .next (settle s u) ∧ (runOf u b).tokenAsk = false ∧
        u.arb = { s.arb with tokenWaits := s.arb.tokenWaits ++ [b] })) ∧
  (∀ (s : State) (b : BedId), (runOf s b).readyRpt = true →
    (s.arb.tokenWaits.head? = some b → s.cmd.mode = .run → s.arb.token = none → s.arb.offer = none →
      ∃ u, exec (.readyReport b) s = .next (settle s u) ∧ u.arb = { s.arb with offer := some b }) ∧
    (s.arb.tokenWaits.head? ≠ some b →
      ∃ u, exec (.readyReport b) s = .next (settle s u) ∧ u.arb = s.arb ∧ (runOf u b).readyRpt = false)) ∧
  (∀ (s : State) (b : BedId), s.arb.offer = some b →
    (∀ e, s.arb.offerLeft = false → s.arb.tokenWaits.contains b = true → readyNow s b = true →
      nextPierce (streamOf s b) = some e →
      ∃ u, exec .tokenOffer s = .next (settle s u) ∧
        u.arb = { s.arb with offer := none, offerLeft := false, token := some b,
                             tokenWaits := s.arb.tokenWaits.filter (· != b) } ∧
        (runOf u b).pierce = some ⟨s.clock, (streamOf s b).seq⟩ ∧ (streamOf u b).seq = (streamOf s b).seq + 1 ∧
        (streamOf u b).window = (streamOf s b).window ++ [{ e with seq := (streamOf s b).seq }] ∧
        u.out = [.step b (streamOf s b).seq e.step] ∧
        ((e.synth = true ∨ (streamOf s b).pierceSent = true) → u.stock = s.stock) ∧
        (∀ h, e.synth = false → (streamOf s b).pierceSent = false → (runOf s b).hand = some h →
          holds s (lookIx h) (ordPlate h.order) = true → (plateAt s (lookIx h)).st = .stock →
          u.stock.table = s.stock.table.set (lookIx h) { plateAt s (lookIx h) with st := .skeleton })) ∧
    (s.arb.offerLeft = false → s.arb.tokenWaits.contains b = true → readyNow s b = false →
      exec .tokenOffer s = .next (settle s { fresh s with arb := { s.arb with offer := none, offerLeft := false } })) ∧
    (∀ b' rest, (s.arb.offerLeft = true ∨ s.arb.tokenWaits.contains b = false) → s.arb.tokenWaits = b' :: rest →
      s.cmd.mode = .run → s.arb.token = none →
      exec .tokenOffer s = .next (settle s { fresh s with arb := { s.arb with offer := some b', offerLeft := false } })))

/-! ## Marks, remnants, crane requests of the beds -/

/-- A heat number asked for composes the mark, or fails it (R101, R102); MARK_DONE, MARK_FAIL and the reply limit (R104). In MARKING
the mark at the cursor is sent, or its heat number asked for, and with every mark at its end the bed goes to BURNING (R103, R105); a
remark pass chooses the FAILED marks once none is SENT, and ends when each is DONE or FAILED, with its command's result (R108, R109). -/
def Obligations.MarksAnswered : Prop :=
  (∀ (s : State) (b : BedId) (i : Nat) (x : Mark) (h : Hand) (k : Look), (runOf s b).marks.heatAsk = some i →
    markDue (runOf s b) = some i → (runOf s b).marks.table[i]? = some x → (runOf s b).hand = some h → h.look = some k →
    ((plateAt s k.ix).heatLen = 0 →
      ∃ u, exec (.heatNumberRequest b) s = .next (settle s u) ∧ hasBit (u.faults.beds.get b).flags fMARK_FAIL = true ∧
        (runOf u b).marks.table = (runOf s b).marks.table.set i { x with st := .failed, cause := .noHeat }) ∧
    ((plateAt s k.ix).heatLen ≠ 0 → isLive s b = true →
      ∃ u, exec (.heatNumberRequest b) s = .next (settle s u) ∧ u.faults = s.faults ∧
        (runOf u b).marks.table = (runOf s b).marks.table.set i { x with st := .sent, attempts := x.attempts + 1 } ∧
        (runOf u b).marks.limit = some s.clock ∧
        u.out = [.mark b i ((chars (fld x.raw.toNat 0x10 16) (markLen x.raw) ++
          0x20 :: 0x48 :: chars (plateAt s k.ix).heat.toNat (plateAt s k.ix).heatLen).map byte)
          (markX x.raw) (markY x.raw) (markRot x.raw) (markHeight x.raw)])) ∧
  (∀ (s : State) (b : BedId) (i : Nat) (x : Mark), sentMark (runOf s b) = some i → (runOf s b).marks.table[i]? = some x →
    (isLive s b = true →
      ∃ u, exec (.gantryMarkDone b) s = .next (settle s u) ∧ (runOf u b).marks.limit = none ∧
        (runOf u b).marks.table = (runOf s b).marks.table.set i { x with st := .done }) ∧
    ∀ c cause, ((c = .gantryMarkFail b ∧ cause = .replyFail ∧ isLive s b = true) ∨
        (∃ t, c = .markReplyLimit b ∧ cause = .timeout ∧ (runOf s b).marks.limit = some t ∧
          20000 ≤ (s.clock - t).toNat)) →
      (x.attempts < 1 + param s (·.retries) 0 →
        ∃ u, exec c s = .next (settle s u) ∧ (runOf u b).marks.limit = none ∧
          (runOf u b).marks.table = (runOf s b).marks.table.set i { x with st := .pending, cause := cause }) ∧
      (1 + param s (·.retries) 0 ≤ x.attempts →
        ∃ u, exec c s = .next (settle s u) ∧ hasBit (u.faults.beds.get b).flags fMARK_FAIL = true ∧
          (runOf u b).marks.table = (runOf s b).marks.table.set i { x with st := .failed, cause := cause })) ∧
  (∀ (s : State) (b : BedId), (runOf s b).state = .marking → (streamOf s b).pausing = false → (runOf s b).marks.pass = none →
    (∀ x ∈ (runOf s b).marks.table, x.st ≠ .sent) →
    let m := (runOf s b).marks
    let u := markingStep s b
    (∀ x, m.table[m.cursor]? = some x → x.st = .pending →
      (markAddHeat x.raw = true → (runOf u b).marks = { m with heatAsk := some m.cursor } ∧ (runOf u b).state = .marking) ∧
      (markAddHeat x.raw = false → isLive s b = true →
        (runOf u b).marks.table = m.table.set m.cursor { x with st := .sent, attempts := x.attempts + 1 } ∧
        (runOf u b).marks.limit = some s.clock ∧ (runOf u b).state = .marking ∧
        u.out = s.out ++ [.mark b m.cursor (markText x.raw none) (markX x.raw) (markY x.raw) (markRot x.raw) (markHeight x.raw)])) ∧
    (m.table.length ≤ 64 → (∀ x ∈ m.table.drop m.cursor, x.st = .done ∨ x.st = .failed ∨ x.st = .waived) →
      (runOf u b).state = .burning ∧ (runOf u b).marks.table = m.table)) ∧
  (∀ r : BedRun, r.marks.pass = some .waiting →
    ((∃ x ∈ r.marks.table, x.st = .sent) → choosePass r = r) ∧
    ((∀ x ∈ r.marks.table, x.st ≠ .sent) →
      ∃ l, (choosePass r).marks.pass = some (.chosen l) ∧
        (∀ i, i ∈ l ↔ ∃ x, r.marks.table[i]? = some x ∧ x.st = .failed ∧ x.unmarked = false) ∧
        (choosePass r).marks.table = r.marks.table.map (fun x =>
          if x.st = .failed ∧ x.unmarked = false then { x with st := .pending, attempts := 0, cause := .none } else x))) ∧
  (∀ (r : BedRun) (l : List Nat), r.marks.pass = some (.chosen l) →
    ((∀ i ∈ l, (markAt r.marks i).st = .done ∨ (markAt r.marks i).st = .failed) →
      (endPass r).marks.pass = none ∧ hasBit (endPass r).pause pMARK = false ∧
        (endPass r).remarkEnd = some (.finished (l.filter (fun i => (markAt r.marks i).st == .failed)).length)) ∧
    ((∃ i ∈ l, (markAt r.marks i).st ≠ .done ∧ (markAt r.marks i).st ≠ .failed) → endPass r = r)) ∧
  (∀ (s : State) (b : BedId), stageOf s = .remark b →
    (∀ n, (runOf s b).remarkEnd = some (.finished n) →
      remarkDone s = give s oDONE (setSize (runOf s b).pause) n 0 [.writeBack (.bed b)]) ∧
    (∀ n, (runOf s b).remarkEnd = some (.early n) →
      remarkDone s = give s oSTATE (runOf s b).state.num n 0 [.writeBack (.bed b)]) ∧
    ((runOf s b).remarkEnd = none → remarkDone s = s))

/-- A creation request (R35, R36): the record filled, its place reserved or the remnant scrapped; with no record free, NOT_REGISTERED;
without a descriptor, or with the plate still STOCK, no remnant; a plate still STOCK is not posted either (R61). That there is no remnant
where the record no longer holds the plate is the model's choice (log 100). With option parts-hold the bed waits for BED_RELEASE (R60). Once its posted requests have all ended
the order is returned DONE and the bed is WAITING (R61). -/
def Obligations.RemnantCreation : Prop :=
  (∀ (s : State) (b : BedId) (h : Hand), (runOf s b).hand = some h →
    ((runOf s b).state = .unloading → (runOf s b).unl = .posted → liveRequests s b = false →
      (runOf (unloadEnd s b) b).state = .waiting ∧ returnsWith (unloadEnd s b) b h 0 0) ∧
    (((runOf s b).state ≠ .unloading ∨ (runOf s b).unl ≠ .posted ∨ liveRequests s b = true) → unloadEnd s b = s)) ∧
  ∀ (s : State) (b : BedId) (h : Hand), (runOf s b).hand = some h → (runOf s b).state = .unloading →
    (runOf s b).unl = .creation →
    (h.desc = none →
      ∃ u h', exec (.remnantCreation b) s = .next (settle s u) ∧ u.stock = s.stock ∧ (runOf u b).hand = some h' ∧
        h'.remnant = .none ∧ (runOf u b).unl = (if ordPartsHold h.order then .release else .posted) ∧
        u.crane.inbox.get b = s.crane.inbox.get b ++
          (if ordPartsHold h.order = false ∧ holds s (lookIx h) (ordPlate h.order) = true ∧ (plateAt s (lookIx h)).st = .skeleton then
            [Post.post ⟨.skeletonOut, lookIx h, ordPlate h.order, .scrap, false, false⟩] else [])) ∧
    (∀ d, h.desc = some d → (holds s (lookIx h) (ordPlate h.order) = false ∨ (plateAt s (lookIx h)).st = .stock) →
      ∃ u h', exec (.remnantCreation b) s = .next (settle s u) ∧ (runOf u b).hand = some h' ∧ h'.remnant = .none ∧
        (runOf u b).unl = (if ordPartsHold h.order then .release else .posted) ∧ u.crane = s.crane ∧
        u.stock = { s.stock with reservedIds := s.stock.reservedIds.filter (fun e => e.1 != descId d) }) ∧
    (∀ d, h.desc = some d → holds s (lookIx h) (ordPlate h.order) = true → (plateAt s (lookIx h)).st ≠ .stock →
      let p := plateAt s (lookIx h)
      (∀ j, lowestEmpty s = some j →
        ∃ u h', exec (.remnantCreation b) s = .next (settle s u) ∧ (runOf u b).hand = some h' ∧ h'.remRec = j ∧
          (runOf u b).unl = (if ordPartsHold h.order then .release else .posted) ∧ u.stock.created = s.stock.created + 1 ∧
          u.stock.table = s.stock.table.set j (remnantRecord s b p d) ∧
          queued u (.writeBack (.plate j)) = true ∧ (∀ e ∈ u.stock.reservedIds, e.1 ≠ descId d) ∧
          (∀ n, autoSlot s (descLength d) (descWidth d) = some n → h'.remnant = .rack n ∧ h'.remDest = .rack n ∧
            u.stock.slotRes = s.stock.slotRes ++ [⟨n, descId d, .bed b .remnantOut (descId d)⟩] ∧
            u.stock.toRack = s.stock.toRack + 1) ∧
          (autoSlot s (descLength d) (descWidth d) = none →
            (overflowUsed s < 8 → h'.remnant = .overflow ∧
              u.stock.overRes = s.stock.overRes ++ [⟨descId d, .bed b .remnantOut (descId d)⟩]) ∧
            (8 ≤ overflowUsed s → h'.remnant = .scrapped ∧ h'.remDest = .scrap ∧
              u.stock.scrapped = s.stock.scrapped + 1))) ∧
      (lowestEmpty s = none →
        ∃ u h', exec (.remnantCreation b) s = .next (settle s u) ∧ (runOf u b).hand = some h' ∧ h'.remnant = .notRegistered ∧
          u.stock.table = s.stock.table ∧ u.stock.unregistered = s.stock.unregistered + 1))

/-- The crane controller takes a posting to the tail of the bed's list, and a withdrawal, which removes the bed's queued requests
and releases their reservations (R130). A bed in STAGING with its plate on it, no other there, the zone FREE and the hall in RUN takes the
zone and starts MARKING or BURNING with every mark PENDING; without its plate it posts LOAD_BED, alone in its list: not while any request of
the bed stands, be it of an earlier order (R56, R58, R59, R102, R129). A request refused goes back queued (R144); that one whose order
has ended is then withdrawn is the model's reading (log 41). -/
def Obligations.CraneRequests : Prop :=
  (∀ (s : State) (b : BedId) (h : Hand), (runOf s b).hand = some h →
    (plateHere s b h = true → otherHere s b (ordPlate h.order) = false → zoneOf s b = .free → s.cmd.mode = .run →
      let u := stagingStep s b
      zoneOf u b = .torch ∧ (runOf u b).state = (if 0 < ordMarks h.order then .marking else .burning) ∧
        (runOf u b).hand = some { h with burnStart := some s.clock } ∧ (runOf u b).stream = .empty ∧ (runOf u b).arc = ⟨0, 0⟩ ∧
        (runOf u b).marks.begun = true ∧ (runOf u b).marks.cursor = 0 ∧
        (runOf u b).marks.table = (runOf s b).marks.table.map (fun x => ⟨x.raw, .pending, 0, .none, false⟩)) ∧
    (plateHere s b h = true →
      (otherHere s b (ordPlate h.order) = true ∨ zoneOf s b ≠ .free ∨ s.cmd.mode ≠ .run) → stagingStep s b = s) ∧
    (plateHere s b h = false →
      (hasRequests s b = false →
        let posted : Post := .post ⟨.loadBed, lookIx h, ordPlate h.order, .bed b, false, false⟩
        stagingStep s b = setCrane s { s.crane with inbox := s.crane.inbox.set b (s.crane.inbox.get b ++ [posted]) }) ∧
      (hasRequests s b = true → stagingStep s b = s))) ∧
  (∀ (s : State) (m : Move) (b : BedId) (k : ReqKind) (id : Nat) (q : BedReq) (rest : List BedReq), m.req = .bed b k id →
    s.crane.bank.get b = q :: rest → q.inFlight = true →
    (backToBank s m).crane = { s.crane with
      bank := s.crane.bank.set b ({ q with inFlight := false } :: rest),
      inbox := s.crane.inbox.set b (s.crane.inbox.get b ++ (if q.orphan then [.withdraw] else [])) }) ∧
  ∀ (s : State) (b : BedId),
    (∀ q rest, s.crane.inbox.get b = .post q :: rest →
      exec (.craneRequestPost b) s = .next (settle s (setCrane (fresh s) { s.crane with
        bank := s.crane.bank.set b (s.crane.bank.get b ++ [q]), inbox := s.crane.inbox.set b rest }))) ∧
    (∀ rest, s.crane.inbox.get b = .withdraw :: rest →
      ∃ u, exec (.craneRequestWithdraw b) s = .next (settle s u) ∧
        u.crane = { s.crane with bank := s.crane.bank.set b ((s.crane.bank.get b).filter (·.inFlight)),
                                 inbox := s.crane.inbox.set b rest } ∧
        (∀ q ∈ s.crane.bank.get b, q.inFlight = false →
          (∀ r ∈ u.stock.slotRes, r.req ≠ .bed b q.kind q.plate) ∧ (∀ r ∈ u.stock.overRes, r.req ≠ .bed b q.kind q.plate)) ∧
        u.stock.table = s.stock.table)

/-! ## The gantries -/

/-- STEP_DONE of the window's head executes it, at END into UNLOADING, in STOPPING ending the burn time; any other sequence number
faults a bed that draws (R46, R60, R82, R83). A bed that may send sends the head of its resend list, else the step held, else the next
step drawn (R81, R82, R93); a cut that frees a part whose mark FAILED waits with cause MARK_INTERLOCK, or goes out with the mark counted
as unmarked (R106); a PIERCE waits for the token (R113); an invalid step makes a form stop and sends PAUSE (R77). That an
invalid list step leaves the FIFO and the cursor keeps its place is the model's choice (log 71); it enters the recent buffer as every
list step drawn but a REPEAT does (R80). -/
def Obligations.StepDone : Prop :=
  (∀ (c : FormCfg) (u : Cursor) (r : Raw) (code : Nat), u.exp = none → formCode c u.geo u.recent u.idx r = some code →
    draw c true u (some r) = (.bad ⟨u.idx, 0, code⟩,
      { u with recent := if rawKind r = kREPEAT then u.recent else remember u.recent u.idx r }, true)) ∧
  (∀ (s : State) (b : BedId), (maySend s b = false ∨ (nextPierce (streamOf s b)).isSome = true) → pumpOnce s b = (s, false)) ∧
  (∀ (s : State) (b : BedId), maySend s b = true → nextPierce (streamOf s b) = none → (streamOf s b).synth = false →
    let t := streamOf s b
    let sent (e : Entry) (left : Stream) : Prop :=
      (pumpOnce s b).2 = true ∧ (pumpOnce s b).1.out = s.out ++ [.step b t.seq e.step] ∧
        streamOf (pumpOnce s b).1 b = { left with window := t.window ++ [{ e with seq := t.seq }], seq := t.seq + 1, anySent := true,
                                                  endSent := t.endSent || e.step.kind == kEND }
    let waits (left : Stream) : Prop :=
      (pumpOnce s b).2 = false ∧ hasBit (runOf (pumpOnce s b).1 b).pause pMARK = true ∧
        ((runOf s b).pause = 0 → (pumpOnce s b).1.out = s.out ++ [.pause b] ∧
          streamOf (pumpOnce s b).1 b = { left with pausing := true }) ∧
        ((runOf s b).pause ≠ 0 → (pumpOnce s b).1.out = s.out ∧ streamOf (pumpOnce s b).1 b = left)
    let judged (e : Entry) (out keep : Stream) : Prop :=
      (interlock (runOf s b) e.step = .pass → sent e out) ∧
      (interlock (runOf s b) e.step = .hold → waits keep) ∧
      (∀ k, interlock (runOf s b) e.step = .unmarked k → sent e out ∧
        (runOf (pumpOnce s b).1 b).marks.table =
          (runOf s b).marks.table.set k { markAt (runOf s b).marks k with unmarked := true })
    (∀ e rest, t.resend = e :: rest → judged e { t with resend := rest } t) ∧
    (∀ e, t.resend = [] → t.held = some e → judged e { t with held := none } t) ∧
    (∀ h, t.resend = [] → t.held = none → t.endSent = false → (runOf s b).hand = some h →
      let out := draw (formCfg s b h) (!fullCheck s b h) t.cursor t.fifo.head?
      let t' := { t with cursor := out.2.1, fifo := if out.2.2 then t.fifo.tail else t.fifo }
      (∀ e, out.1 = .step e → e.step.kind ≠ kPIERCE → judged e t' { t' with held := some e }) ∧
      (∀ e, out.1 = .step e → e.step.kind = kPIERCE →
        pumpOnce s b = (setStream s b { t' with held := some e }, false)) ∧
      (∀ f, out.1 = .bad f → (pumpOnce s b).2 = false ∧ (pumpOnce s b).1.out = s.out ++ [.pause b] ∧
        streamOf (pumpOnce s b).1 b = { t' with form := some f, pausing := true }) ∧
      (out.1 = .taken → pumpOnce s b = (setStream s b t', true)) ∧
      (out.1 = .wait → pumpOnce s b = (setStream s b t', false)))) ∧
  (∀ (s : State) (b : BedId) (n : Byte) (e : Entry) (rest : List Entry) (h : Hand), bedHears s b .stopping →
    (streamOf s b).window = e :: rest → e.seq = n → (runOf s b).hand = some h →
    ∃ u, exec (.gantryStepDone b n) s = .next (settle s u) ∧ (runOf u b).state = .stopping ∧ (streamOf u b).window = rest ∧
      (runOf u b).hand = some (if e.step.kind = kEND then { h with burnEnd := some s.clock } else h)) ∧
  ∀ (s : State) (b : BedId) (n : Byte),
    (∀ e rest, bedHears s b .burning → (streamOf s b).window = e :: rest → e.seq = n →
      (e.step.kind ≠ kEND →
        ∃ u, exec (.gantryStepDone b n) s = .next (settle s u) ∧ (runOf u b).state = .burning ∧
          (streamOf u b).window = rest ∧
          (streamOf u b).steps = (if e.synth then (streamOf s b).steps else (streamOf s b).steps + 1) ∧
          (streamOf u b).exArc = (if e.step.kind = kPIERCE then true else if e.step.kind = kTORCH_OFF then false
            else (streamOf s b).exArc) ∧
          (∀ p, (runOf s b).pierce = some p → p.seq = n → (runOf u b).pierce = none ∧ u.arb.token ≠ some b) ∧
          u.faults = s.faults) ∧
      (e.step.kind = kEND →
        ∃ u, exec (.gantryStepDone b n) s = .next (settle s u) ∧ (runOf u b).state = .unloading ∧
          (runOf u b).unl = .creation ∧ (streamOf u b).exArc = false ∧ (runOf u b).permit = false ∧ zoneOf u b = .free ∧ u.locks.owns b = false ∧
          (∀ h, (runOf s b).hand = some h → ((runOf u b).hand.map fun x => (x.burnEnd, x.unloading)) = some (some s.clock, true)))) ∧
    (bedHears s b .marking ∨ bedHears s b .burning → (streamOf s b).window.head?.map (·.seq) ≠ some n →
      ∃ u, exec (.gantryStepDone b n) s = .next (settle s u) ∧ faulted u b fGANTRY) ∧
    (bedHears s b .paused → ∃ u, exec (.gantryStepDone b n) s = .next (settle s u) ∧ faulted u b fGANTRY)

/-- PIERCE_DONE, PIERCE_FAIL and the pierce timer release the token; the failure sets PIERCE_FAIL and adds pause cause PIERCE
(R118 to R120); in STOPPING each of the three releases the token alone (R64, R121). -/
def Obligations.PierceEnds : Prop :=
  ∀ (s : State) (b : BedId) (p : Pierce), (runOf s b).pierce = some p →
    (bedHears s b .burning →
      ∃ u, exec (.gantryPierceDone b) s = .next (settle s u) ∧ (runOf u b).pierce = none ∧ u.arb.token ≠ some b ∧
        u.faults = s.faults ∧ (runOf u b).pause = (runOf s b).pause) ∧
    (∀ c, ((c = .gantryPierceFail b ∧ bedHears s b .burning) ∨
        (c = .pierceTimeout b ∧ (runOf s b).state = .burning ∧ 8000 ≤ (s.clock - p.start).toNat)) →
      ∃ u, exec c s = .next (settle s u) ∧ (runOf u b).pierce = none ∧ u.arb.token ≠ some b ∧
        hasBit (u.faults.beds.get b).flags fPIERCE_FAIL = true ∧ hasBit (runOf u b).pause pPIERCE = true ∧
        (runOf u b).state = .burning ∧ ((runOf s b).pause = 0 → (streamOf u b).pausing = true)) ∧
    (∀ c, (((c = .gantryPierceDone b ∨ c = .gantryPierceFail b) ∧ bedHears s b .stopping) ∨
        (c = .pierceTimeout b ∧ (runOf s b).state = .stopping ∧ 8000 ≤ (s.clock - p.start).toNat)) →
      ∃ u, exec c s = .next (settle s u) ∧ (runOf u b).pierce = none ∧ u.arb.token ≠ some b ∧
        u.faults = s.faults ∧ (runOf u b).state = .stopping ∧ (runOf u b).pause = (runOf s b).pause ∧
        (runOf u b).stream = (runOf s b).stream ∧ (runOf u b).hand = (runOf s b).hand ∧ (runOf u b).stop = (runOf s b).stop)

/-- The arc monitor (R123 to R126): it counts in BURNING with a cut that the gantry draws at the head of the window; N consecutive
samples above the window pause the bed, N below fault it. -/
def Obligations.ArcMonitor : Prop :=
  ∀ (s : State) (b : BedId) (v : Byte),
    (∀ e rest, bedHears s b .burning → (streamOf s b).window = e :: rest → (e.step.kind = kLINE ∨ e.step.kind = kARC) →
      e.synth = false → 1 ≤ (bedCfg s b).arcN →
      let c := bedCfg s b
      let a := (runOf s b).arc
      (c.arcHigh < v.toNat → c.arcN ≤ a.high + 1 →
        ∃ u, exec (.gantryArc b v) s = .next (settle s u) ∧ hasBit (u.faults.beds.get b).flags fARC_HIGH = true ∧
          hasBit (runOf u b).pause pARC = true ∧ (runOf u b).state = .burning ∧ (runOf u b).arc = ⟨0, 0⟩) ∧
      (c.arcHigh < v.toNat → a.high + 1 < c.arcN →
        exec (.gantryArc b v) s =
          .next (settle s (setRun (heard s b) b { runOf s b with arc := ⟨a.high + 1, 0⟩ }))) ∧
      (v.toNat ≤ c.arcHigh → v.toNat < c.arcLow → c.arcN ≤ a.low + 1 →
        ∃ u, exec (.gantryArc b v) s = .next (settle s u) ∧ faulted u b fARC_LOW) ∧
      (v.toNat ≤ c.arcHigh → v.toNat < c.arcLow → a.low + 1 < c.arcN →
        exec (.gantryArc b v) s =
          .next (settle s (setRun (heard s b) b { runOf s b with arc := ⟨0, a.low + 1⟩ }))) ∧
      (v.toNat ≤ c.arcHigh → c.arcLow ≤ v.toNat →
        exec (.gantryArc b v) s = .next (settle s (setRun (heard s b) b { runOf s b with arc := ⟨0, 0⟩ })))) ∧
    (∀ t, bedHears s b t → (t ≠ .burning ∨ (streamOf s b).window = [] ∨
        (∃ e rest, (streamOf s b).window = e :: rest ∧ (e.synth = true ∨ (e.step.kind ≠ kLINE ∧ e.step.kind ≠ kARC)))) →
      exec (.gantryArc b v) s = .next (settle s (heard s b)))

/-- The bed link (R85, R87): ALIVE brings it up, HOLD and GO set and clear the link hold, 50 ms of silence bring it down and fault a
bed that works; no message is taken while it is DOWN. -/
def Obligations.BedLink : Prop :=
  ∀ (s : State) (b : BedId),
    (present s b = true →
      exec (.gantryAlive b) s = .next (settle s (setLink (fresh s) b { (bedOf s b).lk with live := true, since := s.clock }))) ∧
    (∀ t, bedHears s b t → t ≠ .faulted →
      exec (.gantryHold b) s = .next (settle s (setLink (fresh s) b { (bedOf s b).lk with hold := true, since := s.clock })) ∧
      exec (.gantryGo b) s = .next (settle s (setLink (fresh s) b { (bedOf s b).lk with hold := false, since := s.clock }))) ∧
    (∀ t, bedHears s b t → 50 ≤ (s.clock - (bedOf s b).lk.since).toNat →
      ∃ u, exec (.bedLinkTimeout b) s = .next (settle s u) ∧ isLive u b = false ∧ (bedOf u b).lk.hold = false ∧
        hasBit (u.faults.beds.get b).flags fLINK_LOST = true ∧
        (t = .stopped → (runOf u b).state = .stopped) ∧
        ((t = .waiting ∨ t = .accepting ∨ t = .checking ∨ t = .staging ∨ t = .unloading ∨ t = .marking ∨ t = .burning ∨
          t = .paused ∨ t = .faulted) → (runOf u b).state = .faulted) ∧
        (t = .stopping → (runOf u b).state = .stopped ∧ (runOf u b).hand = none)) ∧
    (isLive s b = false → ∀ n v c, ∀ i ∈ gantryMessages b n v c, exec i s = .next (fresh s))

/-- PAUSED trims the window into the resend list and puts the bed in PAUSED (R91); STOPPED ends STOPPING with the pending outcome,
the stop limit faults the bed (R64). A bed PAUSED with no pause cause and no remark pass sends RESUME and goes on where it was (R93); a
synthetic PIERCE is then due, from BURNING with the arc on, where the first step is a cut (R94). A form stop ends at the PAUSED reply: the
order is returned FORM_ABORT with the form code and the step's position, without an ABORT (R63, R77). In a hall reset STOPPED, the link's
loss and the stop limit end STOPPING with the bed STOPPED, its requests discarded, and its order returned (R64, R70). The model's readings
and choices: a synthetic PIERCE trimmed by a PAUSED stands in the resend list, and no new one is due before it (log 27); the stop limit in a
hall reset leaves the bed STOPPED (log 43); postings not yet taken are dropped with the requests (log 97). -/
def Obligations.PausedAndStopped : Prop :=
  (∀ (s : State) (b : BedId) (n : Byte), (bedHears s b .burning ∨ bedHears s b .marking) →
    (streamOf s b).pausing = true → pausedNumberOk (streamOf s b) n = true → trimEnds (streamOf s b) n = false →
    (streamOf s b).form = none →
    ∃ u, exec (.gantryPaused b n) s = .next (settle s u) ∧ (runOf u b).state = .paused ∧ (streamOf u b).pausing = false ∧
      (streamOf u b).window = [] ∧ u.arb.token ≠ some b ∧ u.faults = s.faults ∧
      ((streamOf u b).resend.map (fun e => (e.idx, e.rep, e.step))) =
        ((streamOf s b).window.drop (doneCount (streamOf s b) n) ++ (streamOf s b).resend).map
          (fun e => (e.idx, e.rep, e.step))) ∧
  (∀ (s : State) (b : BedId) (n : Byte) (h : Hand) (f : FormStop), (bedHears s b .burning ∨ bedHears s b .marking) →
    (streamOf s b).pausing = true → pausedNumberOk (streamOf s b) n = true → trimEnds (streamOf s b) n = false →
    (streamOf s b).form = some f → (runOf s b).hand = some h →
    ∃ u, exec (.gantryPaused b n) s = .next (settle s u) ∧ faulted u b fSTEP_FORM ∧ returnsWith u b h 3 (f.code % 2 ^ 8) ∧
      returnPlace u = some (f.idx % 2 ^ 16, f.rep % 2 ^ 8) ∧ Output.abort b ∉ u.out) ∧
  (∀ (s : State) (b : BedId), (runOf s b).state = .paused →
    ((runOf s b).pause = 0 → (runOf s b).marks.pass = none →
      let u := resumeDue s b
      (runOf u b).state = (if (streamOf s b).fromMarking then .marking else .burning) ∧
        u.out = (if isLive s b then s.out ++ [.resume b] else s.out) ∧
        streamOf u b = { streamOf s b with
          synth := !(streamOf s b).fromMarking && (streamOf s b).arcAtPause, fromMarking := false, arcAtPause := false }) ∧
    (((runOf s b).pause ≠ 0 ∨ (runOf s b).marks.pass ≠ none) → resumeDue s b = s)) ∧
  (∀ t : Stream,
    (∀ k i r p, t.synth = true → firstAfterPause t = some (k, i, r) → t.lastPierce = some p →
      ((k = kLINE ∨ k = kARC) → nextPierce t = some ⟨i, r, p, 0, true⟩) ∧ (k ≠ kLINE → k ≠ kARC → synthDue t = none)) ∧
    (t.synth = false → synthDue t = none)) ∧
  (∀ (s : State) (b : BedId) (n : Byte), (bedHears s b .burning ∨ bedHears s b .marking) →
    ((streamOf s b).pausing = false ∨ pausedNumberOk (streamOf s b) n = false) →
    ∃ u, exec (.gantryPaused b n) s = .next (settle s u) ∧ faulted u b fGANTRY) ∧
  (∀ (s : State) (b : BedId),
    ((bedHears s b .marking ∨ bedHears s b .burning ∨ bedHears s b .paused) →
      ∃ u, exec (.gantryStopped b) s = .next (settle s u) ∧ faulted u b fGANTRY) ∧
    (∀ h o t, bedHears s b .stopping → s.cmd.mode ≠ .resetting → (runOf s b).hand = some h → (runOf s b).stop = some ⟨o, t⟩ →
      ∃ u, exec (.gantryStopped b) s = .next (settle s u) ∧ (runOf u b).state = .stopped ∧ returnsWith u b h o.num 0) ∧
    (∀ o t, (runOf s b).state = .stopping → s.cmd.mode ≠ .resetting → (runOf s b).stop = some ⟨o, t⟩ →
      10000 ≤ (s.clock - t).toNat →
      ∃ u, exec (.stopLimit b) s = .next (settle s u) ∧ faulted u b fGANTRY)) ∧
  (∀ (s : State) (b : BedId) (o : Outcome) (t : Word), s.cmd.mode = .resetting → (runOf s b).state = .stopping →
    (runOf s b).stop = some ⟨o, t⟩ →
    (bedHears s b .stopping → ∃ u, exec (.gantryStopped b) s = .next (settle s u) ∧ endsBedReset s u b .stopped o.num ∧
      u.faults = s.faults) ∧
    (bedHears s b .stopping → 50 ≤ (s.clock - (bedOf s b).lk.since).toNat →
      ∃ u, exec (.bedLinkTimeout b) s = .next (settle s u) ∧ endsBedReset s u b .other o.num ∧ isLive u b = false ∧
        hasBit (u.faults.beds.get b).flags fLINK_LOST = true) ∧
    (10000 ≤ (s.clock - t).toNat →
      ∃ u, exec (.stopLimit b) s = .next (settle s u) ∧ endsBedReset s u b .other 6 ∧
        hasBit (u.faults.beds.get b).flags fGANTRY = true))

/-- A FAULT of the gantry keeps its cause; a bed STOPPED, STOPPING or FAULTED only takes the flag, another enters FAULTED and
returns its order FAULT_ABORT with detail 34 (R63, R86). -/
def Obligations.GantryFault : Prop :=
  ∀ (s : State) (b : BedId) (cause : Byte) (t : BedState), bedHears s b t →
    ((t = .stopped ∨ t = .stopping ∨ t = .faulted) →
      ∃ u, exec (.gantryFault b cause) s = .next (settle s u) ∧ runOf u b = runOf s b ∧ (bedOf u b).lk.lastFault = cause ∧
        hasBit (u.faults.beds.get b).flags fGANTRY = true) ∧
    ((t ≠ .stopped ∧ t ≠ .stopping ∧ t ≠ .faulted) →
      ∃ u, exec (.gantryFault b cause) s = .next (settle s u) ∧ faulted u b fGANTRY ∧ (bedOf u b).lk.lastFault = cause ∧
        (bedOf u b).lk.hold = false ∧ (runOf u b).permit = false ∧ u.locks.owns b = false ∧
        ∀ h, (runOf s b).hand = some h → returnsWith u b h 7 34)

/-! ## The crane -/

/-- The crane selects only in RUN, IDLE, with a LIVE link and no load: a host order at the aging limit, else the beds in round
robin, else the first feasible host order (R137, R139); a dispatch takes the zones, reserves an infeed place and sends MOVE with the next
ID (R138, R140). The messages of a move in flight (R142, R144 to R150): ACCEPT, REFUSE, LIFTED, ARRIVED, SET, RETURNING and DROPPED. That a
host order refused in HALTING is returned is the model's reading (log 62). A SET at the destination ends the move: the
infeed stacks the piece and its reservation is converted, the scrap bay frees the record; a host order is returned DONE with final location
and measured mass and its LIFT claim released, a bed's request leaves its bank (R146). A SET of a move turned back during a hall reset ends
the crane's part of it with the piece at its source (R155); for a record that LOAD_DROP made LOST that it takes the place is the model's
choice (log 58). -/
def Obligations.CraneMove : Prop :=
  (∀ s : State,
    let limit := param s (·.aging) 0
    let aged (o : StockOrder) : Prop := limit ≠ 0 ∧ limit ≤ o.age ∧ hostFeasible s o = true
    let noneAged := ∀ o ∈ s.crane.stock, ¬ aged o
    let noBed := ∀ b, bedFeasible s b = none
    (craneFree s = false → craneSelect s = s) ∧
    (craneFree s = true →
      (∀ o before rest, s.crane.stock = before ++ o :: rest → (∀ o' ∈ before, ¬ aged o') → aged o →
        craneSelect s = dispatchHost s o) ∧
      (∀ b q, noneAged → (bedsAfter s.crane.lastServed).find? (fun b => (bedFeasible s b).isSome) = some b →
        bedFeasible s b = some q → craneSelect s = dispatchBed s b q) ∧
      (∀ o, noneAged → noBed → s.crane.stock.find? (hostFeasible s) = some o → craneSelect s = dispatchHost s o) ∧
      (noneAged → noBed → (∀ o ∈ s.crane.stock, hostFeasible s o = false) → craneSelect s = s))) ∧
  (∀ (s : State) (q : ReqId) (k : ReqKind) (i id : Nat) (dest : Loc),
    let u := dispatch s q k i id dest
    let p := plateAt s i
    let exp := if p.st = .stock ∧ p.suspect = false then some p.mass else none
    (u.crane.move.map fun m => (m.id, m.kind, m.req, m.ix, m.plate, m.src, m.dst, m.expected)) =
        some (s.crane.nextId, k, q, i, id, p.loc, dest, exp) ∧
      u.crane.state = .dispatched ∧ u.crane.phaseSince = s.clock ∧
      u.crane.nextId = (if s.crane.nextId = 255 then 1 else s.crane.nextId + 1) ∧
      (∀ b, (p.loc = .bed b ∨ dest = .bed b) → zoneOf u b = .crane) ∧
      (∀ b, p.loc ≠ .bed b → dest ≠ .bed b → zoneOf u b = zoneOf s b) ∧
      (∀ n, dest = .infeed n → u.stock = { s.stock with infeedRes := some q }) ∧
      ((∀ n, dest ≠ .infeed n) → u.stock = s.stock) ∧
      (s.crane.lk.live = true → u.out = s.out ++ [.craneMove s.crane.nextId p.loc dest exp])) ∧
  (∀ (s : State) (b : BedId) (q : BedReq) (rest : List BedReq), s.crane.bank.get b = q :: rest →
    let u := dispatchBed s b q
    u.crane.lastServed = b ∧ u.crane.bank = s.crane.bank.set b ({ q with inFlight := true } :: rest) ∧
      u.crane.stock = s.crane.stock.map (fun o => if hostFeasible s o then { o with age := min (o.age + 1) 15 } else o) ∧
      (u.crane.move.map (·.req)) = some (.bed b q.kind q.plate)) ∧
  (∀ (s : State) (o : StockOrder),
    let u := dispatchHost s o
    u.crane.stock = s.crane.stock.map (fun x => if x.idx = o.idx then { x with stage := .inFlight } else x) ∧
      u.crane.bank = s.crane.bank ∧ (u.crane.move.map (·.req)) = some (.host o.idx)) ∧
  ∀ (s : State) (m : Move),
    (craneHears s m .dispatched →
      (exec (.craneAccept m.id) s = .next (settle s (setCrane (craneHeardAt s)
        { (craneHeardAt s).crane with state := .lifting, phaseSince := s.clock, refusals := 0 }))) ∧
      (∀ i, m.abort = false → m.req = .host i → s.crane.refusals + 1 < 3 →
        ∃ u, exec (.craneRefuse m.id) s = .next (settle s u) ∧ u.crane.state = .idle ∧ u.crane.move = none ∧
          u.crane.refusals = s.crane.refusals + 1 ∧ hasBit u.faults.crane.flags fcREFUSED = true ∧
          (∀ o ∈ u.crane.stock, o.idx = i → o.stage = if s.cmd.mode = .halting then .returning else .queued) ∧
          (∀ b ∈ m.zones, zoneOf u b ≠ .crane)) ∧
      (m.abort = false → 3 ≤ s.crane.refusals + 1 →
        ∃ u, exec (.craneRefuse m.id) s = .next (settle s u) ∧ u.crane.state = .faulted ∧ u.crane.move = none ∧
          hasBit u.faults.crane.flags fcREFUSED = true)) ∧
    (∀ mass, (craneHears s m .dispatched ∨ craneHears s m .lifting) → holds s m.ix m.plate = true → m.abort = false →
      (outsideTolerance s m mass.toNat = false →
        ∃ u, exec (.craneLifted m.id mass) s = .next (settle s u) ∧ u.crane.state = .travelling ∧ u.crane.lk.load = .present ∧
          u.crane.move = some { m with measured := some mass.toNat, lifted := true } ∧
          u.stock.table = s.stock.table.set m.ix { plateAt s m.ix with loc := .crane }) ∧
      (outsideTolerance s m mass.toNat = true →
        ∃ u, exec (.craneLifted m.id mass) s = .next (settle s u) ∧ u.crane.state = .returning ∧
          u.crane.move = some { m with measured := some mass.toNat, lifted := true, abort := true, turned := true, massBad := true } ∧
          u.stock.table = s.stock.table.set m.ix { plateAt s m.ix with loc := .crane } ∧
          hasBit u.faults.crane.flags fcMASS = true ∧ u.crane.mismatched = s.crane.mismatched + 1 ∧
          Output.craneAbort m.id ∈ u.out)) ∧
    (craneHears s m .travelling →
      exec (.craneArrived m.id) s = .next (settle s (setCrane (craneHeardAt s)
        { (craneHeardAt s).crane with state := .setting, phaseSince := s.clock }))) ∧
    ((craneHears s m .travelling ∨ craneHears s m .setting) → holds s m.ix m.plate = true → m.ix < s.stock.table.length →
      (∀ l, m.dst = l → ((∃ n, l = .rack n) ∨ l = .overflow ∨ ∃ b, l = .bed b) →
        ∃ u, exec (.craneSet m.id) s = .next (settle s u) ∧ u.crane.state = .idle ∧ u.crane.move = none ∧
          u.crane.lk.load = .absent ∧ u.crane.moved = s.crane.moved + 1 ∧
          u.stock.table = s.stock.table.set m.ix { plateAt s m.ix with loc := l } ∧ (∀ b ∈ m.zones, zoneOf u b ≠ .crane)) ∧
      (m.dst = .scrap →
        ∃ u, exec (.craneSet m.id) s = .next (settle s u) ∧ u.crane.state = .idle ∧ u.crane.moved = s.crane.moved + 1 ∧
          u.stock.table = s.stock.table.set m.ix .blank ∧ (∀ b ∈ m.zones, zoneOf u b ≠ .crane)) ∧
      (∀ n, m.dst = .infeed n →
        ∃ u, exec (.craneSet m.id) s = .next (settle s u) ∧ u.crane.state = .idle ∧ u.crane.moved = s.crane.moved + 1 ∧
          u.stock.table = s.stock.table.set m.ix { plateAt s m.ix with loc := .infeed (locatedInfeed s + 1) } ∧
          u.stock.infeedRes = (if s.stock.infeedRes = some m.req then none else s.stock.infeedRes) ∧
          (∀ b ∈ m.zones, zoneOf u b ≠ .crane)) ∧
      (∀ i o, m.req = .host i → m.live = true → s.crane.stock.find? (·.idx == i) = some o → (plateAt s m.ix).st ≠ .lost →
        ∃ u, exec (.craneSet m.id) s = .next (settle s u) ∧ craneReturned u o 0 (placedLoc s m.dst) (measuredOf m) ∧
          u.crane.stock = s.crane.stock.map (fun x => if x.idx = i then { x with stage := .returning } else x) ∧
          u.stock.releases = s.stock.releases ++ [⟨o.ix, crPlate o.order, .lift i⟩]) ∧
      (∀ b k id q rest, m.req = .bed b k id → m.live = true → s.crane.bank.get b = q :: rest → q.inFlight = true →
        ∃ u, exec (.craneSet m.id) s = .next (settle s u) ∧ u.crane.bank = s.crane.bank.set b rest ∧
          u.crane.stock = s.crane.stock)) ∧
    (craneHears s m .returning →
      (exec (.craneReturning m.id) s = .next (settle s (setCrane (craneHeardAt s)
        { (craneHeardAt s).crane with move := some { m with confirmed := true } }))) ∧
      (m.confirmed = false →
        ∃ u, exec (.craneSet m.id) s = .next (settle s u) ∧ u.crane.state = .faulted ∧
          hasBit u.faults.crane.flags fcREFUSED = true) ∧
      (m.confirmed = true → ∀ n, m.src = .rack n → holds s m.ix m.plate = true → m.ix < s.stock.table.length →
        ∃ u, exec (.craneSet m.id) s = .next (settle s u) ∧ u.crane.state = .idle ∧ u.crane.move = none ∧
          (plateAt u m.ix).loc = .rack n ∧ (plateAt u m.ix).suspect = (m.massBad || (plateAt s m.ix).suspect))) ∧
    (∀ t n, s.crane.lk.live = true → s.crane.move = some m → s.crane.state = .returning → s.crane.resetAt = some t →
      m.confirmed = true → m.src = .rack n → holds s m.ix m.plate = true → m.ix < s.stock.table.length →
      ∃ u, exec (.craneSet m.id) s = .next (settle s u) ∧ u.crane.resetAt = none ∧ u.crane.resetEnded = true ∧
        (plateAt u m.ix).loc = .rack n ∧ (plateAt u m.ix).suspect = (m.massBad || (plateAt s m.ix).suspect)) ∧
    (∀ i c, ((c = .craneDropped m.id ∧ (craneHears s m .dispatched ∨ craneHears s m .lifting)) ∨
        (c = .craneRefuse m.id ∧ craneHears s m .dispatched)) → m.abort = true → m.req = .host i → m.live = true →
      ∃ u, exec c s = .next (settle s u) ∧ u.crane.state = .idle ∧ u.crane.move = none ∧
        u.crane.lk.load = .absent ∧ (∀ o ∈ u.crane.stock, o.idx = i → o.stage = .returning))

/-- READY and the other crane messages (R141, R142), FAULT (R151), the link and phase timers (R141, R143) and the end of the crane's
part of a hall reset, a RETURNING of a move DISPATCHED or LIFTING leaving it failed in RETURNING (R155). A FAULT of the move's ID makes a
move in flight the failed move and its host order held; LOAD_DROP makes the record at CRANE LOST, in a hall reset too, tells the beds that wait
for its claim, and tells the bed of a LOAD_BED, which returns its order FAULT_ABORT, PLATE_LOST (R11, R15, R58, R151). The model's readings
and choices: a FAULT of move ID 0 is always taken (log 32); the 2 s without an answer run from HALL_RESET, and nothing restarts them (log
90); the counters of the crane are cleared at that end with the bank (log 44). -/
def Obligations.CraneFaults : Prop :=
  ∀ s : State,
    (∀ loaded, (s.crane.lk.seen = true ∨ loaded = false) →
      exec (.craneReady loaded) s = .next (settle s (setCrane (fresh s)
        { s.crane with lk := ⟨true, s.clock, if loaded then .present else .absent, true⟩ }))) ∧
    (s.crane.lk.seen = false →
      ∃ u, exec (.craneReady true) s = .next (settle s u) ∧ u.crane.state = .faulted ∧ u.crane.lk.load = .present ∧
        hasBit u.faults.crane.flags fcRESET_LOADED = true) ∧
    (s.crane.lk.live = false → ∀ id mass c, ∀ i ∈ craneMessages id mass c, exec i s = .next (fresh s)) ∧
    (∀ id cause, s.crane.lk.live = true → s.crane.resetAt = none → (id = 0 ∨ ∃ m, s.crane.move = some m ∧ m.id = id) →
      ∃ u, exec (.craneFault id cause) s = .next (settle s u) ∧ u.crane.state = .faulted ∧
        u.crane.lastFault = byte (CraneCause.num cause) ∧
        (s.crane.state ≠ .faulted → u.crane.faulted = s.crane.faulted + 1 ∧
          (u.crane.move.map fun x => (x.id, x.phase)) = s.crane.move.map (fun m => (m.id, some s.crane.state)) ∧
          (∀ m i, s.crane.move = some m → m.req = .host i →
            u.crane.stock = s.crane.stock.map (fun o => if o.idx = i then { o with stage := .failed } else o))) ∧
        (s.crane.state = .faulted → u.crane.faulted = s.crane.faulted) ∧
        (cause ≠ .loadDrop → u.stock.table = s.stock.table ∧ u.faults = s.faults) ∧
        (cause = .loadDrop → hasBit u.faults.crane.flags fcLOAD_DROP = true)) ∧
    (∀ id cause, s.crane.lk.live = true → id ≠ 0 → (∀ m, s.crane.move = some m → m.id ≠ id) →
      exec (.craneFault id cause) s = .next (settle s (craneHeardAt s))) ∧
    (∀ id i p, s.crane.lk.live = true → (id = 0 ∨ ∃ m, s.crane.move = some m ∧ m.id = id) →
      s.stock.table[i]? = some p → p.located = true → p.loc = .crane →
      (∀ j q, s.stock.table[j]? = some q → q.located = true → q.loc = .crane → j = i) →
      ∃ u, exec (.craneFault id .loadDrop) s = .next (settle s u) ∧ hasBit u.faults.crane.flags fcLOAD_DROP = true ∧
        u.stock.table = s.stock.table.set i { p with st := .lost } ∧ (∀ w ∈ u.stock.waiters, w.1 ≠ i) ∧
        (∀ m b x q rest h, s.crane.move = some m → m.kind = .loadBed → m.ix = i → m.req = .bed b .loadBed x →
          m.live = true → s.crane.bank.get b = q :: rest → q.inFlight = true → q.orphan = false →
          (runOf s b).state = .staging → (runOf s b).hand = some h →
          (runOf u b).state = .waiting ∧ returnsWith u b h 7 36 ∧ (u.crane.move.map (·.live)) = some false)) ∧
    (s.crane.lk.live = true → 1000 ≤ (s.clock - s.crane.lk.since).toNat → s.crane.resetAt = none →
      ∃ u, exec .craneLinkTimeout s = .next (settle s u) ∧ u.crane.lk.live = false ∧ u.crane.state = .faulted ∧
        hasBit u.faults.crane.flags fcLINK_LOST = true) ∧
    (∀ n, phaseLimit s.crane.state = some n → n ≤ (s.clock - s.crane.phaseSince).toNat → s.crane.resetAt = none →
      ∃ u, exec .phaseLimit s = .next (settle s u) ∧ u.crane.state = .faulted ∧ u.crane.faulted = s.crane.faulted + 1 ∧
        u.crane.move = s.crane.move.map (fun m => { m with phase := some s.crane.state }) ∧
        hasBit u.faults.crane.flags fcTIMEOUT = true) ∧
    (∀ t, s.crane.resetAt = some t → 2000 ≤ (s.clock - t).toNat →
      ∃ u, exec .craneResetLimit s = .next (settle s u) ∧ u.crane.resetAt = none ∧ u.crane.resetEnded = true ∧
        u.crane.bank = ⟨[], [], [], []⟩ ∧ u.crane.refusals = 0) ∧
    (∀ t m, s.crane.lk.live = true → s.crane.resetAt = some t → s.crane.move = some m → m.phase = none →
      (s.crane.state = .dispatched ∨ s.crane.state = .lifting) → holds s m.ix m.plate = true → m.ix < s.stock.table.length →
      (plateAt s m.ix).located = true →
      ∃ u, exec (.craneReturning m.id) s = .next (settle s u) ∧ u.crane.resetEnded = true ∧ u.crane.state = .faulted ∧
        (plateAt u m.ix).loc = .crane ∧ hasBit u.faults.crane.flags fcRESET_LOADED = true ∧
        (u.crane.move.map fun x => (x.id, x.phase, x.lifted)) = some (m.id, some .returning, true))

/-! ## Watches -/

/-- The host watch running out sets HOST_SILENT and puts a running hall in HOLD (R170); a hold that reaches its expiry becomes NONE
and HOLD_EXPIRED waits for the record's write-back (R12). -/
def Obligations.HostWatchAndHoldExpiry : Prop :=
  (∀ (s : State) (t : Word), s.faults.watch = some t → watchMs (param s (·.watch) 0) ≤ (s.clock - t).toNat →
    hasBit s.faults.hall.flags fhHOST_SILENT = false →
    ∃ u, exec .hostWatchExpiry s = .next (settle s u) ∧ u.faults.watch = some s.clock ∧
      hasBit u.faults.hall.flags fhHOST_SILENT = true ∧
      (s.cmd.mode = .run → u.cmd.mode = .hold ∧ u.cmd.origin = .hostWatch ∧
        ∀ b, activeState (runOf s b).state = true → hasBit (runOf u b).pause pHOLD = true) ∧
      (s.cmd.mode ≠ .run → u.cmd = s.cmd ∧ u.beds = s.beds)) ∧
  (∀ (s : State) (i : Nat) (t : BitVec 16) (e : Word), s.loader.inForce.isSome = true → s.loader.ver = none →
    (plateAt s i).claim = .hold t e → (holdMs s).toNat ≤ (s.clock - (e - holdMs s)).toNat →
    ∃ u, exec (.holdExpiry i) s = .next (settle s u) ∧
      u.stock.table = s.stock.table.set i { plateAt s i with claim := .none } ∧
      (u.engine.deferred.getLast?.map (·.act)) = some (.cause aHOLD_EXPIRED) ∧ u.faults = s.faults ∧
      queued u (.writeBack (.plate i)) = true)

/-! ## Frames and invariants -/

/-- What follows by itself in a taking leaves alone the fields of `Quiet`: clock, queue, memory path, loader, fault groups,
attention, bed links and rings, plate table, token counter, reservations, crane link, counters. The order of the automatic acts is the
model's (log 8): the beds' ends of unloading and their own acts, the crane's selection, the completion of commands, the write-back of each
status record whose content changed (R47, R156, R172, R177), FAULT for a combined flag that rose (R176), and the result given (R211),
written at once or when the write-backs it waits for are answered: those of records its own taking changed, by `resultWaits` (the
model's reading, log 22). The ownership read of BED_START waits with its result (the model's reading, log 12). -/
def Obligations.TakingKeeps : Prop :=
  (∀ s0 s : State, quiet (settle s0 s) = quiet s) ∧
  (∀ s0 s : State, settle s0 s =
    settleResult s0 (settleFault (settleRecords s0 (settleCommands (craneSelect (settleBeds (settleUnload s))))))) ∧
  (∀ (s : State) (b : BedId), bedSettle s b =
    askArbiter (askFetch (pump 80 (markingAgain (resumeDue (markingDue (stagingDue (locksTold (claimTold s b) b) b) b) b) b) b) b) b) ∧
  (∀ (s0 s : State) (r : RecId), r ∈ statusRecords → s.loader.inForce.isSome = true →
    queued (settleRecords s0 s) (.writeBack r) = (queued s (.writeBack r) || !decide (content s0 r = content s r))) ∧
  (∀ s : State, s.faults.owed = true → s.loader.inForce.isSome = true →
    (settleFault s).faults = { s.faults with owed := false } ∧ queued (settleFault s) (.writeBack .fault) = true ∧
      ∃ t, ticketOf (settleFault s) (.writeBack .fault) = some t ∧
        (settleFault s).engine.deferred = s.engine.deferred ++ [⟨[t], .cause aFAULT⟩]) ∧
  (∀ s : State, s.faults.owed = false → settleFault s = s) ∧
  (∀ (s0 s : State) (r : Result) (c : Cmd), s.cmd.owed = some r → s.cmd.current = some c →
    let ws := resultWaits s0 s r.waits ++ r.always.filterMap (ticketOf s)
    let u := settleResult s0 s
    u.cmd.owed = none ∧
      (ws = [] → r.after = none → u.cmd.resultNo = s.cmd.resultNo + 1 ∧ u.engine.deferred = s.engine.deferred ∧
        u.engine.queue = s.engine.queue ++ [⟨s.engine.nextTicket, .result, param s (·.control) 0 + 0x80,
          resultLine (s.cmd.resultNo + 1) c.code c.target c.tag r.outcome r.d1 r.d2 r.d3, enable 0 64, false⟩]) ∧
      (ws ≠ [] → u.cmd.resultNo = s.cmd.resultNo ∧ u.engine.queue = s.engine.queue ∧
        u.engine.deferred = s.engine.deferred ++ ⟨ws, .result c.code c.target c.tag r.outcome r.d1 r.d2 r.d3⟩ ::
          (r.after.map fun b => ⟨ws, .ownerRead b⟩).toList))

/-- The frame of every command: which commands alone may change the clock and the base, the memory path and the loader, plate records,
attention causes, the crane link; and a gantry's message touches no other bed's link and ring. That no command, HARD_RESET among them,
changes the queue of the commands that wait is the model's choice (log 51). -/
def Obligations.Frames : Prop :=
  ∀ (c : Instr) (s t : State), exec c s = .next t →
    t.pending = s.pending ∧
    ((∀ a b, c ≠ .hardReset a b) → t.clock = s.clock ∧ t.loader.base = s.loader.base) ∧
    (insideCommand c = true →
      t.path = s.path ∧ t.loader = s.loader ∧ t.faults.mask = s.faults.mask ∧ t.stock.tokenCtr = s.stock.tokenCtr) ∧
    (tableCommand c = false → t.stock.table = s.stock.table) ∧
    (attentionCommand c = false → t.faults.pending = s.faults.pending) ∧
    (craneLinkCommand c = false → t.crane.lk = s.crane.lk) ∧
    (∀ b n v k, c ∈ gantryMessages b n v k → ∀ b', b' ≠ b →
      bedKept (t.beds.get b') = bedKept (s.beds.get b') ∧ t.faults.beds.get b' = s.faults.beds.get b')

/-- The records as the part writes them: where each lies and its lines, field by field at the offsets of R218, every other byte 0; a
plate record of R2 whole. In bed status, STAGING shows the first wait cause of R56 that applies. The model's readings and choices: the
class of some fields of the bed, hall and crane status records (log 14), what bed status shows with no mark at the cursor, with no order in
hand, of the stream wait, outside PAUSED and with no form stop (logs 66, 69, 70, 76), the permit shown from its delivery on, the cursor and the
index of its mark as two fields (logs 88, 93), H'FF for no token holder and empty wait lists in START_UP too (log 91), the order of
overweight requests (log 59), what crane status shows without a move, and the numbers of its abort state (log 85). -/
def Obligations.RecordImages : Prop :=
  (∀ p : Plate, composedOf p.lines 2 (plateFields p)) ∧
  (∀ v : Verdict, composedOf [verdictLine v] 1 (verdictFields v)) ∧
  ∀ s : State,
    (∀ i, recLines s (.plate i) = (plateAt s i).lines) ∧
    (∀ v, s.loader.ver = some v → ∀ i, recLines s (.scan i) = (v.table.getD i .blank).lines) ∧
    (∀ v, (s.loader.ver.bind (·.verdict) = some v ∨ s.loader.ver.bind (·.verdict) = none ∧ s.loader.verdict = some v) →
      recLines s .verdict = [verdictLine v]) ∧
    (∀ b, composedOf (recLines s (.bed b)) 2 (bedFields s b)) ∧ composedOf (recLines s .hall) 2 (hallFields s) ∧
    composedOf (recLines s .crane) 2 (craneFields s) ∧ composedOf (recLines s .fault) 2 (faultFields s) ∧
    (s.path.log.length ≤ Config.violationLog → composedOf (recLines s .violations) 2 (violationFields s.path)) ∧
    (s.cmd.snapshot.length ≤ 64 →
      composedOf (recLines s .stats) 4 (s.cmd.snapshot.zipIdx.map fun w => (4 * w.2, 4, w.1.toNat))) ∧
    (∀ v a, s.loader.ver = some v → v.cand = some a → ∀ i, recAddr s (.scan i) = a.table + 128 * i) ∧
    (∀ a, s.loader.inForce = some a →
      (∀ i, recAddr s (.plate i) = a.table + 128 * i) ∧ recAddr s .verdict = s.loader.base + 0x3C0 ∧
      recAddr s .hall = a.control + 0xC0 ∧ (∀ b, recAddr s (.bed b) = a.control + 0x140 + 128 * bedNum b) ∧
      recAddr s .crane = a.control + 0x340 ∧ recAddr s .fault = a.control + 0x3C0 ∧ recAddr s .violations = a.control + 0x440 ∧
      recAddr s .stats = a.control + 0x4C0) ∧
    ∀ (b : BedId) (h : Hand) (k : Look), (runOf s b).state = .staging → (runOf s b).hand = some h → h.look = some k →
      let p := plateAt s k.ix
      let found := holds s k.ix (ordPlate h.order) = true ∧ p.located = true
      let below := ∃ n, p.loc = .infeed n ∧ n < locatedInfeed s
      let here := found ∧ p.loc = .bed b
      let other := ∃ q ∈ s.stock.table, q.located = true ∧ q.loc = .bed b ∧ q.id ≠ ordPlate h.order
      (found → below → waitCause s b = 4) ∧ (¬(found ∧ below) → ¬here → waitCause s b = 3) ∧
      (here → zoneOf s b ≠ .free ∨ other → waitCause s b = 5) ∧
      (here → zoneOf s b = .free → ¬other → waitCause s b = if s.cmd.mode = .run then 0 else 6)

/-- Every step keeps the sizes of the memory path's queues and of the STOCK bank, and hold tokens and move IDs from 0 (R12, R129, R140,
R181, R188, R191). -/
def Obligations.StepKeepsQueues : Prop :=
  ∀ s t : State, step s = .next t →
    (PathBounds s → PathBounds t) ∧ (StockBankOk s → StockBankOk t) ∧ (CountersOk s → CountersOk t)

/-- Every step keeps the lock table at up to 6 entries, each with an owner (R52), and no more permits held than there are (R112). -/
def Obligations.StepKeepsLocksAndPermits : Prop :=
  ∀ s t : State, step s = .next t → (LocksOk s → LocksOk t) ∧ (PermitsOk s → PermitsOk t)
end

