-- ==== Sys2Proof/Laws/State.lean ====
section
/-!
SUPPORT. Sys2Proof/Laws/State.lean: for each update of the state, what it does to each field, so that no proof unfolds a
record update.
-/
namespace Sys2Proof.Machine

/-! ## One value per bed -/

@[simp] theorem PerBed.get_set_self {α : Type} (p : PerBed α) (b : BedId) (a : α) : (p.set b a).get b = a := by cases b <;> rfl
theorem PerBed.get_set_ne {α : Type} (p : PerBed α) {b c : BedId} (a : α) (h : c ≠ b) : (p.set b a).get c = p.get c := by
  cases b <;> cases c <;> first | rfl | exact absurd rfl h
theorem PerBed.get_set {α : Type} (p : PerBed α) (b c : BedId) (a : α) :
    (p.set b a).get c = if c = b then a else p.get c := by cases b <;> cases c <;> rfl
@[simp] theorem PerBed.set_set {α : Type} (p : PerBed α) (b : BedId) (x y : α) : (p.set b x).set b y = p.set b y := by
  cases b <;> rfl
@[simp] theorem PerBed.set_get {α : Type} (p : PerBed α) (b : BedId) : p.set b (p.get b) = p := by cases b <;> rfl

/-! ## Fields after an update -/

section
variable (s : State) (p : Path)
@[simp] theorem setPath_clock : (setPath s p).clock = s.clock := rfl
@[simp] theorem setPath_pending : (setPath s p).pending = s.pending := rfl
@[simp] theorem setPath_out : (setPath s p).out = s.out := rfl
@[simp] theorem setPath_path : (setPath s p).path = p := rfl
@[simp] theorem setPath_engine : (setPath s p).engine = s.engine := rfl
@[simp] theorem setPath_loader : (setPath s p).loader = s.loader := rfl
@[simp] theorem setPath_cmd : (setPath s p).cmd = s.cmd := rfl
@[simp] theorem setPath_faults : (setPath s p).faults = s.faults := rfl
@[simp] theorem setPath_stock : (setPath s p).stock = s.stock := rfl
@[simp] theorem setPath_locks : (setPath s p).locks = s.locks := rfl
@[simp] theorem setPath_arb : (setPath s p).arb = s.arb := rfl
@[simp] theorem setPath_beds : (setPath s p).beds = s.beds := rfl
@[simp] theorem setPath_zones : (setPath s p).zones = s.zones := rfl
@[simp] theorem setPath_crane : (setPath s p).crane = s.crane := rfl
end

section
variable (s : State) (e : Engine)
@[simp] theorem setEngine_clock : (setEngine s e).clock = s.clock := rfl
@[simp] theorem setEngine_pending : (setEngine s e).pending = s.pending := rfl
@[simp] theorem setEngine_out : (setEngine s e).out = s.out := rfl
@[simp] theorem setEngine_path : (setEngine s e).path = s.path := rfl
@[simp] theorem setEngine_engine : (setEngine s e).engine = e := rfl
@[simp] theorem setEngine_loader : (setEngine s e).loader = s.loader := rfl
@[simp] theorem setEngine_cmd : (setEngine s e).cmd = s.cmd := rfl
@[simp] theorem setEngine_faults : (setEngine s e).faults = s.faults := rfl
@[simp] theorem setEngine_stock : (setEngine s e).stock = s.stock := rfl
@[simp] theorem setEngine_locks : (setEngine s e).locks = s.locks := rfl
@[simp] theorem setEngine_arb : (setEngine s e).arb = s.arb := rfl
@[simp] theorem setEngine_beds : (setEngine s e).beds = s.beds := rfl
@[simp] theorem setEngine_zones : (setEngine s e).zones = s.zones := rfl
@[simp] theorem setEngine_crane : (setEngine s e).crane = s.crane := rfl
end

section
variable (s : State) (l : Loader)
@[simp] theorem setLoader_clock : (setLoader s l).clock = s.clock := rfl
@[simp] theorem setLoader_pending : (setLoader s l).pending = s.pending := rfl
@[simp] theorem setLoader_out : (setLoader s l).out = s.out := rfl
@[simp] theorem setLoader_path : (setLoader s l).path = s.path := rfl
@[simp] theorem setLoader_engine : (setLoader s l).engine = s.engine := rfl
@[simp] theorem setLoader_loader : (setLoader s l).loader = l := rfl
@[simp] theorem setLoader_cmd : (setLoader s l).cmd = s.cmd := rfl
@[simp] theorem setLoader_faults : (setLoader s l).faults = s.faults := rfl
@[simp] theorem setLoader_stock : (setLoader s l).stock = s.stock := rfl
@[simp] theorem setLoader_locks : (setLoader s l).locks = s.locks := rfl
@[simp] theorem setLoader_arb : (setLoader s l).arb = s.arb := rfl
@[simp] theorem setLoader_beds : (setLoader s l).beds = s.beds := rfl
@[simp] theorem setLoader_zones : (setLoader s l).zones = s.zones := rfl
@[simp] theorem setLoader_crane : (setLoader s l).crane = s.crane := rfl
end

section
variable (s : State) (k : CmdEngine)
@[simp] theorem setCmd_clock : (setCmd s k).clock = s.clock := rfl
@[simp] theorem setCmd_pending : (setCmd s k).pending = s.pending := rfl
@[simp] theorem setCmd_out : (setCmd s k).out = s.out := rfl
@[simp] theorem setCmd_path : (setCmd s k).path = s.path := rfl
@[simp] theorem setCmd_engine : (setCmd s k).engine = s.engine := rfl
@[simp] theorem setCmd_loader : (setCmd s k).loader = s.loader := rfl
@[simp] theorem setCmd_cmd : (setCmd s k).cmd = k := rfl
@[simp] theorem setCmd_faults : (setCmd s k).faults = s.faults := rfl
@[simp] theorem setCmd_stock : (setCmd s k).stock = s.stock := rfl
@[simp] theorem setCmd_locks : (setCmd s k).locks = s.locks := rfl
@[simp] theorem setCmd_arb : (setCmd s k).arb = s.arb := rfl
@[simp] theorem setCmd_beds : (setCmd s k).beds = s.beds := rfl
@[simp] theorem setCmd_zones : (setCmd s k).zones = s.zones := rfl
@[simp] theorem setCmd_crane : (setCmd s k).crane = s.crane := rfl
end

section
variable (s : State) (f : Faults)
@[simp] theorem setFaults_clock : (setFaults s f).clock = s.clock := rfl
@[simp] theorem setFaults_pending : (setFaults s f).pending = s.pending := rfl
@[simp] theorem setFaults_out : (setFaults s f).out = s.out := rfl
@[simp] theorem setFaults_path : (setFaults s f).path = s.path := rfl
@[simp] theorem setFaults_engine : (setFaults s f).engine = s.engine := rfl
@[simp] theorem setFaults_loader : (setFaults s f).loader = s.loader := rfl
@[simp] theorem setFaults_cmd : (setFaults s f).cmd = s.cmd := rfl
@[simp] theorem setFaults_faults : (setFaults s f).faults = f := rfl
@[simp] theorem setFaults_stock : (setFaults s f).stock = s.stock := rfl
@[simp] theorem setFaults_locks : (setFaults s f).locks = s.locks := rfl
@[simp] theorem setFaults_arb : (setFaults s f).arb = s.arb := rfl
@[simp] theorem setFaults_beds : (setFaults s f).beds = s.beds := rfl
@[simp] theorem setFaults_zones : (setFaults s f).zones = s.zones := rfl
@[simp] theorem setFaults_crane : (setFaults s f).crane = s.crane := rfl
end

section
variable (s : State) (k : Stock)
@[simp] theorem setStock_clock : (setStock s k).clock = s.clock := rfl
@[simp] theorem setStock_pending : (setStock s k).pending = s.pending := rfl
@[simp] theorem setStock_out : (setStock s k).out = s.out := rfl
@[simp] theorem setStock_path : (setStock s k).path = s.path := rfl
@[simp] theorem setStock_engine : (setStock s k).engine = s.engine := rfl
@[simp] theorem setStock_loader : (setStock s k).loader = s.loader := rfl
@[simp] theorem setStock_cmd : (setStock s k).cmd = s.cmd := rfl
@[simp] theorem setStock_faults : (setStock s k).faults = s.faults := rfl
@[simp] theorem setStock_stock : (setStock s k).stock = k := rfl
@[simp] theorem setStock_locks : (setStock s k).locks = s.locks := rfl
@[simp] theorem setStock_arb : (setStock s k).arb = s.arb := rfl
@[simp] theorem setStock_beds : (setStock s k).beds = s.beds := rfl
@[simp] theorem setStock_zones : (setStock s k).zones = s.zones := rfl
@[simp] theorem setStock_crane : (setStock s k).crane = s.crane := rfl
end

section
variable (s : State) (l : Locks)
@[simp] theorem setLocks_clock : (setLocks s l).clock = s.clock := rfl
@[simp] theorem setLocks_pending : (setLocks s l).pending = s.pending := rfl
@[simp] theorem setLocks_out : (setLocks s l).out = s.out := rfl
@[simp] theorem setLocks_path : (setLocks s l).path = s.path := rfl
@[simp] theorem setLocks_engine : (setLocks s l).engine = s.engine := rfl
@[simp] theorem setLocks_loader : (setLocks s l).loader = s.loader := rfl
@[simp] theorem setLocks_cmd : (setLocks s l).cmd = s.cmd := rfl
@[simp] theorem setLocks_faults : (setLocks s l).faults = s.faults := rfl
@[simp] theorem setLocks_stock : (setLocks s l).stock = s.stock := rfl
@[simp] theorem setLocks_locks : (setLocks s l).locks = l := rfl
@[simp] theorem setLocks_arb : (setLocks s l).arb = s.arb := rfl
@[simp] theorem setLocks_beds : (setLocks s l).beds = s.beds := rfl
@[simp] theorem setLocks_zones : (setLocks s l).zones = s.zones := rfl
@[simp] theorem setLocks_crane : (setLocks s l).crane = s.crane := rfl
end

section
variable (s : State) (a : Arbiter)
@[simp] theorem setArb_clock : (setArb s a).clock = s.clock := rfl
@[simp] theorem setArb_pending : (setArb s a).pending = s.pending := rfl
@[simp] theorem setArb_out : (setArb s a).out = s.out := rfl
@[simp] theorem setArb_path : (setArb s a).path = s.path := rfl
@[simp] theorem setArb_engine : (setArb s a).engine = s.engine := rfl
@[simp] theorem setArb_loader : (setArb s a).loader = s.loader := rfl
@[simp] theorem setArb_cmd : (setArb s a).cmd = s.cmd := rfl
@[simp] theorem setArb_faults : (setArb s a).faults = s.faults := rfl
@[simp] theorem setArb_stock : (setArb s a).stock = s.stock := rfl
@[simp] theorem setArb_locks : (setArb s a).locks = s.locks := rfl
@[simp] theorem setArb_arb : (setArb s a).arb = a := rfl
@[simp] theorem setArb_beds : (setArb s a).beds = s.beds := rfl
@[simp] theorem setArb_zones : (setArb s a).zones = s.zones := rfl
@[simp] theorem setArb_crane : (setArb s a).crane = s.crane := rfl
end

section
variable (s : State) (c : Crane)
@[simp] theorem setCrane_clock : (setCrane s c).clock = s.clock := rfl
@[simp] theorem setCrane_pending : (setCrane s c).pending = s.pending := rfl
@[simp] theorem setCrane_out : (setCrane s c).out = s.out := rfl
@[simp] theorem setCrane_path : (setCrane s c).path = s.path := rfl
@[simp] theorem setCrane_engine : (setCrane s c).engine = s.engine := rfl
@[simp] theorem setCrane_loader : (setCrane s c).loader = s.loader := rfl
@[simp] theorem setCrane_cmd : (setCrane s c).cmd = s.cmd := rfl
@[simp] theorem setCrane_faults : (setCrane s c).faults = s.faults := rfl
@[simp] theorem setCrane_stock : (setCrane s c).stock = s.stock := rfl
@[simp] theorem setCrane_locks : (setCrane s c).locks = s.locks := rfl
@[simp] theorem setCrane_arb : (setCrane s c).arb = s.arb := rfl
@[simp] theorem setCrane_beds : (setCrane s c).beds = s.beds := rfl
@[simp] theorem setCrane_zones : (setCrane s c).zones = s.zones := rfl
@[simp] theorem setCrane_crane : (setCrane s c).crane = c := rfl
end

section
variable (s : State) (b : BedId) (r : BedRun)
@[simp] theorem setRun_clock : (setRun s b r).clock = s.clock := rfl
@[simp] theorem setRun_pending : (setRun s b r).pending = s.pending := rfl
@[simp] theorem setRun_out : (setRun s b r).out = s.out := rfl
@[simp] theorem setRun_path : (setRun s b r).path = s.path := rfl
@[simp] theorem setRun_engine : (setRun s b r).engine = s.engine := rfl
@[simp] theorem setRun_loader : (setRun s b r).loader = s.loader := rfl
@[simp] theorem setRun_cmd : (setRun s b r).cmd = s.cmd := rfl
@[simp] theorem setRun_faults : (setRun s b r).faults = s.faults := rfl
@[simp] theorem setRun_stock : (setRun s b r).stock = s.stock := rfl
@[simp] theorem setRun_locks : (setRun s b r).locks = s.locks := rfl
@[simp] theorem setRun_arb : (setRun s b r).arb = s.arb := rfl
@[simp] theorem setRun_zones : (setRun s b r).zones = s.zones := rfl
@[simp] theorem setRun_crane : (setRun s b r).crane = s.crane := rfl
end

section
variable (s : State) (b : BedId) (l : BedLink)
@[simp] theorem setLink_clock : (setLink s b l).clock = s.clock := rfl
@[simp] theorem setLink_pending : (setLink s b l).pending = s.pending := rfl
@[simp] theorem setLink_out : (setLink s b l).out = s.out := rfl
@[simp] theorem setLink_path : (setLink s b l).path = s.path := rfl
@[simp] theorem setLink_engine : (setLink s b l).engine = s.engine := rfl
@[simp] theorem setLink_loader : (setLink s b l).loader = s.loader := rfl
@[simp] theorem setLink_cmd : (setLink s b l).cmd = s.cmd := rfl
@[simp] theorem setLink_faults : (setLink s b l).faults = s.faults := rfl
@[simp] theorem setLink_stock : (setLink s b l).stock = s.stock := rfl
@[simp] theorem setLink_locks : (setLink s b l).locks = s.locks := rfl
@[simp] theorem setLink_arb : (setLink s b l).arb = s.arb := rfl
@[simp] theorem setLink_zones : (setLink s b l).zones = s.zones := rfl
@[simp] theorem setLink_crane : (setLink s b l).crane = s.crane := rfl
end

section
variable (s : State) (b : BedId) (r : Ring)
@[simp] theorem setRing_clock : (setRing s b r).clock = s.clock := rfl
@[simp] theorem setRing_pending : (setRing s b r).pending = s.pending := rfl
@[simp] theorem setRing_out : (setRing s b r).out = s.out := rfl
@[simp] theorem setRing_path : (setRing s b r).path = s.path := rfl
@[simp] theorem setRing_engine : (setRing s b r).engine = s.engine := rfl
@[simp] theorem setRing_loader : (setRing s b r).loader = s.loader := rfl
@[simp] theorem setRing_cmd : (setRing s b r).cmd = s.cmd := rfl
@[simp] theorem setRing_faults : (setRing s b r).faults = s.faults := rfl
@[simp] theorem setRing_stock : (setRing s b r).stock = s.stock := rfl
@[simp] theorem setRing_locks : (setRing s b r).locks = s.locks := rfl
@[simp] theorem setRing_arb : (setRing s b r).arb = s.arb := rfl
@[simp] theorem setRing_zones : (setRing s b r).zones = s.zones := rfl
@[simp] theorem setRing_crane : (setRing s b r).crane = s.crane := rfl
end

section
variable (s : State) (b : BedId) (z : Zone)
@[simp] theorem setZone_clock : (setZone s b z).clock = s.clock := rfl
@[simp] theorem setZone_pending : (setZone s b z).pending = s.pending := rfl
@[simp] theorem setZone_out : (setZone s b z).out = s.out := rfl
@[simp] theorem setZone_path : (setZone s b z).path = s.path := rfl
@[simp] theorem setZone_engine : (setZone s b z).engine = s.engine := rfl
@[simp] theorem setZone_loader : (setZone s b z).loader = s.loader := rfl
@[simp] theorem setZone_cmd : (setZone s b z).cmd = s.cmd := rfl
@[simp] theorem setZone_faults : (setZone s b z).faults = s.faults := rfl
@[simp] theorem setZone_stock : (setZone s b z).stock = s.stock := rfl
@[simp] theorem setZone_locks : (setZone s b z).locks = s.locks := rfl
@[simp] theorem setZone_arb : (setZone s b z).arb = s.arb := rfl
@[simp] theorem setZone_beds : (setZone s b z).beds = s.beds := rfl
@[simp] theorem setZone_zones : (setZone s b z).zones = s.zones.set b z := rfl
@[simp] theorem setZone_crane : (setZone s b z).crane = s.crane := rfl
end

section
variable (s : State) (o : Output)
@[simp] theorem emit_clock : (emit s o).clock = s.clock := rfl
@[simp] theorem emit_pending : (emit s o).pending = s.pending := rfl
@[simp] theorem emit_out : (emit s o).out = s.out ++ [o] := rfl
@[simp] theorem emit_path : (emit s o).path = s.path := rfl
@[simp] theorem emit_engine : (emit s o).engine = s.engine := rfl
@[simp] theorem emit_loader : (emit s o).loader = s.loader := rfl
@[simp] theorem emit_cmd : (emit s o).cmd = s.cmd := rfl
@[simp] theorem emit_faults : (emit s o).faults = s.faults := rfl
@[simp] theorem emit_stock : (emit s o).stock = s.stock := rfl
@[simp] theorem emit_locks : (emit s o).locks = s.locks := rfl
@[simp] theorem emit_arb : (emit s o).arb = s.arb := rfl
@[simp] theorem emit_beds : (emit s o).beds = s.beds := rfl
@[simp] theorem emit_zones : (emit s o).zones = s.zones := rfl
@[simp] theorem emit_crane : (emit s o).crane = s.crane := rfl
end

section
variable (s : State) 
@[simp] theorem fresh_clock : (fresh s).clock = s.clock := rfl
@[simp] theorem fresh_pending : (fresh s).pending = s.pending := rfl
@[simp] theorem fresh_out : (fresh s).out = [] := rfl
@[simp] theorem fresh_path : (fresh s).path = s.path := rfl
@[simp] theorem fresh_engine : (fresh s).engine = s.engine := rfl
@[simp] theorem fresh_loader : (fresh s).loader = s.loader := rfl
@[simp] theorem fresh_cmd : (fresh s).cmd = s.cmd := rfl
@[simp] theorem fresh_faults : (fresh s).faults = s.faults := rfl
@[simp] theorem fresh_stock : (fresh s).stock = s.stock := rfl
@[simp] theorem fresh_locks : (fresh s).locks = s.locks := rfl
@[simp] theorem fresh_arb : (fresh s).arb = s.arb := rfl
@[simp] theorem fresh_beds : (fresh s).beds = s.beds := rfl
@[simp] theorem fresh_zones : (fresh s).zones = s.zones := rfl
@[simp] theorem fresh_crane : (fresh s).crane = s.crane := rfl
end

section
variable (s : State) (g : Group) (i : Nat)
@[simp] theorem setFlag_clock : (setFlag s g i).clock = s.clock := rfl
@[simp] theorem setFlag_pending : (setFlag s g i).pending = s.pending := rfl
@[simp] theorem setFlag_out : (setFlag s g i).out = s.out := rfl
@[simp] theorem setFlag_path : (setFlag s g i).path = s.path := rfl
@[simp] theorem setFlag_engine : (setFlag s g i).engine = s.engine := rfl
@[simp] theorem setFlag_loader : (setFlag s g i).loader = s.loader := rfl
@[simp] theorem setFlag_cmd : (setFlag s g i).cmd = s.cmd := rfl
@[simp] theorem setFlag_faults : (setFlag s g i).faults = s.faults.raise g i := rfl
@[simp] theorem setFlag_stock : (setFlag s g i).stock = s.stock := rfl
@[simp] theorem setFlag_locks : (setFlag s g i).locks = s.locks := rfl
@[simp] theorem setFlag_arb : (setFlag s g i).arb = s.arb := rfl
@[simp] theorem setFlag_beds : (setFlag s g i).beds = s.beds := rfl
@[simp] theorem setFlag_zones : (setFlag s g i).zones = s.zones := rfl
@[simp] theorem setFlag_crane : (setFlag s g i).crane = s.crane := rfl
end

section
variable (s : State) (i : Nat)
@[simp] theorem addCause_clock : (addCause s i).clock = s.clock := rfl
@[simp] theorem addCause_pending : (addCause s i).pending = s.pending := rfl
@[simp] theorem addCause_out : (addCause s i).out = s.out := rfl
@[simp] theorem addCause_path : (addCause s i).path = s.path := rfl
@[simp] theorem addCause_engine : (addCause s i).engine = s.engine := rfl
@[simp] theorem addCause_loader : (addCause s i).loader = s.loader := rfl
@[simp] theorem addCause_cmd : (addCause s i).cmd = s.cmd := rfl
@[simp] theorem addCause_stock : (addCause s i).stock = s.stock := rfl
@[simp] theorem addCause_locks : (addCause s i).locks = s.locks := rfl
@[simp] theorem addCause_arb : (addCause s i).arb = s.arb := rfl
@[simp] theorem addCause_beds : (addCause s i).beds = s.beds := rfl
@[simp] theorem addCause_zones : (addCause s i).zones = s.zones := rfl
@[simp] theorem addCause_crane : (addCause s i).crane = s.crane := rfl
end

section
variable (s : State) (g : CmdStage)
@[simp] theorem setStage_clock : (setStage s g).clock = s.clock := rfl
@[simp] theorem setStage_pending : (setStage s g).pending = s.pending := rfl
@[simp] theorem setStage_out : (setStage s g).out = s.out := rfl
@[simp] theorem setStage_path : (setStage s g).path = s.path := rfl
@[simp] theorem setStage_engine : (setStage s g).engine = s.engine := rfl
@[simp] theorem setStage_loader : (setStage s g).loader = s.loader := rfl
@[simp] theorem setStage_faults : (setStage s g).faults = s.faults := rfl
@[simp] theorem setStage_stock : (setStage s g).stock = s.stock := rfl
@[simp] theorem setStage_locks : (setStage s g).locks = s.locks := rfl
@[simp] theorem setStage_arb : (setStage s g).arb = s.arb := rfl
@[simp] theorem setStage_beds : (setStage s g).beds = s.beds := rfl
@[simp] theorem setStage_zones : (setStage s g).zones = s.zones := rfl
@[simp] theorem setStage_crane : (setStage s g).crane = s.crane := rfl
end

section
variable (s : State) (m : Mode) (o : Origin)
@[simp] theorem setMode_clock : (setMode s m o).clock = s.clock := rfl
@[simp] theorem setMode_pending : (setMode s m o).pending = s.pending := rfl
@[simp] theorem setMode_out : (setMode s m o).out = s.out := rfl
@[simp] theorem setMode_path : (setMode s m o).path = s.path := rfl
@[simp] theorem setMode_engine : (setMode s m o).engine = s.engine := rfl
@[simp] theorem setMode_loader : (setMode s m o).loader = s.loader := rfl
@[simp] theorem setMode_faults : (setMode s m o).faults = s.faults := rfl
@[simp] theorem setMode_stock : (setMode s m o).stock = s.stock := rfl
@[simp] theorem setMode_locks : (setMode s m o).locks = s.locks := rfl
@[simp] theorem setMode_arb : (setMode s m o).arb = s.arb := rfl
@[simp] theorem setMode_beds : (setMode s m o).beds = s.beds := rfl
@[simp] theorem setMode_zones : (setMode s m o).zones = s.zones := rfl
@[simp] theorem setMode_crane : (setMode s m o).crane = s.crane := rfl
end

section
variable (s : State) (w : ReqOf) (a : Nat) (d : Line) (e : BitVec 64)
@[simp] theorem push_clock : (push s w a d e).clock = s.clock := rfl
@[simp] theorem push_pending : (push s w a d e).pending = s.pending := rfl
@[simp] theorem push_out : (push s w a d e).out = s.out := rfl
@[simp] theorem push_path : (push s w a d e).path = s.path := rfl
@[simp] theorem push_loader : (push s w a d e).loader = s.loader := rfl
@[simp] theorem push_cmd : (push s w a d e).cmd = s.cmd := rfl
@[simp] theorem push_faults : (push s w a d e).faults = s.faults := rfl
@[simp] theorem push_stock : (push s w a d e).stock = s.stock := rfl
@[simp] theorem push_locks : (push s w a d e).locks = s.locks := rfl
@[simp] theorem push_arb : (push s w a d e).arb = s.arb := rfl
@[simp] theorem push_beds : (push s w a d e).beds = s.beds := rfl
@[simp] theorem push_zones : (push s w a d e).zones = s.zones := rfl
@[simp] theorem push_crane : (push s w a d e).crane = s.crane := rfl
end

section
variable (s : State) (l : List Nat) (a : Act)
@[simp] theorem defer_clock : (defer s l a).clock = s.clock := rfl
@[simp] theorem defer_pending : (defer s l a).pending = s.pending := rfl
@[simp] theorem defer_out : (defer s l a).out = s.out := rfl
@[simp] theorem defer_path : (defer s l a).path = s.path := rfl
@[simp] theorem defer_loader : (defer s l a).loader = s.loader := rfl
@[simp] theorem defer_cmd : (defer s l a).cmd = s.cmd := rfl
@[simp] theorem defer_faults : (defer s l a).faults = s.faults := rfl
@[simp] theorem defer_stock : (defer s l a).stock = s.stock := rfl
@[simp] theorem defer_locks : (defer s l a).locks = s.locks := rfl
@[simp] theorem defer_arb : (defer s l a).arb = s.arb := rfl
@[simp] theorem defer_beds : (defer s l a).beds = s.beds := rfl
@[simp] theorem defer_zones : (defer s l a).zones = s.zones := rfl
@[simp] theorem defer_crane : (defer s l a).crane = s.crane := rfl
end

section
variable (s : State) (o : Byte) (x y z : Nat) (l k : List ReqOf) (a : Option BedId)
@[simp] theorem giveWith_clock : (giveWith s o x y z l k a).clock = s.clock := rfl
@[simp] theorem giveWith_pending : (giveWith s o x y z l k a).pending = s.pending := rfl
@[simp] theorem giveWith_out : (giveWith s o x y z l k a).out = s.out := rfl
@[simp] theorem giveWith_path : (giveWith s o x y z l k a).path = s.path := rfl
@[simp] theorem giveWith_engine : (giveWith s o x y z l k a).engine = s.engine := rfl
@[simp] theorem giveWith_loader : (giveWith s o x y z l k a).loader = s.loader := rfl
@[simp] theorem giveWith_faults : (giveWith s o x y z l k a).faults = s.faults := rfl
@[simp] theorem giveWith_stock : (giveWith s o x y z l k a).stock = s.stock := rfl
@[simp] theorem giveWith_locks : (giveWith s o x y z l k a).locks = s.locks := rfl
@[simp] theorem giveWith_arb : (giveWith s o x y z l k a).arb = s.arb := rfl
@[simp] theorem giveWith_beds : (giveWith s o x y z l k a).beds = s.beds := rfl
@[simp] theorem giveWith_zones : (giveWith s o x y z l k a).zones = s.zones := rfl
@[simp] theorem giveWith_crane : (giveWith s o x y z l k a).crane = s.crane := rfl
end

section
variable (s : State) 
@[simp] theorem finishReq_clock : (finishReq s).clock = s.clock := rfl
@[simp] theorem finishReq_pending : (finishReq s).pending = s.pending := rfl
@[simp] theorem finishReq_out : (finishReq s).out = s.out := rfl
@[simp] theorem finishReq_loader : (finishReq s).loader = s.loader := rfl
@[simp] theorem finishReq_cmd : (finishReq s).cmd = s.cmd := rfl
@[simp] theorem finishReq_faults : (finishReq s).faults = s.faults := rfl
@[simp] theorem finishReq_stock : (finishReq s).stock = s.stock := rfl
@[simp] theorem finishReq_locks : (finishReq s).locks = s.locks := rfl
@[simp] theorem finishReq_arb : (finishReq s).arb = s.arb := rfl
@[simp] theorem finishReq_beds : (finishReq s).beds = s.beds := rfl
@[simp] theorem finishReq_zones : (finishReq s).zones = s.zones := rfl
@[simp] theorem finishReq_crane : (finishReq s).crane = s.crane := rfl
end

@[simp] theorem finishReq_path (s : State) : (finishReq s).path = { s.path with msp := none } := rfl
@[simp] theorem finishReq_engine (s : State) : (finishReq s).engine = { s.engine with cur := none } := rfl
@[simp] theorem addCause_faults (s : State) (i : Nat) :
    (addCause s i).faults = { s.faults with pending := setBit s.faults.pending i } := rfl
@[simp] theorem push_engine (s : State) (w : ReqOf) (a : Nat) (d : Line) (e : BitVec 64) :
    (push s w a d e).engine = { s.engine with
      queue := s.engine.queue ++ [⟨s.engine.nextTicket, w, a, d, e, false⟩], nextTicket := s.engine.nextTicket + 1 } := rfl
@[simp] theorem defer_engine (s : State) (l : List Nat) (a : Act) :
    (defer s l a).engine = { s.engine with deferred := s.engine.deferred ++ [⟨l, a⟩] } := rfl
@[simp] theorem setMode_cmd (s : State) (m : Mode) (o : Origin) : (setMode s m o).cmd = { s.cmd with mode := m, origin := o } := rfl
@[simp] theorem setStage_cmd (s : State) (g : CmdStage) :
    (setStage s g).cmd = { s.cmd with current := s.cmd.current.map (fun c => { c with stage := g }) } := rfl
@[simp] theorem giveWith_cmd (s : State) (o : Byte) (x y z : Nat) (l k : List ReqOf) (a : Option BedId) :
    (giveWith s o x y z l k a).cmd = { s.cmd with
      current := s.cmd.current.map (fun c => { c with stage := .ended }),
      owed := some ⟨o, word x, word y, word z, l, k, a⟩ } := rfl

/-! ## Beds and zones -/

@[simp] theorem runOf_setRun (s : State) (b : BedId) (r : BedRun) : runOf (setRun s b r) b = r := by simp [runOf, setRun]
@[simp] theorem runOf_setLink (s : State) (b c : BedId) (l : BedLink) : runOf (setLink s b l) c = runOf s c := by
  cases b <;> cases c <;> rfl
@[simp] theorem runOf_setRing (s : State) (b c : BedId) (r : Ring) : runOf (setRing s b r) c = runOf s c := by
  cases b <;> cases c <;> rfl
theorem runOf_setRun_ne (s : State) {b c : BedId} (r : BedRun) (h : c ≠ b) : runOf (setRun s b r) c = runOf s c := by
  simp [runOf, setRun, PerBed.get_set_ne _ _ h]
@[simp] theorem lk_setRun (s : State) (b c : BedId) (r : BedRun) : (bedOf (setRun s b r) c).lk = (bedOf s c).lk := by
  cases b <;> cases c <;> rfl
@[simp] theorem lk_setRing (s : State) (b c : BedId) (r : Ring) : (bedOf (setRing s b r) c).lk = (bedOf s c).lk := by
  cases b <;> cases c <;> rfl
@[simp] theorem lk_setLink (s : State) (b : BedId) (l : BedLink) : (bedOf (setLink s b l) b).lk = l := by
  simp [bedOf, setLink]
@[simp] theorem ring_setRun (s : State) (b c : BedId) (r : BedRun) : (bedOf (setRun s b r) c).ring = (bedOf s c).ring := by
  cases b <;> cases c <;> rfl
@[simp] theorem ring_setLink (s : State) (b c : BedId) (l : BedLink) : (bedOf (setLink s b l) c).ring = (bedOf s c).ring := by
  cases b <;> cases c <;> rfl
@[simp] theorem ring_setRing (s : State) (b : BedId) (r : Ring) : (bedOf (setRing s b r) b).ring = r := by
  simp [bedOf, setRing]
@[simp] theorem isLive_setRun (s : State) (b c : BedId) (r : BedRun) : isLive (setRun s b r) c = isLive s c := by
  simp [isLive]
@[simp] theorem isLive_setRing (s : State) (b c : BedId) (r : Ring) : isLive (setRing s b r) c = isLive s c := by
  simp [isLive]
@[simp] theorem zoneOf_setZone (s : State) (b : BedId) (z : Zone) : zoneOf (setZone s b z) b = z := by simp [zoneOf]
@[simp] theorem setRun_setRun (s : State) (b : BedId) (x y : BedRun) : setRun (setRun s b x) b y = setRun s b y := by
  cases b <;> rfl
@[simp] theorem setLink_setLink (s : State) (b : BedId) (x y : BedLink) : setLink (setLink s b x) b y = setLink s b y := by
  cases b <;> rfl
theorem bedOf_congr {s t : State} (h : t.beds = s.beds) (b : BedId) : bedOf t b = bedOf s b := by simp [bedOf, h]
theorem runOf_congr {s t : State} (h : t.beds = s.beds) (b : BedId) : runOf t b = runOf s b := by simp [runOf, h]
theorem isLive_congr {s t : State} (h : t.beds = s.beds) (b : BedId) : isLive t b = isLive s b := by simp [isLive, bedOf, h]


@[simp] theorem runOf_setPath (s : State) (p : Path) (q : BedId) : runOf (setPath s p) q = runOf s q := rfl
@[simp] theorem bedOf_setPath (s : State) (p : Path) (q : BedId) : bedOf (setPath s p) q = bedOf s q := rfl
@[simp] theorem isLive_setPath (s : State) (p : Path) (q : BedId) : isLive (setPath s p) q = isLive s q := rfl
@[simp] theorem runOf_setEngine (s : State) (e : Engine) (q : BedId) : runOf (setEngine s e) q = runOf s q := rfl
@[simp] theorem bedOf_setEngine (s : State) (e : Engine) (q : BedId) : bedOf (setEngine s e) q = bedOf s q := rfl
@[simp] theorem isLive_setEngine (s : State) (e : Engine) (q : BedId) : isLive (setEngine s e) q = isLive s q := rfl
@[simp] theorem runOf_setLoader (s : State) (l : Loader) (q : BedId) : runOf (setLoader s l) q = runOf s q := rfl
@[simp] theorem bedOf_setLoader (s : State) (l : Loader) (q : BedId) : bedOf (setLoader s l) q = bedOf s q := rfl
@[simp] theorem isLive_setLoader (s : State) (l : Loader) (q : BedId) : isLive (setLoader s l) q = isLive s q := rfl
@[simp] theorem runOf_setCmd (s : State) (k : CmdEngine) (q : BedId) : runOf (setCmd s k) q = runOf s q := rfl
@[simp] theorem bedOf_setCmd (s : State) (k : CmdEngine) (q : BedId) : bedOf (setCmd s k) q = bedOf s q := rfl
@[simp] theorem isLive_setCmd (s : State) (k : CmdEngine) (q : BedId) : isLive (setCmd s k) q = isLive s q := rfl
@[simp] theorem runOf_setFaults (s : State) (f : Faults) (q : BedId) : runOf (setFaults s f) q = runOf s q := rfl
@[simp] theorem bedOf_setFaults (s : State) (f : Faults) (q : BedId) : bedOf (setFaults s f) q = bedOf s q := rfl
@[simp] theorem isLive_setFaults (s : State) (f : Faults) (q : BedId) : isLive (setFaults s f) q = isLive s q := rfl
@[simp] theorem runOf_setStock (s : State) (k : Stock) (q : BedId) : runOf (setStock s k) q = runOf s q := rfl
@[simp] theorem bedOf_setStock (s : State) (k : Stock) (q : BedId) : bedOf (setStock s k) q = bedOf s q := rfl
@[simp] theorem isLive_setStock (s : State) (k : Stock) (q : BedId) : isLive (setStock s k) q = isLive s q := rfl
@[simp] theorem runOf_setLocks (s : State) (l : Locks) (q : BedId) : runOf (setLocks s l) q = runOf s q := rfl
@[simp] theorem bedOf_setLocks (s : State) (l : Locks) (q : BedId) : bedOf (setLocks s l) q = bedOf s q := rfl
@[simp] theorem isLive_setLocks (s : State) (l : Locks) (q : BedId) : isLive (setLocks s l) q = isLive s q := rfl
@[simp] theorem runOf_setArb (s : State) (a : Arbiter) (q : BedId) : runOf (setArb s a) q = runOf s q := rfl
@[simp] theorem bedOf_setArb (s : State) (a : Arbiter) (q : BedId) : bedOf (setArb s a) q = bedOf s q := rfl
@[simp] theorem isLive_setArb (s : State) (a : Arbiter) (q : BedId) : isLive (setArb s a) q = isLive s q := rfl
@[simp] theorem runOf_setCrane (s : State) (c : Crane) (q : BedId) : runOf (setCrane s c) q = runOf s q := rfl
@[simp] theorem bedOf_setCrane (s : State) (c : Crane) (q : BedId) : bedOf (setCrane s c) q = bedOf s q := rfl
@[simp] theorem isLive_setCrane (s : State) (c : Crane) (q : BedId) : isLive (setCrane s c) q = isLive s q := rfl
@[simp] theorem runOf_setZone (s : State) (b : BedId) (z : Zone) (q : BedId) : runOf (setZone s b z) q = runOf s q := rfl
@[simp] theorem bedOf_setZone (s : State) (b : BedId) (z : Zone) (q : BedId) : bedOf (setZone s b z) q = bedOf s q := rfl
@[simp] theorem isLive_setZone (s : State) (b : BedId) (z : Zone) (q : BedId) : isLive (setZone s b z) q = isLive s q := rfl
@[simp] theorem runOf_emit (s : State) (o : Output) (q : BedId) : runOf (emit s o) q = runOf s q := rfl
@[simp] theorem bedOf_emit (s : State) (o : Output) (q : BedId) : bedOf (emit s o) q = bedOf s q := rfl
@[simp] theorem isLive_emit (s : State) (o : Output) (q : BedId) : isLive (emit s o) q = isLive s q := rfl
@[simp] theorem runOf_fresh (s : State)  (q : BedId) : runOf (fresh s) q = runOf s q := rfl
@[simp] theorem bedOf_fresh (s : State)  (q : BedId) : bedOf (fresh s) q = bedOf s q := rfl
@[simp] theorem isLive_fresh (s : State)  (q : BedId) : isLive (fresh s) q = isLive s q := rfl
@[simp] theorem runOf_setFlag (s : State) (g : Group) (i : Nat) (q : BedId) : runOf (setFlag s g i) q = runOf s q := rfl
@[simp] theorem bedOf_setFlag (s : State) (g : Group) (i : Nat) (q : BedId) : bedOf (setFlag s g i) q = bedOf s q := rfl
@[simp] theorem isLive_setFlag (s : State) (g : Group) (i : Nat) (q : BedId) : isLive (setFlag s g i) q = isLive s q := rfl
@[simp] theorem runOf_addCause (s : State) (i : Nat) (q : BedId) : runOf (addCause s i) q = runOf s q := rfl
@[simp] theorem bedOf_addCause (s : State) (i : Nat) (q : BedId) : bedOf (addCause s i) q = bedOf s q := rfl
@[simp] theorem isLive_addCause (s : State) (i : Nat) (q : BedId) : isLive (addCause s i) q = isLive s q := rfl
@[simp] theorem runOf_setStage (s : State) (g : CmdStage) (q : BedId) : runOf (setStage s g) q = runOf s q := rfl
@[simp] theorem bedOf_setStage (s : State) (g : CmdStage) (q : BedId) : bedOf (setStage s g) q = bedOf s q := rfl
@[simp] theorem isLive_setStage (s : State) (g : CmdStage) (q : BedId) : isLive (setStage s g) q = isLive s q := rfl
@[simp] theorem runOf_setMode (s : State) (m : Mode) (o : Origin) (q : BedId) : runOf (setMode s m o) q = runOf s q := rfl
@[simp] theorem bedOf_setMode (s : State) (m : Mode) (o : Origin) (q : BedId) : bedOf (setMode s m o) q = bedOf s q := rfl
@[simp] theorem isLive_setMode (s : State) (m : Mode) (o : Origin) (q : BedId) : isLive (setMode s m o) q = isLive s q := rfl
@[simp] theorem runOf_push (s : State) (w : ReqOf) (a : Nat) (d : Line) (e : BitVec 64) (q : BedId) : runOf (push s w a d e) q = runOf s q := rfl
@[simp] theorem bedOf_push (s : State) (w : ReqOf) (a : Nat) (d : Line) (e : BitVec 64) (q : BedId) : bedOf (push s w a d e) q = bedOf s q := rfl
@[simp] theorem isLive_push (s : State) (w : ReqOf) (a : Nat) (d : Line) (e : BitVec 64) (q : BedId) : isLive (push s w a d e) q = isLive s q := rfl
@[simp] theorem runOf_defer (s : State) (l : List Nat) (a : Act) (q : BedId) : runOf (defer s l a) q = runOf s q := rfl
@[simp] theorem bedOf_defer (s : State) (l : List Nat) (a : Act) (q : BedId) : bedOf (defer s l a) q = bedOf s q := rfl
@[simp] theorem isLive_defer (s : State) (l : List Nat) (a : Act) (q : BedId) : isLive (defer s l a) q = isLive s q := rfl
@[simp] theorem runOf_giveWith (s : State) (o : Byte) (x y z : Nat) (l k : List ReqOf) (a : Option BedId) (q : BedId) : runOf (giveWith s o x y z l k a) q = runOf s q := rfl
@[simp] theorem bedOf_giveWith (s : State) (o : Byte) (x y z : Nat) (l k : List ReqOf) (a : Option BedId) (q : BedId) : bedOf (giveWith s o x y z l k a) q = bedOf s q := rfl
@[simp] theorem isLive_giveWith (s : State) (o : Byte) (x y z : Nat) (l k : List ReqOf) (a : Option BedId) (q : BedId) : isLive (giveWith s o x y z l k a) q = isLive s q := rfl
@[simp] theorem runOf_finishReq (s : State)  (q : BedId) : runOf (finishReq s) q = runOf s q := rfl
@[simp] theorem bedOf_finishReq (s : State)  (q : BedId) : bedOf (finishReq s) q = bedOf s q := rfl
@[simp] theorem isLive_finishReq (s : State)  (q : BedId) : isLive (finishReq s) q = isLive s q := rfl
@[simp] theorem zoneOf_setPath (s : State) (p : Path) (q : BedId) : zoneOf (setPath s p) q = zoneOf s q := rfl
@[simp] theorem zoneOf_setEngine (s : State) (e : Engine) (q : BedId) : zoneOf (setEngine s e) q = zoneOf s q := rfl
@[simp] theorem zoneOf_setLoader (s : State) (l : Loader) (q : BedId) : zoneOf (setLoader s l) q = zoneOf s q := rfl
@[simp] theorem zoneOf_setCmd (s : State) (k : CmdEngine) (q : BedId) : zoneOf (setCmd s k) q = zoneOf s q := rfl
@[simp] theorem zoneOf_setFaults (s : State) (f : Faults) (q : BedId) : zoneOf (setFaults s f) q = zoneOf s q := rfl
@[simp] theorem zoneOf_setStock (s : State) (k : Stock) (q : BedId) : zoneOf (setStock s k) q = zoneOf s q := rfl
@[simp] theorem zoneOf_setLocks (s : State) (l : Locks) (q : BedId) : zoneOf (setLocks s l) q = zoneOf s q := rfl
@[simp] theorem zoneOf_setArb (s : State) (a : Arbiter) (q : BedId) : zoneOf (setArb s a) q = zoneOf s q := rfl
@[simp] theorem zoneOf_setCrane (s : State) (c : Crane) (q : BedId) : zoneOf (setCrane s c) q = zoneOf s q := rfl
@[simp] theorem zoneOf_setRun (s : State) (b : BedId) (r : BedRun) (q : BedId) : zoneOf (setRun s b r) q = zoneOf s q := rfl
@[simp] theorem zoneOf_setLink (s : State) (b : BedId) (l : BedLink) (q : BedId) : zoneOf (setLink s b l) q = zoneOf s q := rfl
@[simp] theorem zoneOf_setRing (s : State) (b : BedId) (r : Ring) (q : BedId) : zoneOf (setRing s b r) q = zoneOf s q := rfl
@[simp] theorem zoneOf_emit (s : State) (o : Output) (q : BedId) : zoneOf (emit s o) q = zoneOf s q := rfl
@[simp] theorem zoneOf_fresh (s : State)  (q : BedId) : zoneOf (fresh s) q = zoneOf s q := rfl
@[simp] theorem zoneOf_setFlag (s : State) (g : Group) (i : Nat) (q : BedId) : zoneOf (setFlag s g i) q = zoneOf s q := rfl
@[simp] theorem zoneOf_addCause (s : State) (i : Nat) (q : BedId) : zoneOf (addCause s i) q = zoneOf s q := rfl
@[simp] theorem zoneOf_setStage (s : State) (g : CmdStage) (q : BedId) : zoneOf (setStage s g) q = zoneOf s q := rfl
@[simp] theorem zoneOf_setMode (s : State) (m : Mode) (o : Origin) (q : BedId) : zoneOf (setMode s m o) q = zoneOf s q := rfl
@[simp] theorem zoneOf_push (s : State) (w : ReqOf) (a : Nat) (d : Line) (e : BitVec 64) (q : BedId) : zoneOf (push s w a d e) q = zoneOf s q := rfl
@[simp] theorem zoneOf_defer (s : State) (l : List Nat) (a : Act) (q : BedId) : zoneOf (defer s l a) q = zoneOf s q := rfl
@[simp] theorem zoneOf_giveWith (s : State) (o : Byte) (x y z : Nat) (l k : List ReqOf) (a : Option BedId) (q : BedId) : zoneOf (giveWith s o x y z l k a) q = zoneOf s q := rfl
@[simp] theorem zoneOf_finishReq (s : State)  (q : BedId) : zoneOf (finishReq s) q = zoneOf s q := rfl

end Sys2Proof.Machine
end

