-- ==== Sys2Proof/Laws/Quiet.lean ====
section
/-!
SUPPORT. Sys2Proof/Laws/Quiet.lean: each operation that happens by itself in a taking leaves `quiet` alone.
-/
namespace Sys2Proof.Machine

/-! ## Updates -/

section
variable (s : State) (b : BedId)
@[simp] theorem quiet_setRun (r : BedRun) : quiet (setRun s b r) = quiet s := by cases b <;> rfl
@[simp] theorem quiet_setZone (z : Zone) : quiet (setZone s b z) = quiet s := rfl
@[simp] theorem quiet_emit (o : Output) : quiet (emit s o) = quiet s := rfl
@[simp] theorem quiet_fresh : quiet (fresh s) = quiet s := rfl
@[simp] theorem quiet_setArb (a : Arbiter) : quiet (setArb s a) = quiet s := rfl
@[simp] theorem quiet_setLocks (l : Locks) : quiet (setLocks s l) = quiet s := rfl
@[simp] theorem quiet_setCmd (c : CmdEngine) : quiet (setCmd s c) = quiet s := rfl
@[simp] theorem quiet_setEngine (e : Engine) : quiet (setEngine s e) = quiet s := rfl
@[simp] theorem quiet_push (w : ReqOf) (a : Nat) (d : Line) (e : BitVec 64) : quiet (push s w a d e) = quiet s := rfl
@[simp] theorem quiet_pushRead (w : ReqOf) (a : Nat) : quiet (pushRead s w a) = quiet s := rfl
@[simp] theorem quiet_defer (l : List Nat) (a : Act) : quiet (defer s l a) = quiet s := rfl
@[simp] theorem quiet_setStage (g : CmdStage) : quiet (setStage s g) = quiet s := rfl
@[simp] theorem quiet_setMode (m : Mode) (o : Origin) : quiet (setMode s m o) = quiet s := rfl
@[simp] theorem quiet_giveWith (o : Byte) (x y z : Nat) (l k : List ReqOf) (a : Option BedId) :
    quiet (giveWith s o x y z l k a) = quiet s := rfl
@[simp] theorem quiet_give (o : Byte) (x y z : Nat) (l : List ReqOf) : quiet (give s o x y z l) = quiet s := rfl
@[simp] theorem quiet_deny (o : Byte) (x y : Nat) : quiet (deny s o x y) = quiet s := rfl
@[simp] theorem quiet_pushWb (r : RecId) : quiet (pushWb s r) = quiet s := by unfold pushWb; split <;> rfl
@[simp] theorem quiet_pushControl (r : RecId) : quiet (pushControl s r) = quiet s := by
  unfold pushControl; split <;> simp
@[simp] theorem quiet_pushResult (c : BitVec 16) (t : Byte) (g : Word) (o : Byte) (x y z : Word) :
    quiet (pushResult s c t g o x y z) = quiet s := rfl
@[simp] theorem quiet_sendBed (o : Output) : quiet (sendBed s b o) = quiet s := by unfold sendBed; split <;> rfl
@[simp] theorem quiet_sendCrane (o : Output) : quiet (sendCrane s o) = quiet s := by unfold sendCrane; split <;> rfl
@[simp] theorem quiet_watchStart : quiet (watchStart s) = quiet s := rfl
@[simp] theorem quiet_enter (t : BedState) : quiet (enter s b t) = quiet s := by simp [enter]
@[simp] theorem quiet_setStream (t : Stream) : quiet (setStream s b t) = quiet s := by simp [setStream]
theorem quiet_setStock (k : Stock) (h : stockKept k = stockKept s.stock) : quiet (setStock s k) = quiet s := by
  simp [quiet, h]
theorem quiet_setCrane (c : Crane) (h : craneKept c = craneKept s.crane) : quiet (setCrane s c) = quiet s := by
  simp [quiet, h]

/-! ## Arbiter, locks, beds -/

@[simp] theorem quiet_arbGrant : quiet (arbGrant s) = quiet s := by unfold arbGrant; split <;> rfl
@[simp] theorem quiet_arbOffer : quiet (arbOffer s) = quiet s := by
  unfold arbOffer; split
  · split <;> rfl
  · rfl
@[simp] theorem quiet_releaseToken : quiet (releaseToken s b) = quiet s := by
  unfold releaseToken; dsimp only; split <;> simp
@[simp] theorem quiet_leaveTokenList : quiet (leaveTokenList s b) = quiet s := by
  unfold leaveTokenList; dsimp only; split <;> simp
@[simp] theorem quiet_leavePermitList : quiet (leavePermitList s b) = quiet s := by simp [leavePermitList]
@[simp] theorem quiet_releasePermit : quiet (releasePermit s b) = quiet s := by
  unfold releasePermit; dsimp only; split <;> simp
@[simp] theorem quiet_releaseLocks : quiet (releaseLocks s b) = quiet s := rfl
@[simp] theorem quiet_giveUp : quiet (giveUp s b) = quiet s := by
  have h : quiet (setStock s { s.stock with waiters := s.stock.waiters.filter (fun w => w.2 != b) }) = quiet s := rfl
  unfold giveUp; dsimp only; split <;> simp [h]
@[simp] theorem quiet_withdrawAll : quiet (withdrawAll s b) = quiet s := rfl
theorem quiet_dropUnposted (h : (runOf s b).state ≠ .unloading ∨ (runOf s b).unl ≠ .release) :
    quiet (dropUnposted s b) = quiet s := by
  unfold dropUnposted; dsimp only; split
  · split
    · next x => simp at x; rcases h with h | h
                · exact absurd x.1 h
                · exact absurd x.2 h
    · rfl
  · rfl
theorem quiet_returnOrder (o : Outcome) (c : Nat) (p : Option (Nat × Nat)) (k : Bool)
    (h : (runOf s b).state ≠ .unloading ∨ (runOf s b).unl ≠ .release) : quiet (returnOrder s b o c p k) = quiet s := by
  unfold returnOrder; dsimp only; split
  · rfl
  · rw [quiet_setRun]
    have q : ∀ (s : State) (a : List (Nat × BedId)) (l : List Release),
      quiet (setStock s { s.stock with reservedIds := a, releases := l }) = quiet s := fun _ _ _ => rfl
    split <;> simp only [quiet_setCmd, quiet_push, q, quiet_giveUp, quiet_withdrawAll, quiet_dropUnposted _ _ h]
@[simp] theorem quiet_unloadEnd : quiet (unloadEnd s b) = quiet s := by
  unfold unloadEnd; dsimp only; split
  · next x => simp at x; rw [quiet_enter, quiet_returnOrder _ _ _ _ _ _ (Or.inr (by simp [x.1.2]))]
  · rfl
@[simp] theorem quiet_sendPause : quiet (sendPause s b) = quiet s := by simp [sendPause]
@[simp] theorem quiet_addPause (i : Nat) : quiet (addPause s b i) = quiet s := by
  unfold addPause; dsimp only; split
  · rfl
  · split <;> simp
@[simp] theorem quiet_sendStep (e : Entry) : quiet (sendStep s b e) = quiet s := by simp [sendStep]
@[simp] theorem quiet_sendJudged (e : Entry) (x y : Stream → Stream) : quiet (sendJudged s b e x y).1 = quiet s := by
  unfold sendJudged; dsimp only; split <;> simp
@[simp] theorem quiet_pumpOnce : quiet (pumpOnce s b).1 = quiet s := by
  unfold pumpOnce; dsimp only
  repeat' split
  all_goals simp
@[simp] theorem quiet_pump (n : Nat) : quiet (pump n s b) = quiet s := by
  induction n generalizing s with
  | zero => rfl
  | succ n ih =>
    unfold pump; dsimp only; split
    · rw [ih]; simp
    · simp
@[simp] theorem quiet_resume : quiet (resume s b) = quiet s := by simp [resume]
@[simp] theorem quiet_leaveAccepting (h : Hand) : quiet (leaveAccepting s b h) = quiet s := by
  unfold leaveAccepting; dsimp only; split <;> simp
@[simp] theorem quiet_postRequest (k : ReqKind) (i p : Nat) (l : Loc) : quiet (postRequest s b k i p l) = quiet s := rfl
@[simp] theorem quiet_stagingStep : quiet (stagingStep s b) = quiet s := by
  unfold stagingStep; dsimp only
  repeat' split
  all_goals simp
@[simp] theorem quiet_askFetch : quiet (askFetch s b) = quiet s := by unfold askFetch; dsimp only; split <;> simp
@[simp] theorem quiet_askArbiter : quiet (askArbiter s b) = quiet s := by simp [askArbiter]
@[simp] theorem quiet_sendMark (i : Nat) (h : Option (List Nat)) : quiet (sendMark s b i h) = quiet s := by simp [sendMark]
@[simp] theorem quiet_markingStep : quiet (markingStep s b) = quiet s := by
  unfold markingStep; dsimp only
  repeat' split
  all_goals simp
@[simp] theorem quiet_claimTold : quiet (claimTold s b) = quiet s := by unfold claimTold; dsimp only; split <;> simp
@[simp] theorem quiet_locksTold : quiet (locksTold s b) = quiet s := by
  unfold locksTold; dsimp only; split
  · split <;> simp
  · rfl
@[simp] theorem quiet_stagingDue : quiet (stagingDue s b) = quiet s := by unfold stagingDue; split <;> simp
@[simp] theorem quiet_markingDue : quiet (markingDue s b) = quiet s := by unfold markingDue; split <;> simp
@[simp] theorem quiet_resumeDue : quiet (resumeDue s b) = quiet s := by unfold resumeDue; split <;> simp
@[simp] theorem quiet_markingAgain : quiet (markingAgain s b) = quiet s := by unfold markingAgain; split <;> simp
@[simp] theorem quiet_bedSettle : quiet (bedSettle s b) = quiet s := by simp [bedSettle]

/-! ## Crane -/

@[simp] theorem quiet_craneTo (t : CraneState) : quiet (craneTo s t) = quiet s := rfl
@[simp] theorem quiet_setOrder (i : Nat) (g : OrderStage) : quiet (setOrder s i g) = quiet s := rfl
@[simp] theorem quiet_takeZones (l : List BedId) : quiet (takeZones s l) = quiet s := by
  unfold takeZones
  induction l generalizing s with
  | nil => rfl
  | cons b l ih => rw [List.foldl_cons, ih]; rfl
@[simp] theorem quiet_reserveInfeed (q : ReqId) (p : Nat) (l : Loc) : quiet (reserveInfeed s q p l) = quiet s := by
  unfold reserveInfeed reserve; split <;> rfl
@[simp] theorem quiet_dispatch (q : ReqId) (k : ReqKind) (i p : Nat) (l : Loc) : quiet (dispatch s q k i p l) = quiet s := by
  unfold dispatch; dsimp only
  rw [quiet_sendCrane, quiet_craneTo]
  exact (quiet_setCrane _ _ rfl).trans (by simp)
@[simp] theorem quiet_dispatchHost (o : StockOrder) : quiet (dispatchHost s o) = quiet s := by simp [dispatchHost]
@[simp] theorem quiet_dispatchBed (q : BedReq) : quiet (dispatchBed s b q) = quiet s := by
  unfold dispatchBed; dsimp only; rw [quiet_dispatch]; exact quiet_setCrane _ _ rfl
@[simp] theorem quiet_craneSelect : quiet (craneSelect s) = quiet s := by
  unfold craneSelect; dsimp only
  repeat' split
  all_goals simp

/-! ## Commands, records, results -/

@[simp] theorem quiet_holdDone : quiet (holdDone s) = quiet s := by
  unfold holdDone; repeat' split
  all_goals simp
@[simp] theorem quiet_haltDone : quiet (haltDone s) = quiet s := by
  unfold haltDone; split <;> simp
@[simp] theorem quiet_clearReset : quiet (clearReset s b) = quiet s := by simp [clearReset]
@[simp] theorem quiet_clearRemark : quiet (clearRemark s b) = quiet s := by simp [clearRemark]
@[simp] theorem quiet_resetDone : quiet (resetDone s) = quiet s := by
  unfold resetDone; dsimp only; split
  · simp only [quiet_give, quiet_clearReset, quiet_watchStart]; rfl
  · rfl
@[simp] theorem quiet_stopDone : quiet (stopDone s) = quiet s := by
  unfold stopDone; repeat' split
  all_goals simp
@[simp] theorem quiet_remarkDone : quiet (remarkDone s) = quiet s := by
  unfold remarkDone; repeat' split
  all_goals simp
@[simp] theorem quiet_settleCommands : quiet (settleCommands s) = quiet s := by simp [settleCommands, settleTorch]
@[simp] theorem quiet_settleUnload : quiet (settleUnload s) = quiet s := by simp [settleUnload]
@[simp] theorem quiet_settleBeds : quiet (settleBeds s) = quiet s := by simp [settleBeds]
theorem quiet_pushChanged (s0 : State) (r : RecId) : quiet (pushChanged s0 s r) = quiet s := by
  unfold pushChanged; split <;> simp
theorem quiet_settleRecords (s0 : State) : quiet (settleRecords s0 s) = quiet s := by
  simp [settleRecords, statusRecords, quiet_pushChanged]
@[simp] theorem quiet_settleFault : quiet (settleFault s) = quiet s := by
  unfold settleFault; split
  · simp only [quiet_defer, quiet_pushWb]; rfl
  · rfl
@[simp] theorem quiet_readOwner : quiet (readOwner s b) = quiet s := rfl
@[simp] theorem quiet_startRead : quiet (startRead s b) = quiet s := by unfold startRead; split <;> simp
theorem quiet_settleResult (s0 : State) : quiet (settleResult s0 s) = quiet s := by
  unfold settleResult; dsimp only
  repeat' split
  all_goals simp
end

end Sys2Proof.Machine
end

