-- ==== Sys2Proof/Laws/Taking.lean ====
section
/-!
SUPPORT. Sys2Proof/Laws/Taking.lean: what a row of each kind answers: the state after its own effect, and what follows.
-/
namespace Sys2Proof.Machine

theorem takingIf_true {ok : Bool} {s : State} {f : State → State} (h : ok = true) : takingIf ok s f = .next (settle s (f (fresh s))) := by
  rw [takingIf, if_pos h]; rfl
theorem takingIf_false {ok : Bool} {s : State} {f : State → State} (h : ok = false) : takingIf ok s f = .next (fresh s) := by
  rw [takingIf, h]; rfl

/-! ## Commands (R209, R210) -/

theorem command_busy {s : State} {f : State → State} (h : s.cmd.mode = .halting ∨ s.cmd.mode = .resetting) :
    command (fresh s) f = deny (slotRead s) oBUSY 0 0 := by
  rcases h with h | h <;> simp [command, h, slotRead]
theorem command_free {s : State} {f : State → State} (h : s.cmd.mode ≠ .halting) (h' : s.cmd.mode ≠ .resetting) :
    command (fresh s) f = f (slotRead s) := by
  simp [command, h, h', slotRead]
theorem commandRow_busy {s : State} {code : Nat} {f : State → State} (h : slotReadFor s (· == code) = true)
    (m : s.cmd.mode = .halting ∨ s.cmd.mode = .resetting) :
    commandRow code s f = .next (settle s (deny (slotRead s) oBUSY 0 0)) := by
  rw [commandRow, takingIf_true h, command_busy m]
theorem commandRow_due {s : State} {code t : Nat} {f : State → State} (h : commandDue s code t) :
    commandRow code s f = .next (settle s (f (slotRead s))) := by
  rw [commandRow, takingIf_true h.1, command_free h.2.2.1 h.2.2.2]
@[simp] theorem cmdTarget_slotRead (s : State) : cmdTarget (slotRead s) = cmdTarget s := rfl
theorem untargeted_due {s : State} {code : Nat} {f : State → State} (h : commandDue s code 0xFF) :
    untargeted (slotRead s) f = f (slotRead s) := by
  simp [untargeted, h.2.1]
theorem bedOf?_bedNum (b : BedId) : bedOf? (bedNum b) = some b := by cases b <;> rfl
theorem bedCommand_due {s : State} {code : Nat} {b : BedId} {slot : Line} {used : List (Nat × Nat)} {f : State → BedId → State}
    (h : bedCommandDue s code b slot used) : bedCommand used (slotRead s) slot f = f (slotRead s) b := by
  have p : present (slotRead s) b = present s b := rfl
  simp [bedCommand, h.1.2.1, bedOf?_bedNum, p, h.2.1, h.2.2]

theorem commandDue_current {s : State} {code t : Nat} (h : commandDue s code t) :
    ∃ c, s.cmd.current = some c ∧ c.stage = .reading ∧ c.code.toNat = code ∧ c.target.toNat = t := by
  obtain ⟨h1, h2, -⟩ := h
  simp only [slotReadFor, Bool.and_eq_true, Option.any_eq_true] at h1
  obtain ⟨-, c, hc, hr, hk⟩ := h1
  refine ⟨c, hc, by simpa using hr, by simpa using hk, ?_⟩
  simpa [cmdTarget, hc] using h2

/-! ## Fields of the state a command finds -/

section
variable (s : State) (b : BedId)
@[simp] theorem slotRead_clock : (slotRead s).clock = s.clock := rfl
@[simp] theorem slotRead_out : (slotRead s).out = [] := rfl
@[simp] theorem slotRead_loader : (slotRead s).loader = s.loader := rfl
@[simp] theorem slotRead_cmd : (slotRead s).cmd = s.cmd := rfl
@[simp] theorem slotRead_faults : (slotRead s).faults = s.faults := rfl
@[simp] theorem slotRead_stock : (slotRead s).stock = s.stock := rfl
@[simp] theorem slotRead_locks : (slotRead s).locks = s.locks := rfl
@[simp] theorem slotRead_arb : (slotRead s).arb = s.arb := rfl
@[simp] theorem slotRead_beds : (slotRead s).beds = s.beds := rfl
@[simp] theorem slotRead_zones : (slotRead s).zones = s.zones := rfl
@[simp] theorem slotRead_crane : (slotRead s).crane = s.crane := rfl
@[simp] theorem slotRead_path : (slotRead s).path = { s.path with msp := none } := rfl
@[simp] theorem slotRead_engine : (slotRead s).engine = { s.engine with cur := none } := rfl
@[simp] theorem runOf_slotRead : runOf (slotRead s) b = runOf s b := rfl
@[simp] theorem bedOf_slotRead : bedOf (slotRead s) b = bedOf s b := rfl
@[simp] theorem isLive_slotRead : isLive (slotRead s) b = isLive s b := rfl
@[simp] theorem plateAt_slotRead (i : Nat) : plateAt (slotRead s) i = plateAt s i := rfl
@[simp] theorem findPlate_slotRead (i : Nat) : findPlate (slotRead s) i = findPlate s i := rfl
end

/-! ## Messages of gantries and crane -/

theorem gantry_heard {s : State} {b : BedId} {t : BedState} {f : State → State} (h : bedHears s b t) :
    gantry b s f = .next (settle s (f (heard s b))) := by
  rw [gantry, takingIf_true (by simp [present, h.1, h.2.1, h.2.2])]; rfl
theorem gantry_down {s : State} {b : BedId} {f : State → State} (h : isLive s b = false) : gantry b s f = .next (fresh s) := by
  rw [gantry, takingIf_false (by simp [h])]
theorem craneMessage_heard {s : State} {m : Move} {f : State → Move → State} (l : s.crane.lk.live = true)
    (h : s.crane.move = some m) : craneMessage m.id s f = .next (settle s (f (craneHeardAt s) m)) := by
  have e : (craneHeard (fresh s)).crane.move = some m := h
  rw [craneMessage, takingIf_true l]
  simp only [e, beq_self_eq_true, if_true]; rfl
@[simp] theorem runOf_heard (s : State) (b c : BedId) : runOf (heard s b) c = runOf s c := by simp [heard]

/-! ## Answers of the MSP -/

theorem engReq_slotRead (s : State) : engReq (slotRead s) = none := rfl
theorem hostWrite_of {s : State} {t : Transaction} (h : hostHas s t) (w : t.write = true) : hostWrite s = some t := by
  rw [hostWrite, h]; simp [w]
theorem hostRead_of {s : State} {t : Transaction} (h : hostHas s t) (w : t.write = false) : hostRead s = some t := by
  rw [hostRead, h]; simp [w]

end Sys2Proof.Machine
end

