-- ==== Sys2Proof/Laws/Ops.lean ====
section
/-!
SUPPORT. Sys2Proof/Laws/Ops.lean: the frames of the shared operations: the fields of State that each leaves alone.
-/
set_option linter.unusedSimpArgs false
set_option linter.unusedTactic false
set_option linter.unreachableTactic false
set_option linter.unnecessarySeqFocus false
namespace Sys2Proof.Machine

theorem dropBedReq_frame (s : State) (b : BedId) : ∃ c, (dropBedReq s b).1 = setCrane s c := by
  unfold dropBedReq; dsimp only; split
  · split
    · exact ⟨_, rfl⟩
    · exact ⟨s.crane, rfl⟩
  · exact ⟨s.crane, rfl⟩
theorem freeZones_frame (zs : List BedId) (s : State) : ∃ z, freeZones s zs = { s with zones := z } := by
  unfold freeZones
  induction zs generalizing s with
  | nil => exact ⟨s.zones, rfl⟩
  | cons b l ih =>
    rw [List.foldl_cons]
    split
    · obtain ⟨z, h⟩ := ih (setZone s b .free); exact ⟨z, h.trans rfl⟩
    · exact ih s

@[simp] theorem dropBedReq_fields (s : State) (b : BedId) :
    (dropBedReq s b).1.clock = s.clock ∧ (dropBedReq s b).1.pending = s.pending ∧ (dropBedReq s b).1.out = s.out ∧
    (dropBedReq s b).1.path = s.path ∧ (dropBedReq s b).1.engine = s.engine ∧ (dropBedReq s b).1.loader = s.loader ∧
    (dropBedReq s b).1.cmd = s.cmd ∧ (dropBedReq s b).1.faults = s.faults ∧ (dropBedReq s b).1.stock = s.stock ∧
    (dropBedReq s b).1.locks = s.locks ∧ (dropBedReq s b).1.arb = s.arb ∧ (dropBedReq s b).1.beds = s.beds ∧
    (dropBedReq s b).1.zones = s.zones := by
  obtain ⟨c, h⟩ := dropBedReq_frame s b; simp [h]
@[simp] theorem freeZones_fields (s : State) (l : List BedId) :
    (freeZones s l).clock = s.clock ∧ (freeZones s l).pending = s.pending ∧ (freeZones s l).out = s.out ∧
    (freeZones s l).path = s.path ∧ (freeZones s l).engine = s.engine ∧ (freeZones s l).loader = s.loader ∧
    (freeZones s l).cmd = s.cmd ∧ (freeZones s l).faults = s.faults ∧ (freeZones s l).stock = s.stock ∧
    (freeZones s l).locks = s.locks ∧ (freeZones s l).arb = s.arb ∧ (freeZones s l).beds = s.beds ∧
    (freeZones s l).crane = s.crane := by
  obtain ⟨z, h⟩ := freeZones_frame l s; simp [h]

@[simp] theorem pushWb_frame (s : State) (r : RecId) :
    (pushWb s r).clock = s.clock ∧ (pushWb s r).pending = s.pending ∧ (pushWb s r).out = s.out ∧
    (pushWb s r).path = s.path ∧ (pushWb s r).loader = s.loader ∧ (pushWb s r).cmd = s.cmd ∧
    (pushWb s r).faults = s.faults ∧ (pushWb s r).stock = s.stock ∧ (pushWb s r).locks = s.locks ∧
    (pushWb s r).arb = s.arb ∧ (pushWb s r).beds = s.beds ∧ (pushWb s r).zones = s.zones ∧ (pushWb s r).crane = s.crane := by
  unfold pushWb; try dsimp only
  (repeat' split) <;> simp
@[simp] theorem pushWb_reads (s : State) (r : RecId) :
    (∀ v, runOf (pushWb s r) v = runOf s v) ∧ (∀ v, bedOf (pushWb s r) v = bedOf s v) ∧
    (∀ v, isLive (pushWb s r) v = isLive s v) ∧ (∀ v, zoneOf (pushWb s r) v = zoneOf s v) ∧
    (∀ v, plateAt (pushWb s r) v = plateAt s v) ∧ (∀ v u, holds (pushWb s r) v u = holds s v u) := by
  simp [runOf, bedOf, isLive, zoneOf, plateAt, holds]
@[simp] theorem pushControl_frame (s : State) (r : RecId) :
    (pushControl s r).clock = s.clock ∧ (pushControl s r).pending = s.pending ∧ (pushControl s r).out = s.out ∧
    (pushControl s r).path = s.path ∧ (pushControl s r).loader = s.loader ∧ (pushControl s r).cmd = s.cmd ∧
    (pushControl s r).faults = s.faults ∧ (pushControl s r).stock = s.stock ∧ (pushControl s r).locks = s.locks ∧
    (pushControl s r).arb = s.arb ∧ (pushControl s r).beds = s.beds ∧ (pushControl s r).zones = s.zones ∧
    (pushControl s r).crane = s.crane := by
  unfold pushControl; try dsimp only
  (repeat' split) <;> simp
@[simp] theorem pushControl_reads (s : State) (r : RecId) :
    (∀ v, runOf (pushControl s r) v = runOf s v) ∧ (∀ v, bedOf (pushControl s r) v = bedOf s v) ∧
    (∀ v, isLive (pushControl s r) v = isLive s v) ∧ (∀ v, zoneOf (pushControl s r) v = zoneOf s v) ∧
    (∀ v, plateAt (pushControl s r) v = plateAt s v) ∧ (∀ v u, holds (pushControl s r) v u = holds s v u) := by
  simp [runOf, bedOf, isLive, zoneOf, plateAt, holds]
@[simp] theorem pushRead_frame (s : State) (w : ReqOf) (a : Nat) :
    (pushRead s w a).clock = s.clock ∧ (pushRead s w a).pending = s.pending ∧ (pushRead s w a).out = s.out ∧
    (pushRead s w a).path = s.path ∧ (pushRead s w a).loader = s.loader ∧ (pushRead s w a).cmd = s.cmd ∧
    (pushRead s w a).faults = s.faults ∧ (pushRead s w a).stock = s.stock ∧ (pushRead s w a).locks = s.locks ∧
    (pushRead s w a).arb = s.arb ∧ (pushRead s w a).beds = s.beds ∧ (pushRead s w a).zones = s.zones ∧
    (pushRead s w a).crane = s.crane := by
  unfold pushRead; try dsimp only
  (repeat' split) <;> simp
@[simp] theorem pushRead_reads (s : State) (w : ReqOf) (a : Nat) :
    (∀ v, runOf (pushRead s w a) v = runOf s v) ∧ (∀ v, bedOf (pushRead s w a) v = bedOf s v) ∧
    (∀ v, isLive (pushRead s w a) v = isLive s v) ∧ (∀ v, zoneOf (pushRead s w a) v = zoneOf s v) ∧
    (∀ v, plateAt (pushRead s w a) v = plateAt s v) ∧ (∀ v u, holds (pushRead s w a) v u = holds s v u) := by
  simp [runOf, bedOf, isLive, zoneOf, plateAt, holds]
@[simp] theorem setPlate_frame (s : State) (i : Nat) (p : Plate) :
    (setPlate s i p).clock = s.clock ∧ (setPlate s i p).pending = s.pending ∧ (setPlate s i p).out = s.out ∧
    (setPlate s i p).path = s.path ∧ (setPlate s i p).loader = s.loader ∧ (setPlate s i p).cmd = s.cmd ∧
    (setPlate s i p).faults = s.faults ∧ (setPlate s i p).locks = s.locks ∧ (setPlate s i p).arb = s.arb ∧
    (setPlate s i p).beds = s.beds ∧ (setPlate s i p).zones = s.zones ∧ (setPlate s i p).crane = s.crane := by
  unfold setPlate; try dsimp only
  (repeat' split) <;> simp
@[simp] theorem setPlate_reads (s : State) (i : Nat) (p : Plate) :
    (∀ v, runOf (setPlate s i p) v = runOf s v) ∧ (∀ v, bedOf (setPlate s i p) v = bedOf s v) ∧
    (∀ v, isLive (setPlate s i p) v = isLive s v) ∧ (∀ v, zoneOf (setPlate s i p) v = zoneOf s v) := by
  simp [runOf, bedOf, isLive, zoneOf, plateAt, holds]
@[simp] theorem pushResultAs_frame (s : State) (w : ReqOf) (c : BitVec 16) (t : Byte) (g : Word) (o : Byte) (x y z : Word) :
    (pushResultAs s w c t g o x y z).clock = s.clock ∧ (pushResultAs s w c t g o x y z).pending = s.pending ∧
    (pushResultAs s w c t g o x y z).out = s.out ∧ (pushResultAs s w c t g o x y z).path = s.path ∧
    (pushResultAs s w c t g o x y z).loader = s.loader ∧ (pushResultAs s w c t g o x y z).faults = s.faults ∧
    (pushResultAs s w c t g o x y z).stock = s.stock ∧ (pushResultAs s w c t g o x y z).locks = s.locks ∧
    (pushResultAs s w c t g o x y z).arb = s.arb ∧ (pushResultAs s w c t g o x y z).beds = s.beds ∧
    (pushResultAs s w c t g o x y z).zones = s.zones ∧ (pushResultAs s w c t g o x y z).crane = s.crane := by
  unfold pushResultAs; try dsimp only
  (repeat' split) <;> simp
@[simp] theorem pushResultAs_reads (s : State) (w : ReqOf) (c : BitVec 16) (t : Byte) (g : Word) (o : Byte) (x y z : Word) :
    (∀ v, runOf (pushResultAs s w c t g o x y z) v = runOf s v) ∧
    (∀ v, bedOf (pushResultAs s w c t g o x y z) v = bedOf s v) ∧
    (∀ v, isLive (pushResultAs s w c t g o x y z) v = isLive s v) ∧
    (∀ v, zoneOf (pushResultAs s w c t g o x y z) v = zoneOf s v) ∧
    (∀ v, plateAt (pushResultAs s w c t g o x y z) v = plateAt s v) ∧
    (∀ v u, holds (pushResultAs s w c t g o x y z) v u = holds s v u) := by
  simp [runOf, bedOf, isLive, zoneOf, plateAt, holds]
@[simp] theorem pushResult_frame (s : State) (c : BitVec 16) (t : Byte) (g : Word) (o : Byte) (x y z : Word) :
    (pushResult s c t g o x y z).clock = s.clock ∧ (pushResult s c t g o x y z).pending = s.pending ∧
    (pushResult s c t g o x y z).out = s.out ∧ (pushResult s c t g o x y z).path = s.path ∧
    (pushResult s c t g o x y z).loader = s.loader ∧ (pushResult s c t g o x y z).faults = s.faults ∧
    (pushResult s c t g o x y z).stock = s.stock ∧ (pushResult s c t g o x y z).locks = s.locks ∧
    (pushResult s c t g o x y z).arb = s.arb ∧ (pushResult s c t g o x y z).beds = s.beds ∧
    (pushResult s c t g o x y z).zones = s.zones ∧ (pushResult s c t g o x y z).crane = s.crane := by
  unfold pushResult; try dsimp only
  (repeat' split) <;> simp
@[simp] theorem pushResult_reads (s : State) (c : BitVec 16) (t : Byte) (g : Word) (o : Byte) (x y z : Word) :
    (∀ v, runOf (pushResult s c t g o x y z) v = runOf s v) ∧ (∀ v, bedOf (pushResult s c t g o x y z) v = bedOf s v) ∧
    (∀ v, isLive (pushResult s c t g o x y z) v = isLive s v) ∧ (∀ v, zoneOf (pushResult s c t g o x y z) v = zoneOf s v) ∧
    (∀ v, plateAt (pushResult s c t g o x y z) v = plateAt s v) ∧
    (∀ v u, holds (pushResult s c t g o x y z) v u = holds s v u) := by
  simp [runOf, bedOf, isLive, zoneOf, plateAt, holds]
@[simp] theorem give_frame (s : State) (o : Byte) (x y z : Nat) (l : List ReqOf) :
    (give s o x y z l).clock = s.clock ∧ (give s o x y z l).pending = s.pending ∧ (give s o x y z l).out = s.out ∧
    (give s o x y z l).path = s.path ∧ (give s o x y z l).engine = s.engine ∧ (give s o x y z l).loader = s.loader ∧
    (give s o x y z l).faults = s.faults ∧ (give s o x y z l).stock = s.stock ∧ (give s o x y z l).locks = s.locks ∧
    (give s o x y z l).arb = s.arb ∧ (give s o x y z l).beds = s.beds ∧ (give s o x y z l).zones = s.zones ∧
    (give s o x y z l).crane = s.crane := by
  unfold give; try dsimp only
  (repeat' split) <;> simp
@[simp] theorem give_reads (s : State) (o : Byte) (x y z : Nat) (l : List ReqOf) :
    (∀ v, runOf (give s o x y z l) v = runOf s v) ∧ (∀ v, bedOf (give s o x y z l) v = bedOf s v) ∧
    (∀ v, isLive (give s o x y z l) v = isLive s v) ∧ (∀ v, zoneOf (give s o x y z l) v = zoneOf s v) ∧
    (∀ v, plateAt (give s o x y z l) v = plateAt s v) ∧ (∀ v u, holds (give s o x y z l) v u = holds s v u) := by
  simp [runOf, bedOf, isLive, zoneOf, plateAt, holds]
@[simp] theorem deny_frame (s : State) (o : Byte) (x y : Nat) :
    (deny s o x y).clock = s.clock ∧ (deny s o x y).pending = s.pending ∧ (deny s o x y).out = s.out ∧
    (deny s o x y).path = s.path ∧ (deny s o x y).engine = s.engine ∧ (deny s o x y).loader = s.loader ∧
    (deny s o x y).faults = s.faults ∧ (deny s o x y).stock = s.stock ∧ (deny s o x y).locks = s.locks ∧
    (deny s o x y).arb = s.arb ∧ (deny s o x y).beds = s.beds ∧ (deny s o x y).zones = s.zones ∧
    (deny s o x y).crane = s.crane := by
  unfold deny; try dsimp only
  (repeat' split) <;> simp
@[simp] theorem deny_reads (s : State) (o : Byte) (x y : Nat) :
    (∀ v, runOf (deny s o x y) v = runOf s v) ∧ (∀ v, bedOf (deny s o x y) v = bedOf s v) ∧
    (∀ v, isLive (deny s o x y) v = isLive s v) ∧ (∀ v, zoneOf (deny s o x y) v = zoneOf s v) ∧
    (∀ v, plateAt (deny s o x y) v = plateAt s v) ∧ (∀ v u, holds (deny s o x y) v u = holds s v u) := by
  simp [runOf, bedOf, isLive, zoneOf, plateAt, holds]
@[simp] theorem releaseRes_frame (s : State) (q : ReqId) :
    (releaseRes s q).clock = s.clock ∧ (releaseRes s q).pending = s.pending ∧ (releaseRes s q).out = s.out ∧
    (releaseRes s q).path = s.path ∧ (releaseRes s q).engine = s.engine ∧ (releaseRes s q).loader = s.loader ∧
    (releaseRes s q).cmd = s.cmd ∧ (releaseRes s q).faults = s.faults ∧ (releaseRes s q).locks = s.locks ∧
    (releaseRes s q).arb = s.arb ∧ (releaseRes s q).beds = s.beds ∧ (releaseRes s q).zones = s.zones ∧
    (releaseRes s q).crane = s.crane := by
  unfold releaseRes; try dsimp only
  (repeat' split) <;> simp
@[simp] theorem releaseRes_reads (s : State) (q : ReqId) :
    (∀ v, runOf (releaseRes s q) v = runOf s v) ∧ (∀ v, bedOf (releaseRes s q) v = bedOf s v) ∧
    (∀ v, isLive (releaseRes s q) v = isLive s v) ∧ (∀ v, zoneOf (releaseRes s q) v = zoneOf s v) := by
  simp [runOf, bedOf, isLive, zoneOf, plateAt, holds]
@[simp] theorem watchEvent_frame (s : State) :
    (watchEvent s).clock = s.clock ∧ (watchEvent s).pending = s.pending ∧ (watchEvent s).out = s.out ∧
    (watchEvent s).path = s.path ∧ (watchEvent s).engine = s.engine ∧ (watchEvent s).loader = s.loader ∧
    (watchEvent s).cmd = s.cmd ∧ (watchEvent s).stock = s.stock ∧ (watchEvent s).locks = s.locks ∧
    (watchEvent s).arb = s.arb ∧ (watchEvent s).beds = s.beds ∧ (watchEvent s).zones = s.zones ∧
    (watchEvent s).crane = s.crane := by
  unfold watchEvent; try dsimp only
  (repeat' split) <;> simp
@[simp] theorem watchEvent_reads (s : State) :
    (∀ v, runOf (watchEvent s) v = runOf s v) ∧ (∀ v, bedOf (watchEvent s) v = bedOf s v) ∧
    (∀ v, isLive (watchEvent s) v = isLive s v) ∧ (∀ v, zoneOf (watchEvent s) v = zoneOf s v) ∧
    (∀ v, plateAt (watchEvent s) v = plateAt s v) ∧ (∀ v u, holds (watchEvent s) v u = holds s v u) := by
  simp [runOf, bedOf, isLive, zoneOf, plateAt, holds]
@[simp] theorem watchStart_frame (s : State) :
    (watchStart s).clock = s.clock ∧ (watchStart s).pending = s.pending ∧ (watchStart s).out = s.out ∧
    (watchStart s).path = s.path ∧ (watchStart s).engine = s.engine ∧ (watchStart s).loader = s.loader ∧
    (watchStart s).cmd = s.cmd ∧ (watchStart s).stock = s.stock ∧ (watchStart s).locks = s.locks ∧
    (watchStart s).arb = s.arb ∧ (watchStart s).beds = s.beds ∧ (watchStart s).zones = s.zones ∧
    (watchStart s).crane = s.crane := by
  unfold watchStart; try dsimp only
  (repeat' split) <;> simp
@[simp] theorem watchStart_reads (s : State) :
    (∀ v, runOf (watchStart s) v = runOf s v) ∧ (∀ v, bedOf (watchStart s) v = bedOf s v) ∧
    (∀ v, isLive (watchStart s) v = isLive s v) ∧ (∀ v, zoneOf (watchStart s) v = zoneOf s v) ∧
    (∀ v, plateAt (watchStart s) v = plateAt s v) ∧ (∀ v u, holds (watchStart s) v u = holds s v u) := by
  simp [runOf, bedOf, isLive, zoneOf, plateAt, holds]
@[simp] theorem sendBed_frame (s : State) (b : BedId) (o : Output) :
    (sendBed s b o).clock = s.clock ∧ (sendBed s b o).pending = s.pending ∧ (sendBed s b o).path = s.path ∧
    (sendBed s b o).engine = s.engine ∧ (sendBed s b o).loader = s.loader ∧ (sendBed s b o).cmd = s.cmd ∧
    (sendBed s b o).faults = s.faults ∧ (sendBed s b o).stock = s.stock ∧ (sendBed s b o).locks = s.locks ∧
    (sendBed s b o).arb = s.arb ∧ (sendBed s b o).beds = s.beds ∧ (sendBed s b o).zones = s.zones ∧
    (sendBed s b o).crane = s.crane := by
  unfold sendBed; try dsimp only
  (repeat' split) <;> simp
@[simp] theorem sendBed_reads (s : State) (b : BedId) (o : Output) :
    (∀ v, runOf (sendBed s b o) v = runOf s v) ∧ (∀ v, bedOf (sendBed s b o) v = bedOf s v) ∧
    (∀ v, isLive (sendBed s b o) v = isLive s v) ∧ (∀ v, zoneOf (sendBed s b o) v = zoneOf s v) ∧
    (∀ v, plateAt (sendBed s b o) v = plateAt s v) ∧ (∀ v u, holds (sendBed s b o) v u = holds s v u) := by
  simp [runOf, bedOf, isLive, zoneOf, plateAt, holds]
@[simp] theorem arbGrant_frame (s : State) :
    (arbGrant s).clock = s.clock ∧ (arbGrant s).pending = s.pending ∧ (arbGrant s).out = s.out ∧
    (arbGrant s).path = s.path ∧ (arbGrant s).engine = s.engine ∧ (arbGrant s).loader = s.loader ∧
    (arbGrant s).cmd = s.cmd ∧ (arbGrant s).faults = s.faults ∧ (arbGrant s).stock = s.stock ∧
    (arbGrant s).locks = s.locks ∧ (arbGrant s).beds = s.beds ∧ (arbGrant s).zones = s.zones ∧ (arbGrant s).crane = s.crane := by
  unfold arbGrant; try dsimp only
  (repeat' split) <;> simp
@[simp] theorem arbGrant_reads (s : State) :
    (∀ v, runOf (arbGrant s) v = runOf s v) ∧ (∀ v, bedOf (arbGrant s) v = bedOf s v) ∧
    (∀ v, isLive (arbGrant s) v = isLive s v) ∧ (∀ v, zoneOf (arbGrant s) v = zoneOf s v) ∧
    (∀ v, plateAt (arbGrant s) v = plateAt s v) ∧ (∀ v u, holds (arbGrant s) v u = holds s v u) := by
  simp [runOf, bedOf, isLive, zoneOf, plateAt, holds]
@[simp] theorem arbOffer_frame (s : State) :
    (arbOffer s).clock = s.clock ∧ (arbOffer s).pending = s.pending ∧ (arbOffer s).out = s.out ∧
    (arbOffer s).path = s.path ∧ (arbOffer s).engine = s.engine ∧ (arbOffer s).loader = s.loader ∧
    (arbOffer s).cmd = s.cmd ∧ (arbOffer s).faults = s.faults ∧ (arbOffer s).stock = s.stock ∧
    (arbOffer s).locks = s.locks ∧ (arbOffer s).beds = s.beds ∧ (arbOffer s).zones = s.zones ∧ (arbOffer s).crane = s.crane := by
  unfold arbOffer; try dsimp only
  (repeat' split) <;> simp
@[simp] theorem arbOffer_reads (s : State) :
    (∀ v, runOf (arbOffer s) v = runOf s v) ∧ (∀ v, bedOf (arbOffer s) v = bedOf s v) ∧
    (∀ v, isLive (arbOffer s) v = isLive s v) ∧ (∀ v, zoneOf (arbOffer s) v = zoneOf s v) ∧
    (∀ v, plateAt (arbOffer s) v = plateAt s v) ∧ (∀ v u, holds (arbOffer s) v u = holds s v u) := by
  simp [runOf, bedOf, isLive, zoneOf, plateAt, holds]
@[simp] theorem releaseToken_frame (s : State) (b : BedId) :
    (releaseToken s b).clock = s.clock ∧ (releaseToken s b).pending = s.pending ∧ (releaseToken s b).out = s.out ∧
    (releaseToken s b).path = s.path ∧ (releaseToken s b).engine = s.engine ∧ (releaseToken s b).loader = s.loader ∧
    (releaseToken s b).cmd = s.cmd ∧ (releaseToken s b).faults = s.faults ∧ (releaseToken s b).stock = s.stock ∧
    (releaseToken s b).locks = s.locks ∧ (releaseToken s b).zones = s.zones ∧ (releaseToken s b).crane = s.crane := by
  unfold releaseToken; try dsimp only
  (repeat' split) <;> simp
@[simp] theorem releaseToken_reads (s : State) (b : BedId) :
    (∀ v, zoneOf (releaseToken s b) v = zoneOf s v) ∧ (∀ v, plateAt (releaseToken s b) v = plateAt s v) ∧
    (∀ v u, holds (releaseToken s b) v u = holds s v u) := by
  simp [runOf, bedOf, isLive, zoneOf, plateAt, holds]
@[simp] theorem leaveTokenList_frame (s : State) (b : BedId) :
    (leaveTokenList s b).clock = s.clock ∧ (leaveTokenList s b).pending = s.pending ∧ (leaveTokenList s b).out = s.out ∧
    (leaveTokenList s b).path = s.path ∧ (leaveTokenList s b).engine = s.engine ∧ (leaveTokenList s b).loader = s.loader ∧
    (leaveTokenList s b).cmd = s.cmd ∧ (leaveTokenList s b).faults = s.faults ∧ (leaveTokenList s b).stock = s.stock ∧
    (leaveTokenList s b).locks = s.locks ∧ (leaveTokenList s b).zones = s.zones ∧ (leaveTokenList s b).crane = s.crane := by
  unfold leaveTokenList; try dsimp only
  (repeat' split) <;> simp
@[simp] theorem leaveTokenList_reads (s : State) (b : BedId) :
    (∀ v, zoneOf (leaveTokenList s b) v = zoneOf s v) ∧ (∀ v, plateAt (leaveTokenList s b) v = plateAt s v) ∧
    (∀ v u, holds (leaveTokenList s b) v u = holds s v u) := by
  simp [runOf, bedOf, isLive, zoneOf, plateAt, holds]
@[simp] theorem leavePermitList_frame (s : State) (b : BedId) :
    (leavePermitList s b).clock = s.clock ∧ (leavePermitList s b).pending = s.pending ∧ (leavePermitList s b).out = s.out ∧
    (leavePermitList s b).path = s.path ∧ (leavePermitList s b).engine = s.engine ∧
    (leavePermitList s b).loader = s.loader ∧ (leavePermitList s b).cmd = s.cmd ∧ (leavePermitList s b).faults = s.faults ∧
    (leavePermitList s b).stock = s.stock ∧ (leavePermitList s b).locks = s.locks ∧ (leavePermitList s b).zones = s.zones ∧
    (leavePermitList s b).crane = s.crane := by
  unfold leavePermitList; try dsimp only
  (repeat' split) <;> simp
@[simp] theorem leavePermitList_reads (s : State) (b : BedId) :
    (∀ v, zoneOf (leavePermitList s b) v = zoneOf s v) ∧ (∀ v, plateAt (leavePermitList s b) v = plateAt s v) ∧
    (∀ v u, holds (leavePermitList s b) v u = holds s v u) := by
  simp [runOf, bedOf, isLive, zoneOf, plateAt, holds]
@[simp] theorem releasePermit_frame (s : State) (b : BedId) :
    (releasePermit s b).clock = s.clock ∧ (releasePermit s b).pending = s.pending ∧ (releasePermit s b).out = s.out ∧
    (releasePermit s b).path = s.path ∧ (releasePermit s b).engine = s.engine ∧ (releasePermit s b).loader = s.loader ∧
    (releasePermit s b).cmd = s.cmd ∧ (releasePermit s b).faults = s.faults ∧ (releasePermit s b).stock = s.stock ∧
    (releasePermit s b).locks = s.locks ∧ (releasePermit s b).zones = s.zones ∧ (releasePermit s b).crane = s.crane := by
  unfold releasePermit; try dsimp only
  (repeat' split) <;> simp
@[simp] theorem releasePermit_reads (s : State) (b : BedId) :
    (∀ v, zoneOf (releasePermit s b) v = zoneOf s v) ∧ (∀ v, plateAt (releasePermit s b) v = plateAt s v) ∧
    (∀ v u, holds (releasePermit s b) v u = holds s v u) := by
  simp [runOf, bedOf, isLive, zoneOf, plateAt, holds]
@[simp] theorem releaseLocks_frame (s : State) (b : BedId) :
    (releaseLocks s b).clock = s.clock ∧ (releaseLocks s b).pending = s.pending ∧ (releaseLocks s b).out = s.out ∧
    (releaseLocks s b).path = s.path ∧ (releaseLocks s b).engine = s.engine ∧ (releaseLocks s b).loader = s.loader ∧
    (releaseLocks s b).cmd = s.cmd ∧ (releaseLocks s b).faults = s.faults ∧ (releaseLocks s b).stock = s.stock ∧
    (releaseLocks s b).arb = s.arb ∧ (releaseLocks s b).beds = s.beds ∧ (releaseLocks s b).zones = s.zones ∧
    (releaseLocks s b).crane = s.crane := by
  unfold releaseLocks; try dsimp only
  (repeat' split) <;> simp
@[simp] theorem releaseLocks_reads (s : State) (b : BedId) :
    (∀ v, runOf (releaseLocks s b) v = runOf s v) ∧ (∀ v, bedOf (releaseLocks s b) v = bedOf s v) ∧
    (∀ v, isLive (releaseLocks s b) v = isLive s v) ∧ (∀ v, zoneOf (releaseLocks s b) v = zoneOf s v) ∧
    (∀ v, plateAt (releaseLocks s b) v = plateAt s v) ∧ (∀ v u, holds (releaseLocks s b) v u = holds s v u) := by
  simp [runOf, bedOf, isLive, zoneOf, plateAt, holds]
@[simp] theorem setStream_frame (s : State) (b : BedId) (t : Stream) :
    (setStream s b t).clock = s.clock ∧ (setStream s b t).pending = s.pending ∧ (setStream s b t).out = s.out ∧
    (setStream s b t).path = s.path ∧ (setStream s b t).engine = s.engine ∧ (setStream s b t).loader = s.loader ∧
    (setStream s b t).cmd = s.cmd ∧ (setStream s b t).faults = s.faults ∧ (setStream s b t).stock = s.stock ∧
    (setStream s b t).locks = s.locks ∧ (setStream s b t).arb = s.arb ∧ (setStream s b t).zones = s.zones ∧
    (setStream s b t).crane = s.crane := by
  unfold setStream; try dsimp only
  (repeat' split) <;> simp
@[simp] theorem setStream_reads (s : State) (b : BedId) (t : Stream) :
    (∀ v, zoneOf (setStream s b t) v = zoneOf s v) ∧ (∀ v, plateAt (setStream s b t) v = plateAt s v) ∧
    (∀ v u, holds (setStream s b t) v u = holds s v u) := by
  simp [runOf, bedOf, isLive, zoneOf, plateAt, holds]
@[simp] theorem sendPause_frame (s : State) (b : BedId) :
    (sendPause s b).clock = s.clock ∧ (sendPause s b).pending = s.pending ∧ (sendPause s b).path = s.path ∧
    (sendPause s b).engine = s.engine ∧ (sendPause s b).loader = s.loader ∧ (sendPause s b).cmd = s.cmd ∧
    (sendPause s b).faults = s.faults ∧ (sendPause s b).stock = s.stock ∧ (sendPause s b).locks = s.locks ∧
    (sendPause s b).arb = s.arb ∧ (sendPause s b).zones = s.zones ∧ (sendPause s b).crane = s.crane := by
  unfold sendPause; try dsimp only
  (repeat' split) <;> simp
@[simp] theorem sendPause_reads (s : State) (b : BedId) :
    (∀ v, zoneOf (sendPause s b) v = zoneOf s v) ∧ (∀ v, plateAt (sendPause s b) v = plateAt s v) ∧
    (∀ v u, holds (sendPause s b) v u = holds s v u) := by
  simp [runOf, bedOf, isLive, zoneOf, plateAt, holds]
@[simp] theorem addPause_frame (s : State) (b : BedId) (i : Nat) :
    (addPause s b i).clock = s.clock ∧ (addPause s b i).pending = s.pending ∧ (addPause s b i).path = s.path ∧
    (addPause s b i).engine = s.engine ∧ (addPause s b i).loader = s.loader ∧ (addPause s b i).cmd = s.cmd ∧
    (addPause s b i).faults = s.faults ∧ (addPause s b i).stock = s.stock ∧ (addPause s b i).locks = s.locks ∧
    (addPause s b i).arb = s.arb ∧ (addPause s b i).zones = s.zones ∧ (addPause s b i).crane = s.crane := by
  unfold addPause; try dsimp only
  (repeat' split) <;> simp
@[simp] theorem addPause_reads (s : State) (b : BedId) (i : Nat) :
    (∀ v, zoneOf (addPause s b i) v = zoneOf s v) ∧ (∀ v, plateAt (addPause s b i) v = plateAt s v) ∧
    (∀ v u, holds (addPause s b i) v u = holds s v u) := by
  simp [runOf, bedOf, isLive, zoneOf, plateAt, holds]
@[simp] theorem enter_frame (s : State) (b : BedId) (t : BedState) :
    (enter s b t).clock = s.clock ∧ (enter s b t).pending = s.pending ∧ (enter s b t).out = s.out ∧
    (enter s b t).path = s.path ∧ (enter s b t).engine = s.engine ∧ (enter s b t).loader = s.loader ∧
    (enter s b t).cmd = s.cmd ∧ (enter s b t).faults = s.faults ∧ (enter s b t).stock = s.stock ∧
    (enter s b t).locks = s.locks ∧ (enter s b t).arb = s.arb ∧ (enter s b t).zones = s.zones ∧
    (enter s b t).crane = s.crane := by
  unfold enter; try dsimp only
  (repeat' split) <;> simp
@[simp] theorem enter_reads (s : State) (b : BedId) (t : BedState) :
    (∀ v, zoneOf (enter s b t) v = zoneOf s v) ∧ (∀ v, plateAt (enter s b t) v = plateAt s v) ∧
    (∀ v u, holds (enter s b t) v u = holds s v u) := by
  simp [runOf, bedOf, isLive, zoneOf, plateAt, holds]
@[simp] theorem withdrawAll_frame (s : State) (b : BedId) :
    (withdrawAll s b).clock = s.clock ∧ (withdrawAll s b).pending = s.pending ∧ (withdrawAll s b).out = s.out ∧
    (withdrawAll s b).path = s.path ∧ (withdrawAll s b).engine = s.engine ∧ (withdrawAll s b).loader = s.loader ∧
    (withdrawAll s b).cmd = s.cmd ∧ (withdrawAll s b).faults = s.faults ∧ (withdrawAll s b).stock = s.stock ∧
    (withdrawAll s b).locks = s.locks ∧ (withdrawAll s b).arb = s.arb ∧ (withdrawAll s b).beds = s.beds ∧
    (withdrawAll s b).zones = s.zones := by
  unfold withdrawAll; try dsimp only
  (repeat' split) <;> simp
@[simp] theorem withdrawAll_reads (s : State) (b : BedId) :
    (∀ v, runOf (withdrawAll s b) v = runOf s v) ∧ (∀ v, bedOf (withdrawAll s b) v = bedOf s v) ∧
    (∀ v, isLive (withdrawAll s b) v = isLive s v) ∧ (∀ v, zoneOf (withdrawAll s b) v = zoneOf s v) ∧
    (∀ v, plateAt (withdrawAll s b) v = plateAt s v) ∧ (∀ v u, holds (withdrawAll s b) v u = holds s v u) := by
  simp [runOf, bedOf, isLive, zoneOf, plateAt, holds]
@[simp] theorem giveUp_frame (s : State) (b : BedId) :
    (giveUp s b).clock = s.clock ∧ (giveUp s b).pending = s.pending ∧ (giveUp s b).out = s.out ∧
    (giveUp s b).path = s.path ∧ (giveUp s b).engine = s.engine ∧ (giveUp s b).loader = s.loader ∧
    (giveUp s b).cmd = s.cmd ∧ (giveUp s b).faults = s.faults ∧ (giveUp s b).crane = s.crane := by
  unfold giveUp; try dsimp only
  (repeat' split) <;> simp
@[simp] theorem dropUnposted_frame (s : State) (b : BedId) :
    (dropUnposted s b).clock = s.clock ∧ (dropUnposted s b).pending = s.pending ∧ (dropUnposted s b).out = s.out ∧
    (dropUnposted s b).path = s.path ∧ (dropUnposted s b).engine = s.engine ∧ (dropUnposted s b).loader = s.loader ∧
    (dropUnposted s b).cmd = s.cmd ∧ (dropUnposted s b).faults = s.faults ∧ (dropUnposted s b).locks = s.locks ∧
    (dropUnposted s b).arb = s.arb ∧ (dropUnposted s b).beds = s.beds ∧ (dropUnposted s b).zones = s.zones ∧
    (dropUnposted s b).crane = s.crane := by
  unfold dropUnposted; try dsimp only
  (repeat' split) <;> simp
@[simp] theorem dropUnposted_reads (s : State) (b : BedId) :
    (∀ v, runOf (dropUnposted s b) v = runOf s v) ∧ (∀ v, bedOf (dropUnposted s b) v = bedOf s v) ∧
    (∀ v, isLive (dropUnposted s b) v = isLive s v) ∧ (∀ v, zoneOf (dropUnposted s b) v = zoneOf s v) := by
  simp [runOf, bedOf, isLive, zoneOf, plateAt, holds]
@[simp] theorem returnOrder_frame (s : State) (b : BedId) (o : Outcome) (c : Nat) (p : Option (Nat × Nat)) (k : Bool) :
    (returnOrder s b o c p k).clock = s.clock ∧ (returnOrder s b o c p k).pending = s.pending ∧
    (returnOrder s b o c p k).out = s.out ∧ (returnOrder s b o c p k).path = s.path ∧
    (returnOrder s b o c p k).loader = s.loader ∧ (returnOrder s b o c p k).faults = s.faults := by
  unfold returnOrder; try dsimp only
  (repeat' split) <;> simp
@[simp] theorem rejectOrder_frame (s : State) (b : BedId) (c : Nat) :
    (rejectOrder s b c).clock = s.clock ∧ (rejectOrder s b c).pending = s.pending ∧ (rejectOrder s b c).out = s.out ∧
    (rejectOrder s b c).path = s.path ∧ (rejectOrder s b c).loader = s.loader ∧ (rejectOrder s b c).faults = s.faults := by
  unfold rejectOrder; try dsimp only
  (repeat' split) <;> simp
@[simp] theorem enterStopping_frame (s : State) (b : BedId) (o : Outcome) :
    (enterStopping s b o).clock = s.clock ∧ (enterStopping s b o).pending = s.pending ∧
    (enterStopping s b o).path = s.path ∧ (enterStopping s b o).engine = s.engine ∧
    (enterStopping s b o).loader = s.loader ∧ (enterStopping s b o).cmd = s.cmd ∧ (enterStopping s b o).faults = s.faults ∧
    (enterStopping s b o).stock = s.stock ∧ (enterStopping s b o).locks = s.locks ∧ (enterStopping s b o).zones = s.zones ∧
    (enterStopping s b o).crane = s.crane := by
  unfold enterStopping; try dsimp only
  (repeat' split) <;> simp
@[simp] theorem enterStopping_reads (s : State) (b : BedId) (o : Outcome) :
    (∀ v, zoneOf (enterStopping s b o) v = zoneOf s v) ∧ (∀ v, plateAt (enterStopping s b o) v = plateAt s v) ∧
    (∀ v u, holds (enterStopping s b o) v u = holds s v u) := by
  simp [runOf, bedOf, isLive, zoneOf, plateAt, holds]
@[simp] theorem bedResetEnd_frame (s : State) (b : BedId) (h : ResetEnd) :
    (bedResetEnd s b h).clock = s.clock ∧ (bedResetEnd s b h).pending = s.pending ∧ (bedResetEnd s b h).out = s.out ∧
    (bedResetEnd s b h).path = s.path ∧ (bedResetEnd s b h).loader = s.loader ∧ (bedResetEnd s b h).faults = s.faults ∧
    (bedResetEnd s b h).engine = s.engine := by
  unfold bedResetEnd; try dsimp only
  (repeat' split) <;> simp
@[simp] theorem endStopping_frame (s : State) (b : BedId) (o : Outcome) (h : ResetEnd) :
    (endStopping s b o h).clock = s.clock ∧ (endStopping s b o h).pending = s.pending ∧ (endStopping s b o h).out = s.out ∧
    (endStopping s b o h).path = s.path ∧ (endStopping s b o h).loader = s.loader ∧ (endStopping s b o h).faults = s.faults := by
  unfold endStopping; try dsimp only
  (repeat' split) <;> simp
@[simp] theorem enterFaulted_frame (s : State) (b : BedId) (o : Outcome) (c : Nat) (p : Option (Nat × Nat)) :
    (enterFaulted s b o c p).clock = s.clock ∧ (enterFaulted s b o c p).pending = s.pending ∧
    (enterFaulted s b o c p).path = s.path ∧ (enterFaulted s b o c p).loader = s.loader ∧
    (enterFaulted s b o c p).faults = s.faults := by
  unfold enterFaulted; try dsimp only
  (repeat' split) <;> simp
@[simp] theorem bedFlag_frame (s : State) (b : BedId) (i : Nat) :
    (bedFlag s b i).clock = s.clock ∧ (bedFlag s b i).pending = s.pending ∧ (bedFlag s b i).out = s.out ∧
    (bedFlag s b i).path = s.path ∧ (bedFlag s b i).engine = s.engine ∧ (bedFlag s b i).loader = s.loader ∧
    (bedFlag s b i).cmd = s.cmd ∧ (bedFlag s b i).stock = s.stock ∧ (bedFlag s b i).locks = s.locks ∧
    (bedFlag s b i).arb = s.arb ∧ (bedFlag s b i).beds = s.beds ∧ (bedFlag s b i).zones = s.zones ∧
    (bedFlag s b i).crane = s.crane := by
  unfold bedFlag; try dsimp only
  (repeat' split) <;> simp
@[simp] theorem bedFlag_reads (s : State) (b : BedId) (i : Nat) :
    (∀ v, runOf (bedFlag s b i) v = runOf s v) ∧ (∀ v, bedOf (bedFlag s b i) v = bedOf s v) ∧
    (∀ v, isLive (bedFlag s b i) v = isLive s v) ∧ (∀ v, zoneOf (bedFlag s b i) v = zoneOf s v) ∧
    (∀ v, plateAt (bedFlag s b i) v = plateAt s v) ∧ (∀ v u, holds (bedFlag s b i) v u = holds s v u) := by
  simp [runOf, bedOf, isLive, zoneOf, plateAt, holds]
@[simp] theorem faultBed_frame (s : State) (b : BedId) (i d : Nat) :
    (faultBed s b i d).clock = s.clock ∧ (faultBed s b i d).pending = s.pending ∧ (faultBed s b i d).path = s.path ∧
    (faultBed s b i d).loader = s.loader := by
  unfold faultBed; try dsimp only
  (repeat' split) <;> simp
@[simp] theorem gantryFault_frame (s : State) (b : BedId) :
    (gantryFault s b).clock = s.clock ∧ (gantryFault s b).pending = s.pending ∧ (gantryFault s b).path = s.path ∧
    (gantryFault s b).loader = s.loader := by
  unfold gantryFault; try dsimp only
  (repeat' split) <;> simp
@[simp] theorem memoryFault_frame (s : State) (b : BedId) :
    (memoryFault s b).clock = s.clock ∧ (memoryFault s b).pending = s.pending ∧ (memoryFault s b).path = s.path ∧
    (memoryFault s b).loader = s.loader := by
  unfold memoryFault; try dsimp only
  (repeat' split) <;> simp
@[simp] theorem readOwner_frame (s : State) (b : BedId) :
    (readOwner s b).clock = s.clock ∧ (readOwner s b).pending = s.pending ∧ (readOwner s b).out = s.out ∧
    (readOwner s b).path = s.path ∧ (readOwner s b).loader = s.loader ∧ (readOwner s b).cmd = s.cmd ∧
    (readOwner s b).faults = s.faults ∧ (readOwner s b).stock = s.stock ∧ (readOwner s b).locks = s.locks ∧
    (readOwner s b).arb = s.arb ∧ (readOwner s b).beds = s.beds ∧ (readOwner s b).zones = s.zones ∧
    (readOwner s b).crane = s.crane := by
  unfold readOwner; try dsimp only
  (repeat' split) <;> simp
@[simp] theorem readOwner_reads (s : State) (b : BedId) :
    (∀ v, runOf (readOwner s b) v = runOf s v) ∧ (∀ v, bedOf (readOwner s b) v = bedOf s v) ∧
    (∀ v, isLive (readOwner s b) v = isLive s v) ∧ (∀ v, zoneOf (readOwner s b) v = zoneOf s v) ∧
    (∀ v, plateAt (readOwner s b) v = plateAt s v) ∧ (∀ v u, holds (readOwner s b) v u = holds s v u) := by
  simp [runOf, bedOf, isLive, zoneOf, plateAt, holds]
@[simp] theorem startRead_frame (s : State) (b : BedId) :
    (startRead s b).clock = s.clock ∧ (startRead s b).pending = s.pending ∧ (startRead s b).out = s.out ∧
    (startRead s b).path = s.path ∧ (startRead s b).loader = s.loader ∧ (startRead s b).cmd = s.cmd ∧
    (startRead s b).faults = s.faults ∧ (startRead s b).stock = s.stock ∧ (startRead s b).locks = s.locks ∧
    (startRead s b).arb = s.arb ∧ (startRead s b).beds = s.beds ∧ (startRead s b).zones = s.zones ∧
    (startRead s b).crane = s.crane := by
  unfold startRead; try dsimp only
  (repeat' split) <;> simp
@[simp] theorem startRead_reads (s : State) (b : BedId) :
    (∀ v, runOf (startRead s b) v = runOf s v) ∧ (∀ v, bedOf (startRead s b) v = bedOf s v) ∧
    (∀ v, isLive (startRead s b) v = isLive s v) ∧ (∀ v, zoneOf (startRead s b) v = zoneOf s v) ∧
    (∀ v, plateAt (startRead s b) v = plateAt s v) ∧ (∀ v u, holds (startRead s b) v u = holds s v u) := by
  simp [runOf, bedOf, isLive, zoneOf, plateAt, holds]
@[simp] theorem takeOrder_frame (s : State) (b : BedId) :
    (takeOrder s b).clock = s.clock ∧ (takeOrder s b).pending = s.pending ∧ (takeOrder s b).out = s.out ∧
    (takeOrder s b).path = s.path ∧ (takeOrder s b).loader = s.loader ∧ (takeOrder s b).cmd = s.cmd ∧
    (takeOrder s b).faults = s.faults ∧ (takeOrder s b).stock = s.stock ∧ (takeOrder s b).locks = s.locks ∧
    (takeOrder s b).arb = s.arb ∧ (takeOrder s b).zones = s.zones ∧ (takeOrder s b).crane = s.crane := by
  unfold takeOrder; try dsimp only
  (repeat' split) <;> simp
@[simp] theorem takeOrder_reads (s : State) (b : BedId) :
    (∀ v, zoneOf (takeOrder s b) v = zoneOf s v) ∧ (∀ v, plateAt (takeOrder s b) v = plateAt s v) ∧
    (∀ v u, holds (takeOrder s b) v u = holds s v u) := by
  simp [runOf, bedOf, isLive, zoneOf, plateAt, holds]
@[simp] theorem sendStep_frame (s : State) (b : BedId) (e : Entry) :
    (sendStep s b e).clock = s.clock ∧ (sendStep s b e).pending = s.pending ∧ (sendStep s b e).path = s.path ∧
    (sendStep s b e).engine = s.engine ∧ (sendStep s b e).loader = s.loader ∧ (sendStep s b e).cmd = s.cmd ∧
    (sendStep s b e).faults = s.faults ∧ (sendStep s b e).stock = s.stock ∧ (sendStep s b e).locks = s.locks ∧
    (sendStep s b e).arb = s.arb ∧ (sendStep s b e).zones = s.zones ∧ (sendStep s b e).crane = s.crane := by
  unfold sendStep; try dsimp only
  (repeat' split) <;> simp
@[simp] theorem sendStep_reads (s : State) (b : BedId) (e : Entry) :
    (∀ v, zoneOf (sendStep s b e) v = zoneOf s v) ∧ (∀ v, plateAt (sendStep s b e) v = plateAt s v) ∧
    (∀ v u, holds (sendStep s b e) v u = holds s v u) := by
  simp [runOf, bedOf, isLive, zoneOf, plateAt, holds]
@[simp] theorem postRequest_frame (s : State) (b : BedId) (k : ReqKind) (i p : Nat) (l : Loc) :
    (postRequest s b k i p l).clock = s.clock ∧ (postRequest s b k i p l).pending = s.pending ∧
    (postRequest s b k i p l).out = s.out ∧ (postRequest s b k i p l).path = s.path ∧
    (postRequest s b k i p l).engine = s.engine ∧ (postRequest s b k i p l).loader = s.loader ∧
    (postRequest s b k i p l).cmd = s.cmd ∧ (postRequest s b k i p l).faults = s.faults ∧
    (postRequest s b k i p l).stock = s.stock ∧ (postRequest s b k i p l).locks = s.locks ∧
    (postRequest s b k i p l).arb = s.arb ∧ (postRequest s b k i p l).beds = s.beds ∧
    (postRequest s b k i p l).zones = s.zones := by
  unfold postRequest; try dsimp only
  (repeat' split) <;> simp
@[simp] theorem postRequest_reads (s : State) (b : BedId) (k : ReqKind) (i p : Nat) (l : Loc) :
    (∀ v, runOf (postRequest s b k i p l) v = runOf s v) ∧ (∀ v, bedOf (postRequest s b k i p l) v = bedOf s v) ∧
    (∀ v, isLive (postRequest s b k i p l) v = isLive s v) ∧ (∀ v, zoneOf (postRequest s b k i p l) v = zoneOf s v) ∧
    (∀ v, plateAt (postRequest s b k i p l) v = plateAt s v) ∧ (∀ v u, holds (postRequest s b k i p l) v u = holds s v u) := by
  simp [runOf, bedOf, isLive, zoneOf, plateAt, holds]
@[simp] theorem sendMark_frame (s : State) (b : BedId) (i : Nat) (h : Option (List Nat)) :
    (sendMark s b i h).clock = s.clock ∧ (sendMark s b i h).pending = s.pending ∧ (sendMark s b i h).path = s.path ∧
    (sendMark s b i h).engine = s.engine ∧ (sendMark s b i h).loader = s.loader ∧ (sendMark s b i h).cmd = s.cmd ∧
    (sendMark s b i h).faults = s.faults ∧ (sendMark s b i h).stock = s.stock ∧ (sendMark s b i h).locks = s.locks ∧
    (sendMark s b i h).arb = s.arb ∧ (sendMark s b i h).zones = s.zones ∧ (sendMark s b i h).crane = s.crane := by
  unfold sendMark; try dsimp only
  (repeat' split) <;> simp
@[simp] theorem sendMark_reads (s : State) (b : BedId) (i : Nat) (h : Option (List Nat)) :
    (∀ v, zoneOf (sendMark s b i h) v = zoneOf s v) ∧ (∀ v, plateAt (sendMark s b i h) v = plateAt s v) ∧
    (∀ v u, holds (sendMark s b i h) v u = holds s v u) := by
  simp [runOf, bedOf, isLive, zoneOf, plateAt, holds]
@[simp] theorem reserve_frame (s : State) (q : ReqId) (p : Nat) (l : Loc) :
    (reserve s q p l).clock = s.clock ∧ (reserve s q p l).pending = s.pending ∧ (reserve s q p l).out = s.out ∧
    (reserve s q p l).path = s.path ∧ (reserve s q p l).engine = s.engine ∧ (reserve s q p l).loader = s.loader ∧
    (reserve s q p l).cmd = s.cmd ∧ (reserve s q p l).faults = s.faults ∧ (reserve s q p l).locks = s.locks ∧
    (reserve s q p l).arb = s.arb ∧ (reserve s q p l).beds = s.beds ∧ (reserve s q p l).zones = s.zones ∧
    (reserve s q p l).crane = s.crane := by
  unfold reserve; try dsimp only
  (repeat' split) <;> simp
@[simp] theorem reserve_reads (s : State) (q : ReqId) (p : Nat) (l : Loc) :
    (∀ v, runOf (reserve s q p l) v = runOf s v) ∧ (∀ v, bedOf (reserve s q p l) v = bedOf s v) ∧
    (∀ v, isLive (reserve s q p l) v = isLive s v) ∧ (∀ v, zoneOf (reserve s q p l) v = zoneOf s v) := by
  simp [runOf, bedOf, isLive, zoneOf, plateAt, holds]
@[simp] theorem convertRes_frame (s : State) (q : ReqId) (l : Loc) :
    (convertRes s q l).clock = s.clock ∧ (convertRes s q l).pending = s.pending ∧ (convertRes s q l).out = s.out ∧
    (convertRes s q l).path = s.path ∧ (convertRes s q l).engine = s.engine ∧ (convertRes s q l).loader = s.loader ∧
    (convertRes s q l).cmd = s.cmd ∧ (convertRes s q l).faults = s.faults ∧ (convertRes s q l).locks = s.locks ∧
    (convertRes s q l).arb = s.arb ∧ (convertRes s q l).beds = s.beds ∧ (convertRes s q l).zones = s.zones ∧
    (convertRes s q l).crane = s.crane := by
  unfold convertRes; try dsimp only
  (repeat' split) <;> simp
@[simp] theorem convertRes_reads (s : State) (q : ReqId) (l : Loc) :
    (∀ v, runOf (convertRes s q l) v = runOf s v) ∧ (∀ v, bedOf (convertRes s q l) v = bedOf s v) ∧
    (∀ v, isLive (convertRes s q l) v = isLive s v) ∧ (∀ v, zoneOf (convertRes s q l) v = zoneOf s v) := by
  simp [runOf, bedOf, isLive, zoneOf, plateAt, holds]
@[simp] theorem tellWaiters_frame (s : State) (i : Nat) :
    (tellWaiters s i).clock = s.clock ∧ (tellWaiters s i).pending = s.pending ∧ (tellWaiters s i).out = s.out ∧
    (tellWaiters s i).path = s.path ∧ (tellWaiters s i).engine = s.engine ∧ (tellWaiters s i).loader = s.loader ∧
    (tellWaiters s i).cmd = s.cmd ∧ (tellWaiters s i).faults = s.faults ∧ (tellWaiters s i).locks = s.locks ∧
    (tellWaiters s i).arb = s.arb ∧ (tellWaiters s i).beds = s.beds ∧ (tellWaiters s i).zones = s.zones ∧
    (tellWaiters s i).crane = s.crane := by
  unfold tellWaiters; try dsimp only
  (repeat' split) <;> simp
@[simp] theorem tellWaiters_reads (s : State) (i : Nat) :
    (∀ v, runOf (tellWaiters s i) v = runOf s v) ∧ (∀ v, bedOf (tellWaiters s i) v = bedOf s v) ∧
    (∀ v, isLive (tellWaiters s i) v = isLive s v) ∧ (∀ v, zoneOf (tellWaiters s i) v = zoneOf s v) := by
  simp [runOf, bedOf, isLive, zoneOf, plateAt, holds]
@[simp] theorem stockLift_frame (s : State) (i id : Nat) :
    (stockLift s i id).clock = s.clock ∧ (stockLift s i id).pending = s.pending ∧ (stockLift s i id).out = s.out ∧
    (stockLift s i id).path = s.path ∧ (stockLift s i id).loader = s.loader ∧ (stockLift s i id).cmd = s.cmd ∧
    (stockLift s i id).faults = s.faults ∧ (stockLift s i id).locks = s.locks ∧ (stockLift s i id).arb = s.arb ∧
    (stockLift s i id).beds = s.beds ∧ (stockLift s i id).zones = s.zones ∧ (stockLift s i id).crane = s.crane := by
  unfold stockLift; try dsimp only
  (repeat' split) <;> simp
@[simp] theorem stockLift_reads (s : State) (i id : Nat) :
    (∀ v, runOf (stockLift s i id) v = runOf s v) ∧ (∀ v, bedOf (stockLift s i id) v = bedOf s v) ∧
    (∀ v, isLive (stockLift s i id) v = isLive s v) ∧ (∀ v, zoneOf (stockLift s i id) v = zoneOf s v) := by
  simp [runOf, bedOf, isLive, zoneOf, plateAt, holds]
@[simp] theorem stockSet_frame (s : State) (i id : Nat) (l : Loc) :
    (stockSet s i id l).clock = s.clock ∧ (stockSet s i id l).pending = s.pending ∧ (stockSet s i id l).out = s.out ∧
    (stockSet s i id l).path = s.path ∧ (stockSet s i id l).loader = s.loader ∧ (stockSet s i id l).cmd = s.cmd ∧
    (stockSet s i id l).faults = s.faults ∧ (stockSet s i id l).locks = s.locks ∧ (stockSet s i id l).arb = s.arb ∧
    (stockSet s i id l).beds = s.beds ∧ (stockSet s i id l).zones = s.zones ∧ (stockSet s i id l).crane = s.crane := by
  unfold stockSet; try dsimp only
  (repeat' split) <;> simp
@[simp] theorem stockSet_reads (s : State) (i id : Nat) (l : Loc) :
    (∀ v, runOf (stockSet s i id l) v = runOf s v) ∧ (∀ v, bedOf (stockSet s i id l) v = bedOf s v) ∧
    (∀ v, isLive (stockSet s i id l) v = isLive s v) ∧ (∀ v, zoneOf (stockSet s i id l) v = zoneOf s v) := by
  simp [runOf, bedOf, isLive, zoneOf, plateAt, holds]
@[simp] theorem makeLost_frame (s : State) (i id : Nat) :
    (makeLost s i id).clock = s.clock ∧ (makeLost s i id).pending = s.pending ∧ (makeLost s i id).out = s.out ∧
    (makeLost s i id).path = s.path ∧ (makeLost s i id).loader = s.loader ∧ (makeLost s i id).cmd = s.cmd ∧
    (makeLost s i id).faults = s.faults ∧ (makeLost s i id).locks = s.locks ∧ (makeLost s i id).arb = s.arb ∧
    (makeLost s i id).beds = s.beds ∧ (makeLost s i id).zones = s.zones ∧ (makeLost s i id).crane = s.crane := by
  unfold makeLost; try dsimp only
  (repeat' split) <;> simp
@[simp] theorem makeLost_reads (s : State) (i id : Nat) :
    (∀ v, runOf (makeLost s i id) v = runOf s v) ∧ (∀ v, bedOf (makeLost s i id) v = bedOf s v) ∧
    (∀ v, isLive (makeLost s i id) v = isLive s v) ∧ (∀ v, zoneOf (makeLost s i id) v = zoneOf s v) := by
  simp [runOf, bedOf, isLive, zoneOf, plateAt, holds]
@[simp] theorem setSuspect_frame (s : State) (i id : Nat) :
    (setSuspect s i id).clock = s.clock ∧ (setSuspect s i id).pending = s.pending ∧ (setSuspect s i id).out = s.out ∧
    (setSuspect s i id).path = s.path ∧ (setSuspect s i id).loader = s.loader ∧ (setSuspect s i id).cmd = s.cmd ∧
    (setSuspect s i id).faults = s.faults ∧ (setSuspect s i id).locks = s.locks ∧ (setSuspect s i id).arb = s.arb ∧
    (setSuspect s i id).beds = s.beds ∧ (setSuspect s i id).zones = s.zones ∧ (setSuspect s i id).crane = s.crane := by
  unfold setSuspect; try dsimp only
  (repeat' split) <;> simp
@[simp] theorem setSuspect_reads (s : State) (i id : Nat) :
    (∀ v, runOf (setSuspect s i id) v = runOf s v) ∧ (∀ v, bedOf (setSuspect s i id) v = bedOf s v) ∧
    (∀ v, isLive (setSuspect s i id) v = isLive s v) ∧ (∀ v, zoneOf (setSuspect s i id) v = zoneOf s v) := by
  simp [runOf, bedOf, isLive, zoneOf, plateAt, holds]
@[simp] theorem stockTurnBack_frame (s : State) (m : Move) :
    (stockTurnBack s m).clock = s.clock ∧ (stockTurnBack s m).pending = s.pending ∧ (stockTurnBack s m).out = s.out ∧
    (stockTurnBack s m).path = s.path ∧ (stockTurnBack s m).loader = s.loader ∧ (stockTurnBack s m).cmd = s.cmd ∧
    (stockTurnBack s m).faults = s.faults ∧ (stockTurnBack s m).locks = s.locks ∧ (stockTurnBack s m).arb = s.arb ∧
    (stockTurnBack s m).beds = s.beds ∧ (stockTurnBack s m).zones = s.zones ∧ (stockTurnBack s m).crane = s.crane := by
  unfold stockTurnBack; try dsimp only
  (repeat' split) <;> simp
@[simp] theorem stockTurnBack_reads (s : State) (m : Move) :
    (∀ v, runOf (stockTurnBack s m) v = runOf s v) ∧ (∀ v, bedOf (stockTurnBack s m) v = bedOf s v) ∧
    (∀ v, isLive (stockTurnBack s m) v = isLive s v) ∧ (∀ v, zoneOf (stockTurnBack s m) v = zoneOf s v) := by
  simp [runOf, bedOf, isLive, zoneOf, plateAt, holds]
@[simp] theorem releaseClaim_frame (s : State) (r : Release) :
    (releaseClaim s r).clock = s.clock ∧ (releaseClaim s r).pending = s.pending ∧ (releaseClaim s r).out = s.out ∧
    (releaseClaim s r).path = s.path ∧ (releaseClaim s r).engine = s.engine ∧ (releaseClaim s r).loader = s.loader ∧
    (releaseClaim s r).cmd = s.cmd ∧ (releaseClaim s r).faults = s.faults ∧ (releaseClaim s r).locks = s.locks ∧
    (releaseClaim s r).arb = s.arb ∧ (releaseClaim s r).beds = s.beds ∧ (releaseClaim s r).zones = s.zones ∧
    (releaseClaim s r).crane = s.crane := by
  unfold releaseClaim; try dsimp only
  (repeat' split) <;> simp
@[simp] theorem releaseClaim_reads (s : State) (r : Release) :
    (∀ v, runOf (releaseClaim s r) v = runOf s v) ∧ (∀ v, bedOf (releaseClaim s r) v = bedOf s v) ∧
    (∀ v, isLive (releaseClaim s r) v = isLive s v) ∧ (∀ v, zoneOf (releaseClaim s r) v = zoneOf s v) := by
  simp [runOf, bedOf, isLive, zoneOf, plateAt, holds]
@[simp] theorem sendCrane_frame (s : State) (o : Output) :
    (sendCrane s o).clock = s.clock ∧ (sendCrane s o).pending = s.pending ∧ (sendCrane s o).path = s.path ∧
    (sendCrane s o).engine = s.engine ∧ (sendCrane s o).loader = s.loader ∧ (sendCrane s o).cmd = s.cmd ∧
    (sendCrane s o).faults = s.faults ∧ (sendCrane s o).stock = s.stock ∧ (sendCrane s o).locks = s.locks ∧
    (sendCrane s o).arb = s.arb ∧ (sendCrane s o).beds = s.beds ∧ (sendCrane s o).zones = s.zones ∧
    (sendCrane s o).crane = s.crane := by
  unfold sendCrane; try dsimp only
  (repeat' split) <;> simp
@[simp] theorem sendCrane_reads (s : State) (o : Output) :
    (∀ v, runOf (sendCrane s o) v = runOf s v) ∧ (∀ v, bedOf (sendCrane s o) v = bedOf s v) ∧
    (∀ v, isLive (sendCrane s o) v = isLive s v) ∧ (∀ v, zoneOf (sendCrane s o) v = zoneOf s v) ∧
    (∀ v, plateAt (sendCrane s o) v = plateAt s v) ∧ (∀ v u, holds (sendCrane s o) v u = holds s v u) := by
  simp [runOf, bedOf, isLive, zoneOf, plateAt, holds]
@[simp] theorem craneTo_frame (s : State) (t : CraneState) :
    (craneTo s t).clock = s.clock ∧ (craneTo s t).pending = s.pending ∧ (craneTo s t).out = s.out ∧
    (craneTo s t).path = s.path ∧ (craneTo s t).engine = s.engine ∧ (craneTo s t).loader = s.loader ∧
    (craneTo s t).cmd = s.cmd ∧ (craneTo s t).faults = s.faults ∧ (craneTo s t).stock = s.stock ∧
    (craneTo s t).locks = s.locks ∧ (craneTo s t).arb = s.arb ∧ (craneTo s t).beds = s.beds ∧ (craneTo s t).zones = s.zones := by
  unfold craneTo; try dsimp only
  (repeat' split) <;> simp
@[simp] theorem craneTo_reads (s : State) (t : CraneState) :
    (∀ v, runOf (craneTo s t) v = runOf s v) ∧ (∀ v, bedOf (craneTo s t) v = bedOf s v) ∧
    (∀ v, isLive (craneTo s t) v = isLive s v) ∧ (∀ v, zoneOf (craneTo s t) v = zoneOf s v) ∧
    (∀ v, plateAt (craneTo s t) v = plateAt s v) ∧ (∀ v u, holds (craneTo s t) v u = holds s v u) := by
  simp [runOf, bedOf, isLive, zoneOf, plateAt, holds]
@[simp] theorem setOrder_frame (s : State) (i : Nat) (g : OrderStage) :
    (setOrder s i g).clock = s.clock ∧ (setOrder s i g).pending = s.pending ∧ (setOrder s i g).out = s.out ∧
    (setOrder s i g).path = s.path ∧ (setOrder s i g).engine = s.engine ∧ (setOrder s i g).loader = s.loader ∧
    (setOrder s i g).cmd = s.cmd ∧ (setOrder s i g).faults = s.faults ∧ (setOrder s i g).stock = s.stock ∧
    (setOrder s i g).locks = s.locks ∧ (setOrder s i g).arb = s.arb ∧ (setOrder s i g).beds = s.beds ∧
    (setOrder s i g).zones = s.zones := by
  unfold setOrder; try dsimp only
  (repeat' split) <;> simp
@[simp] theorem setOrder_reads (s : State) (i : Nat) (g : OrderStage) :
    (∀ v, runOf (setOrder s i g) v = runOf s v) ∧ (∀ v, bedOf (setOrder s i g) v = bedOf s v) ∧
    (∀ v, isLive (setOrder s i g) v = isLive s v) ∧ (∀ v, zoneOf (setOrder s i g) v = zoneOf s v) ∧
    (∀ v, plateAt (setOrder s i g) v = plateAt s v) ∧ (∀ v u, holds (setOrder s i g) v u = holds s v u) := by
  simp [runOf, bedOf, isLive, zoneOf, plateAt, holds]
@[simp] theorem returnHost_frame (s : State) (i o : Nat) (l : Loc) (m : Nat) (a : Bool) :
    (returnHost s i o l m a).clock = s.clock ∧ (returnHost s i o l m a).pending = s.pending ∧
    (returnHost s i o l m a).out = s.out ∧ (returnHost s i o l m a).path = s.path ∧
    (returnHost s i o l m a).loader = s.loader ∧ (returnHost s i o l m a).faults = s.faults ∧
    (returnHost s i o l m a).locks = s.locks ∧ (returnHost s i o l m a).arb = s.arb ∧
    (returnHost s i o l m a).beds = s.beds ∧ (returnHost s i o l m a).zones = s.zones := by
  unfold returnHost; try dsimp only
  (repeat' split) <;> simp
@[simp] theorem returnHost_reads (s : State) (i o : Nat) (l : Loc) (m : Nat) (a : Bool) :
    (∀ v, runOf (returnHost s i o l m a) v = runOf s v) ∧ (∀ v, bedOf (returnHost s i o l m a) v = bedOf s v) ∧
    (∀ v, isLive (returnHost s i o l m a) v = isLive s v) ∧ (∀ v, zoneOf (returnHost s i o l m a) v = zoneOf s v) := by
  simp [runOf, bedOf, isLive, zoneOf, plateAt, holds]
@[simp] theorem endHost_frame (s : State) (m : Move) (o : Nat) (l : Loc) (x : Nat) :
    (endHost s m o l x).clock = s.clock ∧ (endHost s m o l x).pending = s.pending ∧ (endHost s m o l x).out = s.out ∧
    (endHost s m o l x).path = s.path ∧ (endHost s m o l x).loader = s.loader ∧ (endHost s m o l x).faults = s.faults ∧
    (endHost s m o l x).locks = s.locks ∧ (endHost s m o l x).arb = s.arb ∧ (endHost s m o l x).beds = s.beds ∧
    (endHost s m o l x).zones = s.zones := by
  unfold endHost; try dsimp only
  (repeat' split) <;> simp
@[simp] theorem endHost_reads (s : State) (m : Move) (o : Nat) (l : Loc) (x : Nat) :
    (∀ v, runOf (endHost s m o l x) v = runOf s v) ∧ (∀ v, bedOf (endHost s m o l x) v = bedOf s v) ∧
    (∀ v, isLive (endHost s m o l x) v = isLive s v) ∧ (∀ v, zoneOf (endHost s m o l x) v = zoneOf s v) := by
  simp [runOf, bedOf, isLive, zoneOf, plateAt, holds]
@[simp] theorem acceptOrder_frame (s : State) (i : Nat) (r : Raw) :
    (acceptOrder s i r).clock = s.clock ∧ (acceptOrder s i r).pending = s.pending ∧ (acceptOrder s i r).out = s.out ∧
    (acceptOrder s i r).path = s.path ∧ (acceptOrder s i r).loader = s.loader ∧ (acceptOrder s i r).faults = s.faults ∧
    (acceptOrder s i r).locks = s.locks ∧ (acceptOrder s i r).arb = s.arb ∧ (acceptOrder s i r).beds = s.beds ∧
    (acceptOrder s i r).zones = s.zones := by
  unfold acceptOrder; try dsimp only
  (repeat' split) <;> simp
@[simp] theorem acceptOrder_reads (s : State) (i : Nat) (r : Raw) :
    (∀ v, runOf (acceptOrder s i r) v = runOf s v) ∧ (∀ v, bedOf (acceptOrder s i r) v = bedOf s v) ∧
    (∀ v, isLive (acceptOrder s i r) v = isLive s v) ∧ (∀ v, zoneOf (acceptOrder s i r) v = zoneOf s v) := by
  simp [runOf, bedOf, isLive, zoneOf, plateAt, holds]
@[simp] theorem readCraneOwner_frame (s : State) :
    (readCraneOwner s).clock = s.clock ∧ (readCraneOwner s).pending = s.pending ∧ (readCraneOwner s).out = s.out ∧
    (readCraneOwner s).path = s.path ∧ (readCraneOwner s).loader = s.loader ∧ (readCraneOwner s).cmd = s.cmd ∧
    (readCraneOwner s).faults = s.faults ∧ (readCraneOwner s).stock = s.stock ∧ (readCraneOwner s).locks = s.locks ∧
    (readCraneOwner s).arb = s.arb ∧ (readCraneOwner s).beds = s.beds ∧ (readCraneOwner s).zones = s.zones := by
  unfold readCraneOwner; try dsimp only
  (repeat' split) <;> simp
@[simp] theorem readCraneOwner_reads (s : State) :
    (∀ v, runOf (readCraneOwner s) v = runOf s v) ∧ (∀ v, bedOf (readCraneOwner s) v = bedOf s v) ∧
    (∀ v, isLive (readCraneOwner s) v = isLive s v) ∧ (∀ v, zoneOf (readCraneOwner s) v = zoneOf s v) ∧
    (∀ v, plateAt (readCraneOwner s) v = plateAt s v) ∧ (∀ v u, holds (readCraneOwner s) v u = holds s v u) := by
  simp [runOf, bedOf, isLive, zoneOf, plateAt, holds]
@[simp] theorem takeCrane_frame (s : State) :
    (takeCrane s).clock = s.clock ∧ (takeCrane s).pending = s.pending ∧ (takeCrane s).out = s.out ∧
    (takeCrane s).path = s.path ∧ (takeCrane s).loader = s.loader ∧ (takeCrane s).cmd = s.cmd ∧
    (takeCrane s).faults = s.faults ∧ (takeCrane s).stock = s.stock ∧ (takeCrane s).locks = s.locks ∧
    (takeCrane s).arb = s.arb ∧ (takeCrane s).beds = s.beds ∧ (takeCrane s).zones = s.zones := by
  unfold takeCrane; try dsimp only
  (repeat' split) <;> simp
@[simp] theorem takeCrane_reads (s : State) :
    (∀ v, runOf (takeCrane s) v = runOf s v) ∧ (∀ v, bedOf (takeCrane s) v = bedOf s v) ∧
    (∀ v, isLive (takeCrane s) v = isLive s v) ∧ (∀ v, zoneOf (takeCrane s) v = zoneOf s v) ∧
    (∀ v, plateAt (takeCrane s) v = plateAt s v) ∧ (∀ v u, holds (takeCrane s) v u = holds s v u) := by
  simp [runOf, bedOf, isLive, zoneOf, plateAt, holds]
@[simp] theorem craneRest_frame (s : State) (m : Move) :
    (craneRest s m).clock = s.clock ∧ (craneRest s m).pending = s.pending ∧ (craneRest s m).out = s.out ∧
    (craneRest s m).path = s.path ∧ (craneRest s m).engine = s.engine ∧ (craneRest s m).loader = s.loader ∧
    (craneRest s m).cmd = s.cmd ∧ (craneRest s m).faults = s.faults ∧ (craneRest s m).stock = s.stock ∧
    (craneRest s m).locks = s.locks ∧ (craneRest s m).arb = s.arb ∧ (craneRest s m).beds = s.beds := by
  unfold craneRest; try dsimp only
  (repeat' split) <;> simp
@[simp] theorem craneRest_reads (s : State) (m : Move) :
    (∀ v, runOf (craneRest s m) v = runOf s v) ∧ (∀ v, bedOf (craneRest s m) v = bedOf s v) ∧
    (∀ v, isLive (craneRest s m) v = isLive s v) ∧ (∀ v, plateAt (craneRest s m) v = plateAt s v) ∧
    (∀ v u, holds (craneRest s m) v u = holds s v u) := by
  simp [runOf, bedOf, isLive, zoneOf, plateAt, holds]
@[simp] theorem reportDone_frame (s : State) (m : Move) :
    (reportDone s m).clock = s.clock ∧ (reportDone s m).pending = s.pending ∧ (reportDone s m).out = s.out ∧
    (reportDone s m).path = s.path ∧ (reportDone s m).engine = s.engine ∧ (reportDone s m).loader = s.loader ∧
    (reportDone s m).cmd = s.cmd ∧ (reportDone s m).faults = s.faults ∧ (reportDone s m).stock = s.stock ∧
    (reportDone s m).locks = s.locks ∧ (reportDone s m).arb = s.arb ∧ (reportDone s m).beds = s.beds ∧
    (reportDone s m).zones = s.zones := by
  unfold reportDone; try dsimp only
  (repeat' split) <;> simp
@[simp] theorem reportDone_reads (s : State) (m : Move) :
    (∀ v, runOf (reportDone s m) v = runOf s v) ∧ (∀ v, bedOf (reportDone s m) v = bedOf s v) ∧
    (∀ v, isLive (reportDone s m) v = isLive s v) ∧ (∀ v, zoneOf (reportDone s m) v = zoneOf s v) ∧
    (∀ v, plateAt (reportDone s m) v = plateAt s v) ∧ (∀ v u, holds (reportDone s m) v u = holds s v u) := by
  simp [runOf, bedOf, isLive, zoneOf, plateAt, holds]
@[simp] theorem endRes_frame (s : State) (m : Move) :
    (endRes s m).clock = s.clock ∧ (endRes s m).pending = s.pending ∧ (endRes s m).out = s.out ∧ (endRes s m).path = s.path ∧
    (endRes s m).engine = s.engine ∧ (endRes s m).loader = s.loader ∧ (endRes s m).cmd = s.cmd ∧
    (endRes s m).faults = s.faults ∧ (endRes s m).locks = s.locks ∧ (endRes s m).arb = s.arb ∧ (endRes s m).beds = s.beds ∧
    (endRes s m).zones = s.zones ∧ (endRes s m).crane = s.crane := by
  unfold endRes; try dsimp only
  (repeat' split) <;> simp
@[simp] theorem endRes_reads (s : State) (m : Move) :
    (∀ v, runOf (endRes s m) v = runOf s v) ∧ (∀ v, bedOf (endRes s m) v = bedOf s v) ∧
    (∀ v, isLive (endRes s m) v = isLive s v) ∧ (∀ v, zoneOf (endRes s m) v = zoneOf s v) := by
  simp [runOf, bedOf, isLive, zoneOf]
@[simp] theorem reportBack_frame (s : State) (m : Move) (k : Bool) :
    (reportBack s m k).clock = s.clock ∧ (reportBack s m k).pending = s.pending ∧ (reportBack s m k).out = s.out ∧
    (reportBack s m k).path = s.path ∧ (reportBack s m k).loader = s.loader ∧ (reportBack s m k).faults = s.faults := by
  unfold reportBack; try dsimp only
  (repeat' split) <;> simp
@[simp] theorem reportLost_frame (s : State) (m : Move) :
    (reportLost s m).clock = s.clock ∧ (reportLost s m).pending = s.pending ∧ (reportLost s m).out = s.out ∧
    (reportLost s m).path = s.path ∧ (reportLost s m).loader = s.loader ∧ (reportLost s m).faults = s.faults := by
  unfold reportLost; try dsimp only
  (repeat' split) <;> simp
@[simp] theorem craneFaulted_frame (s : State) :
    (craneFaulted s).clock = s.clock ∧ (craneFaulted s).pending = s.pending ∧ (craneFaulted s).out = s.out ∧
    (craneFaulted s).path = s.path ∧ (craneFaulted s).engine = s.engine ∧ (craneFaulted s).loader = s.loader ∧
    (craneFaulted s).cmd = s.cmd ∧ (craneFaulted s).faults = s.faults ∧ (craneFaulted s).stock = s.stock ∧
    (craneFaulted s).locks = s.locks ∧ (craneFaulted s).arb = s.arb ∧ (craneFaulted s).beds = s.beds ∧
    (craneFaulted s).zones = s.zones := by
  unfold craneFaulted; try dsimp only
  (repeat' split) <;> simp
@[simp] theorem craneFaulted_reads (s : State) :
    (∀ v, runOf (craneFaulted s) v = runOf s v) ∧ (∀ v, bedOf (craneFaulted s) v = bedOf s v) ∧
    (∀ v, isLive (craneFaulted s) v = isLive s v) ∧ (∀ v, zoneOf (craneFaulted s) v = zoneOf s v) ∧
    (∀ v, plateAt (craneFaulted s) v = plateAt s v) ∧ (∀ v u, holds (craneFaulted s) v u = holds s v u) := by
  simp [runOf, bedOf, isLive, zoneOf, plateAt, holds]
@[simp] theorem craneFlag_frame (s : State) (i : Nat) :
    (craneFlag s i).clock = s.clock ∧ (craneFlag s i).pending = s.pending ∧ (craneFlag s i).out = s.out ∧
    (craneFlag s i).path = s.path ∧ (craneFlag s i).engine = s.engine ∧ (craneFlag s i).loader = s.loader ∧
    (craneFlag s i).cmd = s.cmd ∧ (craneFlag s i).stock = s.stock ∧ (craneFlag s i).locks = s.locks ∧
    (craneFlag s i).arb = s.arb ∧ (craneFlag s i).beds = s.beds ∧ (craneFlag s i).zones = s.zones ∧
    (craneFlag s i).crane = s.crane := by
  unfold craneFlag; try dsimp only
  (repeat' split) <;> simp
@[simp] theorem craneFlag_reads (s : State) (i : Nat) :
    (∀ v, runOf (craneFlag s i) v = runOf s v) ∧ (∀ v, bedOf (craneFlag s i) v = bedOf s v) ∧
    (∀ v, isLive (craneFlag s i) v = isLive s v) ∧ (∀ v, zoneOf (craneFlag s i) v = zoneOf s v) ∧
    (∀ v, plateAt (craneFlag s i) v = plateAt s v) ∧ (∀ v u, holds (craneFlag s i) v u = holds s v u) := by
  simp [runOf, bedOf, isLive, zoneOf, plateAt, holds]
@[simp] theorem craneHeard_frame (s : State) :
    (craneHeard s).clock = s.clock ∧ (craneHeard s).pending = s.pending ∧ (craneHeard s).out = s.out ∧
    (craneHeard s).path = s.path ∧ (craneHeard s).engine = s.engine ∧ (craneHeard s).loader = s.loader ∧
    (craneHeard s).cmd = s.cmd ∧ (craneHeard s).faults = s.faults ∧ (craneHeard s).stock = s.stock ∧
    (craneHeard s).locks = s.locks ∧ (craneHeard s).arb = s.arb ∧ (craneHeard s).beds = s.beds ∧
    (craneHeard s).zones = s.zones := by
  unfold craneHeard; try dsimp only
  (repeat' split) <;> simp
@[simp] theorem craneHeard_reads (s : State) :
    (∀ v, runOf (craneHeard s) v = runOf s v) ∧ (∀ v, bedOf (craneHeard s) v = bedOf s v) ∧
    (∀ v, isLive (craneHeard s) v = isLive s v) ∧ (∀ v, zoneOf (craneHeard s) v = zoneOf s v) ∧
    (∀ v, plateAt (craneHeard s) v = plateAt s v) ∧ (∀ v u, holds (craneHeard s) v u = holds s v u) := by
  simp [runOf, bedOf, isLive, zoneOf, plateAt, holds]
@[simp] theorem setLoad_frame (s : State) (l : Load) :
    (setLoad s l).clock = s.clock ∧ (setLoad s l).pending = s.pending ∧ (setLoad s l).out = s.out ∧
    (setLoad s l).path = s.path ∧ (setLoad s l).engine = s.engine ∧ (setLoad s l).loader = s.loader ∧
    (setLoad s l).cmd = s.cmd ∧ (setLoad s l).faults = s.faults ∧ (setLoad s l).stock = s.stock ∧
    (setLoad s l).locks = s.locks ∧ (setLoad s l).arb = s.arb ∧ (setLoad s l).beds = s.beds ∧ (setLoad s l).zones = s.zones := by
  unfold setLoad; try dsimp only
  (repeat' split) <;> simp
@[simp] theorem setLoad_reads (s : State) (l : Load) :
    (∀ v, runOf (setLoad s l) v = runOf s v) ∧ (∀ v, bedOf (setLoad s l) v = bedOf s v) ∧
    (∀ v, isLive (setLoad s l) v = isLive s v) ∧ (∀ v, zoneOf (setLoad s l) v = zoneOf s v) ∧
    (∀ v, plateAt (setLoad s l) v = plateAt s v) ∧ (∀ v u, holds (setLoad s l) v u = holds s v u) := by
  simp [runOf, bedOf, isLive, zoneOf, plateAt, holds]
@[simp] theorem craneResetEnd_frame (s : State) :
    (craneResetEnd s).clock = s.clock ∧ (craneResetEnd s).pending = s.pending ∧ (craneResetEnd s).out = s.out ∧
    (craneResetEnd s).path = s.path ∧ (craneResetEnd s).loader = s.loader ∧ (craneResetEnd s).locks = s.locks ∧
    (craneResetEnd s).arb = s.arb ∧ (craneResetEnd s).beds = s.beds := by
  unfold craneResetEnd; try dsimp only
  (repeat' split) <;> simp
@[simp] theorem craneResetEnd_reads (s : State) :
    (∀ v, runOf (craneResetEnd s) v = runOf s v) ∧ (∀ v, bedOf (craneResetEnd s) v = bedOf s v) ∧
    (∀ v, isLive (craneResetEnd s) v = isLive s v) := by
  simp [runOf, bedOf, isLive, zoneOf, plateAt, holds]
@[simp] theorem loadDrop_frame (s : State) :
    (loadDrop s).clock = s.clock ∧ (loadDrop s).pending = s.pending ∧ (loadDrop s).out = s.out ∧
    (loadDrop s).path = s.path ∧ (loadDrop s).loader = s.loader ∧ (loadDrop s).faults = s.faults := by
  unfold loadDrop; try dsimp only
  (repeat' split) <;> simp
@[simp] theorem enterUnloading_frame (s : State) (b : BedId) :
    (enterUnloading s b).clock = s.clock ∧ (enterUnloading s b).pending = s.pending ∧ (enterUnloading s b).out = s.out ∧
    (enterUnloading s b).path = s.path ∧ (enterUnloading s b).engine = s.engine ∧ (enterUnloading s b).loader = s.loader ∧
    (enterUnloading s b).cmd = s.cmd ∧ (enterUnloading s b).faults = s.faults ∧ (enterUnloading s b).stock = s.stock ∧
    (enterUnloading s b).crane = s.crane := by
  unfold enterUnloading; try dsimp only
  (repeat' split) <;> simp
@[simp] theorem enterUnloading_reads (s : State) (b : BedId) :
    (∀ v, plateAt (enterUnloading s b) v = plateAt s v) ∧ (∀ v u, holds (enterUnloading s b) v u = holds s v u) := by
  simp [runOf, bedOf, isLive, zoneOf, plateAt, holds]
@[simp] theorem execEntry_frame (s : State) (b : BedId) (e : Entry) :
    (execEntry s b e).clock = s.clock ∧ (execEntry s b e).pending = s.pending ∧ (execEntry s b e).out = s.out ∧
    (execEntry s b e).path = s.path ∧ (execEntry s b e).engine = s.engine ∧ (execEntry s b e).loader = s.loader ∧
    (execEntry s b e).cmd = s.cmd ∧ (execEntry s b e).faults = s.faults ∧ (execEntry s b e).stock = s.stock ∧
    (execEntry s b e).crane = s.crane := by
  unfold execEntry; try dsimp only
  (repeat' split) <;> simp
@[simp] theorem execEntry_reads (s : State) (b : BedId) (e : Entry) :
    (∀ v, plateAt (execEntry s b e) v = plateAt s v) ∧ (∀ v u, holds (execEntry s b e) v u = holds s v u) := by
  simp [runOf, bedOf, isLive, zoneOf, plateAt, holds]
@[simp] theorem pierceFails_frame (s : State) (b : BedId) :
    (pierceFails s b).clock = s.clock ∧ (pierceFails s b).pending = s.pending ∧ (pierceFails s b).path = s.path ∧
    (pierceFails s b).engine = s.engine ∧ (pierceFails s b).loader = s.loader ∧ (pierceFails s b).cmd = s.cmd ∧
    (pierceFails s b).stock = s.stock ∧ (pierceFails s b).locks = s.locks ∧ (pierceFails s b).zones = s.zones ∧
    (pierceFails s b).crane = s.crane := by
  unfold pierceFails; try dsimp only
  (repeat' split) <;> simp
@[simp] theorem pierceFails_reads (s : State) (b : BedId) :
    (∀ v, zoneOf (pierceFails s b) v = zoneOf s v) ∧ (∀ v, plateAt (pierceFails s b) v = plateAt s v) ∧
    (∀ v u, holds (pierceFails s b) v u = holds s v u) := by
  simp [runOf, bedOf, isLive, zoneOf, plateAt, holds]
@[simp] theorem failMark_frame (s : State) (b : BedId) (i : Nat) (c : MarkCause) :
    (failMark s b i c).clock = s.clock ∧ (failMark s b i c).pending = s.pending ∧ (failMark s b i c).out = s.out ∧
    (failMark s b i c).path = s.path ∧ (failMark s b i c).engine = s.engine ∧ (failMark s b i c).loader = s.loader ∧
    (failMark s b i c).cmd = s.cmd ∧ (failMark s b i c).stock = s.stock ∧ (failMark s b i c).locks = s.locks ∧
    (failMark s b i c).arb = s.arb ∧ (failMark s b i c).zones = s.zones ∧ (failMark s b i c).crane = s.crane := by
  unfold failMark; try dsimp only
  (repeat' split) <;> simp
@[simp] theorem failMark_reads (s : State) (b : BedId) (i : Nat) (c : MarkCause) :
    (∀ v, zoneOf (failMark s b i c) v = zoneOf s v) ∧ (∀ v, plateAt (failMark s b i c) v = plateAt s v) ∧
    (∀ v u, holds (failMark s b i c) v u = holds s v u) := by
  simp [runOf, bedOf, isLive, zoneOf, plateAt, holds]
@[simp] theorem markAttemptFails_frame (s : State) (b : BedId) (c : MarkCause) :
    (markAttemptFails s b c).clock = s.clock ∧ (markAttemptFails s b c).pending = s.pending ∧
    (markAttemptFails s b c).out = s.out ∧ (markAttemptFails s b c).path = s.path ∧
    (markAttemptFails s b c).engine = s.engine ∧ (markAttemptFails s b c).loader = s.loader ∧
    (markAttemptFails s b c).cmd = s.cmd ∧ (markAttemptFails s b c).stock = s.stock ∧
    (markAttemptFails s b c).locks = s.locks ∧ (markAttemptFails s b c).arb = s.arb ∧
    (markAttemptFails s b c).zones = s.zones ∧ (markAttemptFails s b c).crane = s.crane := by
  unfold markAttemptFails; try dsimp only
  (repeat' split) <;> simp
@[simp] theorem markAttemptFails_reads (s : State) (b : BedId) (c : MarkCause) :
    (∀ v, zoneOf (markAttemptFails s b c) v = zoneOf s v) ∧ (∀ v, plateAt (markAttemptFails s b c) v = plateAt s v) ∧
    (∀ v u, holds (markAttemptFails s b c) v u = holds s v u) := by
  simp [runOf, bedOf, isLive, zoneOf, plateAt, holds]
@[simp] theorem takePost_frame (s : State) (b : BedId) (q : BedReq) :
    (takePost s b q).clock = s.clock ∧ (takePost s b q).pending = s.pending ∧ (takePost s b q).out = s.out ∧
    (takePost s b q).path = s.path ∧ (takePost s b q).engine = s.engine ∧ (takePost s b q).loader = s.loader ∧
    (takePost s b q).cmd = s.cmd ∧ (takePost s b q).faults = s.faults ∧ (takePost s b q).stock = s.stock ∧
    (takePost s b q).locks = s.locks ∧ (takePost s b q).arb = s.arb ∧ (takePost s b q).beds = s.beds ∧
    (takePost s b q).zones = s.zones := by
  unfold takePost; try dsimp only
  (repeat' split) <;> simp
@[simp] theorem takePost_reads (s : State) (b : BedId) (q : BedReq) :
    (∀ v, runOf (takePost s b q) v = runOf s v) ∧ (∀ v, bedOf (takePost s b q) v = bedOf s v) ∧
    (∀ v, isLive (takePost s b q) v = isLive s v) ∧ (∀ v, zoneOf (takePost s b q) v = zoneOf s v) ∧
    (∀ v, plateAt (takePost s b q) v = plateAt s v) ∧ (∀ v u, holds (takePost s b q) v u = holds s v u) := by
  simp [runOf, bedOf, isLive, zoneOf, plateAt, holds]
@[simp] theorem writeBackFlag_frame (s : State) :
    (writeBackFlag s).clock = s.clock ∧ (writeBackFlag s).pending = s.pending ∧ (writeBackFlag s).out = s.out ∧
    (writeBackFlag s).path = s.path ∧ (writeBackFlag s).engine = s.engine ∧ (writeBackFlag s).loader = s.loader ∧
    (writeBackFlag s).cmd = s.cmd ∧ (writeBackFlag s).stock = s.stock ∧ (writeBackFlag s).locks = s.locks ∧
    (writeBackFlag s).arb = s.arb ∧ (writeBackFlag s).beds = s.beds ∧ (writeBackFlag s).zones = s.zones ∧
    (writeBackFlag s).crane = s.crane := by
  unfold writeBackFlag; try dsimp only
  (repeat' split) <;> simp
@[simp] theorem writeBackFlag_reads (s : State) :
    (∀ v, runOf (writeBackFlag s) v = runOf s v) ∧ (∀ v, bedOf (writeBackFlag s) v = bedOf s v) ∧
    (∀ v, isLive (writeBackFlag s) v = isLive s v) ∧ (∀ v, zoneOf (writeBackFlag s) v = zoneOf s v) ∧
    (∀ v, plateAt (writeBackFlag s) v = plateAt s v) ∧ (∀ v u, holds (writeBackFlag s) v u = holds s v u) := by
  simp [runOf, bedOf, isLive, zoneOf, plateAt, holds]
@[simp] theorem freeMsp_frame (s : State) :
    (freeMsp s).clock = s.clock ∧ (freeMsp s).pending = s.pending ∧ (freeMsp s).out = s.out ∧
    (freeMsp s).engine = s.engine ∧ (freeMsp s).loader = s.loader ∧ (freeMsp s).cmd = s.cmd ∧
    (freeMsp s).faults = s.faults ∧ (freeMsp s).stock = s.stock ∧ (freeMsp s).locks = s.locks ∧ (freeMsp s).arb = s.arb ∧
    (freeMsp s).beds = s.beds ∧ (freeMsp s).zones = s.zones ∧ (freeMsp s).crane = s.crane := by
  unfold freeMsp; try dsimp only
  (repeat' split) <;> simp
@[simp] theorem freeMsp_reads (s : State) :
    (∀ v, runOf (freeMsp s) v = runOf s v) ∧ (∀ v, bedOf (freeMsp s) v = bedOf s v) ∧
    (∀ v, isLive (freeMsp s) v = isLive s v) ∧ (∀ v, zoneOf (freeMsp s) v = zoneOf s v) ∧
    (∀ v, plateAt (freeMsp s) v = plateAt s v) ∧ (∀ v u, holds (freeMsp s) v u = holds s v u) := by
  simp [runOf, bedOf, isLive, zoneOf, plateAt, holds]
@[simp] theorem requeue_frame (s : State) (r : Req) (k : Bool) :
    (requeue s r k).clock = s.clock ∧ (requeue s r k).pending = s.pending ∧ (requeue s r k).out = s.out ∧
    (requeue s r k).path = s.path ∧ (requeue s r k).loader = s.loader ∧ (requeue s r k).cmd = s.cmd ∧
    (requeue s r k).faults = s.faults ∧ (requeue s r k).stock = s.stock ∧ (requeue s r k).locks = s.locks ∧
    (requeue s r k).arb = s.arb ∧ (requeue s r k).beds = s.beds ∧ (requeue s r k).zones = s.zones ∧
    (requeue s r k).crane = s.crane := by
  unfold requeue; try dsimp only
  (repeat' split) <;> simp
@[simp] theorem requeue_reads (s : State) (r : Req) (k : Bool) :
    (∀ v, runOf (requeue s r k) v = runOf s v) ∧ (∀ v, bedOf (requeue s r k) v = bedOf s v) ∧
    (∀ v, isLive (requeue s r k) v = isLive s v) ∧ (∀ v, zoneOf (requeue s r k) v = zoneOf s v) ∧
    (∀ v, plateAt (requeue s r k) v = plateAt s v) ∧ (∀ v u, holds (requeue s r k) v u = holds s v u) := by
  simp [runOf, bedOf, isLive, zoneOf, plateAt, holds]
@[simp] theorem burnGranted_frame (s : State) (b : BedId) (h : Hand) :
    (burnGranted s b h).clock = s.clock ∧ (burnGranted s b h).pending = s.pending ∧ (burnGranted s b h).out = s.out ∧
    (burnGranted s b h).path = s.path ∧ (burnGranted s b h).engine = s.engine ∧ (burnGranted s b h).loader = s.loader ∧
    (burnGranted s b h).cmd = s.cmd ∧ (burnGranted s b h).faults = s.faults ∧ (burnGranted s b h).stock = s.stock ∧
    (burnGranted s b h).locks = s.locks ∧ (burnGranted s b h).arb = s.arb ∧ (burnGranted s b h).zones = s.zones ∧
    (burnGranted s b h).crane = s.crane := by
  unfold burnGranted; try dsimp only
  (repeat' split) <;> simp
@[simp] theorem burnGranted_reads (s : State) (b : BedId) (h : Hand) :
    (∀ v, zoneOf (burnGranted s b h) v = zoneOf s v) ∧ (∀ v, plateAt (burnGranted s b h) v = plateAt s v) ∧
    (∀ v u, holds (burnGranted s b h) v u = holds s v u) := by
  simp [runOf, bedOf, isLive, zoneOf, plateAt, holds]
@[simp] theorem check11_frame (s : State) (b : BedId) :
    (check11 s b).clock = s.clock ∧ (check11 s b).pending = s.pending ∧ (check11 s b).out = s.out ∧
    (check11 s b).path = s.path ∧ (check11 s b).loader = s.loader ∧ (check11 s b).faults = s.faults := by
  unfold check11; try dsimp only
  (repeat' split) <;> simp
@[simp] theorem check10_frame (s : State) (b : BedId) (h : Hand) :
    (check10 s b h).clock = s.clock ∧ (check10 s b h).pending = s.pending ∧ (check10 s b h).out = s.out ∧
    (check10 s b h).path = s.path ∧ (check10 s b h).loader = s.loader ∧ (check10 s b h).faults = s.faults := by
  unfold check10; try dsimp only
  (repeat' split) <;> simp
@[simp] theorem listChecks_frame (s : State) (b : BedId) (h : Hand) :
    (listChecks s b h).clock = s.clock ∧ (listChecks s b h).pending = s.pending ∧ (listChecks s b h).out = s.out ∧
    (listChecks s b h).path = s.path ∧ (listChecks s b h).loader = s.loader ∧ (listChecks s b h).faults = s.faults := by
  unfold listChecks; try dsimp only
  (repeat' split) <;> simp
@[simp] theorem dropMoveRes_frame (s : State) :
    (dropMoveRes s).clock = s.clock ∧ (dropMoveRes s).pending = s.pending ∧ (dropMoveRes s).out = s.out ∧
    (dropMoveRes s).path = s.path ∧ (dropMoveRes s).engine = s.engine ∧ (dropMoveRes s).loader = s.loader ∧
    (dropMoveRes s).cmd = s.cmd ∧ (dropMoveRes s).faults = s.faults ∧ (dropMoveRes s).stock = s.stock ∧
    (dropMoveRes s).locks = s.locks ∧ (dropMoveRes s).arb = s.arb ∧ (dropMoveRes s).beds = s.beds ∧
    (dropMoveRes s).zones = s.zones := by
  unfold dropMoveRes; try dsimp only
  (repeat' split) <;> simp
@[simp] theorem answerRetry_frame (s : State) :
    (answerRetry s).clock = s.clock ∧ (answerRetry s).pending = s.pending ∧ (answerRetry s).engine = s.engine ∧
    (answerRetry s).loader = s.loader ∧ (answerRetry s).cmd = s.cmd ∧ (answerRetry s).faults = s.faults ∧
    (answerRetry s).stock = s.stock ∧ (answerRetry s).locks = s.locks ∧ (answerRetry s).arb = s.arb ∧
    (answerRetry s).beds = s.beds ∧ (answerRetry s).zones = s.zones ∧ (answerRetry s).crane = s.crane := by
  unfold answerRetry; try dsimp only
  (repeat' split) <;> simp
@[simp] theorem ownerRefused_frame (s : State) (b : BedId) :
    (ownerRefused s b).clock = s.clock ∧ (ownerRefused s b).pending = s.pending ∧ (ownerRefused s b).path = s.path ∧
    (ownerRefused s b).loader = s.loader := by
  unfold ownerRefused; try dsimp only
  (repeat' split) <;> simp
@[simp] theorem setMove_frame (s : State) (m : Move) :
    (setMove s m).clock = s.clock ∧ (setMove s m).pending = s.pending ∧ (setMove s m).out = s.out ∧
    (setMove s m).path = s.path ∧ (setMove s m).engine = s.engine ∧ (setMove s m).loader = s.loader ∧
    (setMove s m).cmd = s.cmd ∧ (setMove s m).faults = s.faults ∧ (setMove s m).stock = s.stock ∧
    (setMove s m).locks = s.locks ∧ (setMove s m).arb = s.arb ∧ (setMove s m).beds = s.beds ∧ (setMove s m).zones = s.zones := by
  unfold setMove; try dsimp only
  (repeat' split) <;> simp
@[simp] theorem setMove_reads (s : State) (m : Move) :
    (∀ v, runOf (setMove s m) v = runOf s v) ∧ (∀ v, bedOf (setMove s m) v = bedOf s v) ∧
    (∀ v, isLive (setMove s m) v = isLive s v) ∧ (∀ v, zoneOf (setMove s m) v = zoneOf s v) ∧
    (∀ v, plateAt (setMove s m) v = plateAt s v) ∧ (∀ v u, holds (setMove s m) v u = holds s v u) := by
  simp [runOf, bedOf, isLive, zoneOf, plateAt, holds]

end Sys2Proof.Machine
end

