-- ==== Sys2Proof/Laws/Flags.lean ====
section
/-!
SUPPORT. Sys2Proof/Laws/Flags.lean: bits of a byte, and what setting a detail flag does (R173, R175, R176).
-/
namespace Sys2Proof.Machine

/-! ## Bits -/

theorem bit_eq (n i : Nat) : bit n i = n.testBit i := by
  simp only [bit, Nat.testBit]
  rw [Nat.and_comm, Nat.and_one_is_mod]
  rcases Nat.mod_two_eq_zero_or_one (n >>> i) with h | h <;> simp [h]
theorem hasBit_byte {i : Nat} (n : Nat) (h : i < 8) : hasBit (byte n) i = bit n i := by
  simp [hasBit, bit_eq, byte, Nat.testBit_mod_two_pow n 8 i |> fun e => show (n % 256).testBit i = _ from e, h]
theorem hasBit_eq (x : Byte) (i : Nat) : hasBit x i = x.getLsbD i := by
  simp only [hasBit, bit, BitVec.getLsbD, Nat.testBit]
  rw [Nat.and_comm, Nat.and_one_is_mod]
  rcases Nat.mod_two_eq_zero_or_one (x.toNat >>> i) with h | h <;> simp [h]
theorem byte_pow_bit (i j : Nat) : (byte (2 ^ i)).getLsbD j = (decide (j < 8) && decide (i = j)) := by
  rw [byte, BitVec.getLsbD_ofNat, Nat.testBit_two_pow]
@[simp] theorem hasBit_setBit_self {i : Nat} (x : Byte) (h : i < 8) : hasBit (setBit x i) i = true := by
  simp only [hasBit_eq, setBit, BitVec.getLsbD_or, byte_pow_bit, h, decide_true, Bool.and_self, Bool.or_true]
theorem hasBit_setBit {j : Nat} (x : Byte) (i : Nat) (h : j < 8) : hasBit (setBit x i) j = (hasBit x j || decide (i = j)) := by
  simp only [hasBit_eq, setBit, BitVec.getLsbD_or, byte_pow_bit, h, decide_true, Bool.true_and]
theorem hasBit_clearBits {j : Nat} (x m : Byte) (h : j < 8) : hasBit (clearBits x m) j = (hasBit x j && !hasBit m j) := by
  simp [hasBit_eq, clearBits, h]
theorem byte_ne_zero_iff (x : Byte) : x ≠ 0 ↔ ∃ i, i < 8 ∧ hasBit x i = true := by
  constructor
  · intro h
    refine Classical.byContradiction fun n => h ?_
    apply BitVec.eq_of_getLsbD_eq
    intro i hi
    have := fun y => n ⟨i, hi, y⟩
    rw [← hasBit_eq]
    simpa using this
  · rintro ⟨i, _, h⟩ rfl
    simp [hasBit_eq] at h

theorem due_iff {s : State} {t : Word} {n : Nat} : due s t n = true ↔ n ≤ (s.clock - t).toNat := decide_eq_true_iff

/-! ## Groups -/

@[simp] theorem Faults.get_set (f : Faults) (g : Group) (v : FaultGroup) : (f.set g v).get g = v := by
  cases g <;> simp [Faults.get, Faults.set]
theorem Faults.get_set_ne (f : Faults) {g g' : Group} (v : FaultGroup) (h : g' ≠ g) : (f.set g v).get g' = f.get g' := by
  cases g <;> cases g' <;> first | rfl | exact absurd rfl h | skip
  next b c => exact PerBed.get_set_ne _ _ (fun e => h (by rw [e]))
@[simp] theorem Faults.set_fields (f : Faults) (g : Group) (v : FaultGroup) :
    (f.set g v).pending = f.pending ∧ (f.set g v).mask = f.mask ∧ (f.set g v).watch = f.watch ∧ (f.set g v).owed = f.owed := by
  cases g <;> simp [Faults.set]
@[simp] theorem Faults.raise_fields (f : Faults) (g : Group) (i : Nat) :
    (f.raise g i).pending = f.pending ∧ (f.raise g i).mask = f.mask ∧ (f.raise g i).watch = f.watch := by
  unfold Faults.raise; dsimp only; split <;> simp
theorem Faults.raise_get_ne (f : Faults) {g g' : Group} (i : Nat) (h : g' ≠ g) : (f.raise g i).get g' = f.get g' := by
  unfold Faults.raise; dsimp only; split
  · rfl
  · exact (show _ = (f.set g _).get g' by cases g' <;> rfl).trans (Faults.get_set_ne _ _ h)
theorem Faults.raise_get (f : Faults) (g : Group) {i : Nat} (h : i < 8) : hasBit ((f.raise g i).get g).flags i = true := by
  unfold Faults.raise; dsimp only; split
  · assumption
  · rw [show ∀ (x : Faults) (o : Bool), ({ x with owed := o } : Faults).get g = x.get g by intro x o; cases g <;> rfl]
    simp [h]
@[simp] theorem raise_bed (f : Faults) (b : BedId) {i : Nat} (h : i < 8) :
    hasBit ((f.raise (.bed b) i).beds.get b).flags i = true := Faults.raise_get f (.bed b) h
@[simp] theorem raise_crane (f : Faults) {i : Nat} (h : i < 8) : hasBit (f.raise .crane i).crane.flags i = true :=
  Faults.raise_get f .crane h
@[simp] theorem raise_hall (f : Faults) {i : Nat} (h : i < 8) : hasBit (f.raise .hall i).hall.flags i = true :=
  Faults.raise_get f .hall h

end Sys2Proof.Machine
end

