-- ==== Sys2Proof/Laws/Rows.lean ====
section
/-!
SUPPORT. Sys2Proof/Laws/Rows.lean: for each command, when it stands to be taken, the state after its own effect in which the
taking goes on; for the rows of Table 11-2, those of `command`.
-/
set_option linter.unusedSimpArgs false
namespace Sys2Proof.Machine

set_option Elab.async false

variable {s : State} {b : BedId}

/-! ## Commands of the slot -/

/-- The model's search for an invalid parameter is the statements' (R17). -/
theorem firstBad_eq (l : List (Nat × Bool)) : firstBad l = firstInvalid l := by
  induction l with
  | nil => rfl
  | cons a l ih => obtain ⟨k, _ | _⟩ := a <;> simp_all [firstBad, firstInvalid]

theorem exec_hallRun {slot : Line} (h : commandDue s 0x10 0xFF) :
    exec (.hallRun slot) s = .next (settle s (hallCommandIn [.halt, .hold] (slotRead s) slot hallRun)) := commandRow_due h
theorem exec_hallHold {slot : Line} (h : commandDue s 0x11 0xFF) :
    exec (.hallHold slot) s = .next (settle s (hallCommandIn [.run] (slotRead s) slot hallHold)) := commandRow_due h
theorem exec_hallHalt {slot : Line} (h : commandDue s 0x12 0xFF) :
    exec (.hallHalt slot) s = .next (settle s (hallCommandIn [.run, .hold] (slotRead s) slot hallHalt)) := commandRow_due h
theorem exec_hallReset {slot : Line} (h : commandDue s 0x13 0xFF) :
    exec (.hallReset slot) s = .next (settle s (hallCommandIn [.halt, .run, .hold] (slotRead s) slot hallReset)) := commandRow_due h
theorem exec_faultClear {slot : Line} (h : commandDue s 0x14 0xFF) :
    exec (.faultClear slot) s = .next (settle s (faultClear (slotRead s) slot)) :=
  (commandRow_due h).trans (by rw [untargeted_due h])
theorem exec_faultMask {slot : Line} (h : commandDue s 0x15 0xFF) :
    exec (.faultMask slot) s = .next (settle s (faultMask (slotRead s) slot)) :=
  (commandRow_due h).trans (by rw [untargeted_due h])
theorem exec_statsSnapshot {slot : Line} (h : commandDue s 0x50 0xFF) :
    exec (.statsSnapshot slot) s = .next (settle s (statsSnapshot (slotRead s) slot)) :=
  (commandRow_due h).trans (by rw [untargeted_due h])
theorem exec_craneCancel {slot : Line} (h : commandDue s 0x30 0xFF) :
    exec (.craneCancel slot) s = .next (settle s (craneCancel (slotRead s) slot)) :=
  (commandRow_due h).trans (by rw [untargeted_due h])
theorem exec_plateRegister {slot : Line} (h : commandDue s 0x40 0xFF) :
    exec (.plateRegister slot) s = .next (settle s (plateRegister (slotRead s) slot)) :=
  (commandRow_due h).trans (by rw [untargeted_due h])
theorem exec_plateAmend {slot : Line} (h : commandDue s 0x41 0xFF) :
    exec (.plateAmend slot) s = .next (settle s (plateAmend (slotRead s) slot)) :=
  (commandRow_due h).trans (by rw [untargeted_due h])
theorem exec_plateRetire {slot : Line} (h : commandDue s 0x42 0xFF) :
    exec (.plateRetire slot) s = .next (settle s (plateRetire (slotRead s) slot)) :=
  (commandRow_due h).trans (by rw [untargeted_due h])
theorem exec_remnantFind {slot : Line} (h : commandDue s 0x43 0xFF) :
    exec (.remnantFind slot) s = .next (settle s (remnantFind (slotRead s) slot)) :=
  (commandRow_due h).trans (by rw [untargeted_due h])
theorem exec_holdDrop {slot : Line} (h : commandDue s 0x44 0xFF) :
    exec (.holdDrop slot) s = .next (settle s (holdDrop (slotRead s) slot)) :=
  (commandRow_due h).trans (by rw [untargeted_due h])
theorem exec_attentionMask {slot : Line} (h : commandDue s 0x51 0xFF) :
    exec (.attentionMask slot) s = .next (settle s (attentionMask (slotRead s) slot)) :=
  (commandRow_due h).trans (by rw [untargeted_due h])
theorem exec_monitorTest {slot : Line} (h : bedCommandDue s 0x16 b slot [(0, 1)]) :
    exec (.monitorTest slot) s = .next (settle s (monitorTest slot (slotRead s) b)) :=
  (commandRow_due h.1).trans (by rw [bedCommand_due h])
theorem exec_bedStart {slot : Line} (h : bedCommandDue s 0x20 b slot []) :
    exec (.bedStart slot) s = .next (settle s (bedStart (slotRead s) b)) :=
  (commandRow_due h.1).trans (by rw [bedCommand_due h])
theorem exec_bedStop {slot : Line} (h : bedCommandDue s 0x21 b slot []) :
    exec (.bedStop slot) s = .next (settle s (bedStop (slotRead s) b)) :=
  (commandRow_due h.1).trans (by rw [bedCommand_due h])
theorem exec_bedPause {slot : Line} (h : bedCommandDue s 0x22 b slot []) :
    exec (.bedPause slot) s = .next (settle s (bedPause (slotRead s) b)) :=
  (commandRow_due h.1).trans (by rw [bedCommand_due h])
theorem exec_bedRelease {slot : Line} (h : bedCommandDue s 0x24 b slot []) :
    exec (.bedRelease slot) s = .next (settle s (bedRelease (slotRead s) b)) :=
  (commandRow_due h.1).trans (by rw [bedCommand_due h])
theorem exec_bedRecover {slot : Line} (h : bedCommandDue s 0x25 b slot []) :
    exec (.bedRecover slot) s = .next (settle s (bedRecover (slotRead s) b)) :=
  (commandRow_due h.1).trans (by rw [bedCommand_due h])
theorem exec_bedResume {slot : Line} (h : bedCommandDue s 0x23 b slot [(0, 1)]) (o : par slot 0 1 ≠ 1 ∧ par slot 0 1 ≠ 2) :
    exec (.bedResume slot) s = .next (settle s (bedResume slot (slotRead s) b)) := by
  rw [exec, execBedResume, if_neg (by simp [o.1, o.2]), commandRow_due h.1, bedCommand_due h]
theorem exec_bedResumeWaive {slot : Line} (h : bedCommandDue s 0x23 b slot [(0, 1)]) (o : par slot 0 1 = 1) :
    exec (.bedResumeWaive slot) s = .next (settle s (bedResumeWaive (slotRead s) b)) := by
  rw [exec, execBedResumeWaive, if_neg (by simp [o]), commandRow_due h.1, bedCommand_due h]
theorem exec_bedResumeRemark {slot : Line} (h : bedCommandDue s 0x23 b slot [(0, 1)]) (o : par slot 0 1 = 2) :
    exec (.bedResumeRemark slot) s = .next (settle s (bedResumeRemark (slotRead s) b)) := by
  rw [exec, execBedResumeRemark, if_neg (by simp [o]), commandRow_due h.1, bedCommand_due h]
theorem exec_craneRecoverNone {slot : Line} (h : commandDue s 0x31 0xFF) (o : par slot 0 1 = 0) :
    exec (.craneRecoverNone slot) s = .next (settle s (craneRecover (slotRead s) slot (fun s _ => s))) := by
  rw [exec, execCraneRecoverNone, if_neg (by simp [o, inRange]), commandRow_due h, untargeted_due h]
theorem exec_craneRecoverAtSource {slot : Line} (h : commandDue s 0x31 0xFF) (o : par slot 0 1 = 1) :
    exec (.craneRecoverAtSource slot) s = .next (settle s (craneRecover (slotRead s) slot recoverSource)) := by
  rw [exec, execCraneRecoverAtSource, if_neg (by simp [o, inRange]), commandRow_due h, untargeted_due h]
theorem exec_craneRecoverAtDestination {slot : Line} (h : commandDue s 0x31 0xFF) (o : par slot 0 1 = 2) :
    exec (.craneRecoverAtDestination slot) s = .next (settle s (craneRecover (slotRead s) slot recoverDestination)) := by
  rw [exec, execCraneRecoverAtDestination, if_neg (by simp [o, inRange]), commandRow_due h, untargeted_due h]
theorem exec_craneRecoverLost {slot : Line} (h : commandDue s 0x31 0xFF) (o : par slot 0 1 = 3) :
    exec (.craneRecoverLost slot) s = .next (settle s (craneRecover (slotRead s) slot recoverLost)) := by
  rw [exec, execCraneRecoverLost, if_neg (by simp [o, inRange]), commandRow_due h, untargeted_due h]
theorem exec_commandSlotReadRefused (h : slotReadFor s (fun _ => true) = true) :
    exec .commandSlotReadRefused s = .next (settle s (deny (writeBackFlag (slotRead s)) oPARAM 0 1)) := takingIf_true h
theorem exec_unknownCommand {slot : Line} (h : slotReadFor s (fun c => !commandCodes.contains c) = true) :
    exec (.unknownCommand slot) s = .next (settle s (deny (slotRead s) oUNKNOWN 0 0)) := takingIf_true h

/-! ## Memory path -/

theorem exec_memoryReady (h : s.path.memReady = false) :
    exec .memoryReady s = .next (settle s (beginVerification (setPath (fresh s) { s.path with memReady := true }) 0)) :=
  takingIf_true (by simp [h])
theorem exec_sspTransaction {t : Transaction} : exec (.sspTransaction t) s = .next (settle s (offer (fresh s) t)) := rfl
theorem exec_hostClassify {t : Transaction} {rest : List Transaction} (f : s.path.fwd = none) (q : s.path.ssp = t :: rest) :
    exec .hostClassify s = .next (settle s (classify (fresh s) t)) := by
  rw [exec, execHostClassify, takingIf_true (by simp [f, q])]; simp [q]
theorem exec_mspGrant (h : mayGrant s = true) : exec .mspGrant s = .next (settle s (grant (fresh s))) := takingIf_true h
theorem exec_hostWriteAnswer {t : Transaction} {a : Ack} (h : hostHas s t) (w : t.write = true)
    (n : a = .refused ∨ snooped s t = false) :
    exec (.hostWriteAnswer a) s = .next (settle s (hostWriteAnswer (fresh s) t a)) := by
  simp only [exec, execHostWriteAnswer, hostWrite_of h w]
  exact takingIf_true (by rcases n with n | n <;> simp [n])
theorem exec_hostReadAnswer {t : Transaction} {a : ReadAnswer} (h : hostHas s t) (w : t.write = false) (n : closes s t = none) :
    exec (.hostReadAnswer a) s = .next (settle s (endForward (fresh s) (readReply a))) := by
  simp only [exec, execHostReadAnswer, hostRead_of h w]
  exact takingIf_true (by simp [n])
theorem exec_bracketClose {t : Transaction} {a : ReadAnswer} {r : RecId} (h : hostHas s t) (w : t.write = false)
    (n : closes s t = some r) :
    exec (.bracketClose a) s = .next (settle s (endForward (setPath (fresh s) (closeBracket s.path r)) (readReply a))) := by
  simp only [exec, execBracketClose, hostRead_of h w, Option.bind, n]; rfl
theorem exec_bracketExpiry {r : RecId} (h : bracketOpen s.path r = true) :
    exec (.bracketExpiry r) s = .next (settle s (setPath (fresh s)
      { closeBracket s.path r with expired := s.path.expired + 1 })) := takingIf_true h
theorem exec_burnRingIssuedWrite {t : Transaction} {i : Nat} (h : hostHas s t) (w : t.write = true)
    (n : burnIssued s t = some (b, i)) : exec .burnRingIssuedWrite s = .next (settle s (burnWrite (fresh s) b i)) := by
  simp only [exec, execBurnRingIssuedWrite, hostWrite_of h w, Option.bind, n]; rfl
theorem exec_craneRingIssuedWrite {t : Transaction} {i : Nat} {is : List Nat} (h : hostHas s t) (w : t.write = true)
    (n : craneIssued s t = i :: is) : exec .craneRingIssuedWrite s = .next (settle s (craneWrite (fresh s) (i :: is))) := by
  simp only [exec, execCraneRingIssuedWrite, hostWrite_of h w, Option.map, n]; rfl
theorem exec_acknowledgeWrite {t : Transaction} (h : hostHas s t) (w : t.write = true) (n : isAck s t = true) :
    exec .acknowledgeWrite s = .next (settle s (acknowledge (fresh s) t)) := by
  simp only [exec, execAcknowledgeWrite, hostWrite_of h w, Option.filter, n]; rfl
theorem exec_commit {t : Transaction} (h : hostHas s t) (w : t.write = true) (n : isCommit s t = true) :
    exec .commit s = .next (settle s (commit (fresh s) t)) := by
  simp only [exec, execCommit, hostWrite_of h w, Option.filter, n]; rfl
theorem exec_commandTrigger {t : Transaction} (h : hostHas s t) (w : t.write = true) (n : isTrigger s t = true)
    (c : s.cmd.current = none) (v : s.loader.ver = none) :
    exec .commandTrigger s = .next (settle s (trigger (fresh s) t)) := by
  simp only [exec, execCommandTrigger, hostWrite_of h w, Option.filter, takesTrigger, n, c, v]; rfl

/-! ## Answers of the MSP to the record engine and the fetchers -/

theorem exec_resultWriteAnswer {q : Req} {a : Ack} (h : engineHas s q) (w : isResult q = true) :
    exec (.resultWriteAnswer a) s = .next (settle s (resultAnswer (fresh s) q a)) := by
  rw [engineHas] at h
  simp only [exec, execResultWriteAnswer, h, Option.bind, Option.filter, Option.map, if_true, w]; rfl
theorem exec_takenWriteAnswer {q : Req} {a : Ack} (h : engineHas s q) (w : isTaken q = true) :
    exec (.takenWriteAnswer a) s = .next (settle s (takenAnswer (fresh s) a)) := by
  rw [engineHas] at h
  simp only [exec, execTakenWriteAnswer, h, Option.bind, Option.filter, Option.map, if_true, w]; rfl
theorem exec_bedElementReadAnswer {q : Req} {a : ReadAnswer} (h : engineHas s q) (w : q.what = .bedElement b) :
    exec (.bedElementReadAnswer a) s = .next (settle s (bedElementAnswer (fresh s) b a)) := by
  rw [engineHas] at h
  simp only [exec, execBedElementReadAnswer, h, Option.bind, Option.filter, Option.map, bedElementOf, w]; rfl
theorem exec_bedOwnershipReadAnswer {q : Req} {a : ReadAnswer} (h : engineHas s q) (w : q.what = .bedOwner b) :
    exec (.bedOwnershipReadAnswer a) s = .next (settle s (bedOwnerAnswer (fresh s) b q a)) := by
  rw [engineHas] at h
  simp only [exec, execBedOwnershipReadAnswer, h, Option.bind, Option.filter, Option.map, bedOwnerOf, w]; rfl
theorem exec_descriptorReadAnswer {q : Req} {a : ReadAnswer} (h : engineHas s q) (w : q.what = .descriptor b) :
    exec (.descriptorReadAnswer a) s = .next (settle s (descriptorAnswer (fresh s) b a)) := by
  rw [engineHas] at h
  simp only [exec, execDescriptorReadAnswer, h, Option.bind, Option.filter, Option.map, descriptorOf, w]; rfl
theorem exec_bedReturnAnswer {q : Req} {a : Ack} (h : engineHas s q) (w : q.what = .bedReturn b) :
    exec (.bedReturnAnswer a) s = .next (settle s (bedReturnAnswer (fresh s) b q a)) := by
  rw [engineHas] at h
  simp only [exec, execBedReturnAnswer, h, Option.bind, Option.filter, Option.map, bedReturnOf, w]; rfl
theorem exec_craneOwnershipReadAnswer {q : Req} {i : Nat} {a : ReadAnswer} (h : engineHas s q) (w : q.what = .craneOwner i) :
    exec (.craneOwnershipReadAnswer a) s = .next (settle s (craneOwnerAnswer (fresh s) i a)) := by
  rw [engineHas] at h
  simp only [exec, execCraneOwnershipReadAnswer, h, Option.bind, Option.filter, Option.map, craneOwnerOf, w]; rfl
theorem exec_craneElementReadAnswer {q : Req} {i : Nat} {a : ReadAnswer} (h : engineHas s q) (w : q.what = .craneElement i) :
    exec (.craneElementReadAnswer a) s = .next (settle s (craneElementAnswer (fresh s) i q a)) := by
  rw [engineHas] at h
  simp only [exec, execCraneElementReadAnswer, h, Option.bind, Option.filter, Option.map, craneElementOf, w]; rfl
theorem exec_craneReturnAnswer {q : Req} {i : Nat} {a : Ack} (h : engineHas s q) (w : q.what = .craneReturn i) :
    exec (.craneReturnAnswer a) s = .next (settle s (craneReturnAnswer (fresh s) i q a)) := by
  rw [engineHas] at h
  simp only [exec, execCraneReturnAnswer, h, Option.bind, Option.filter, Option.map, craneReturnOf, w]; rfl
theorem exec_writeBackAnswer {c : Current} {r : RecId} {a : Ack} (m : s.path.msp = some .engine) (h : s.engine.cur = some c)
    (w : c.req.what = .writeBack r) (n : r ≠ .verdict) :
    exec (.writeBackAnswer a) s = .next (settle s (writeBackAnswer (fresh s) c r a)) := by
  have i : isWb c.req = true := by unfold isWb; rw [w]; split <;> simp_all
  simp only [exec, execWriteBackAnswer, engReq, m, h, Option.filter, Option.map, i, w, beq_self_eq_true, if_true]; rfl
theorem exec_fetch {u : FetchFor} {f : Fetch} (m : s.path.msp = some (.fetch b)) (h : (runOf s b).fetch = some f) (w : f.use = u) :
    fetchAnswered s u = some b := by simp [fetchAnswered, m, h, w]
theorem exec_markListReadAnswer {f : Fetch} {a : ReadAnswer} (m : s.path.msp = some (.fetch b)) (h : (runOf s b).fetch = some f)
    (w : f.use = .marks) : exec (.markListReadAnswer a) s = .next (settle s (markListAnswer (fresh s) b a)) := by
  simp only [exec, execMarkListReadAnswer, exec_fetch m h w]; rfl
theorem exec_checkReadAnswer {f : Fetch} {a : ReadAnswer} (m : s.path.msp = some (.fetch b)) (h : (runOf s b).fetch = some f)
    (w : f.use = .check) : exec (.checkReadAnswer a) s = .next (settle s (checkAnswer (fresh s) b a)) := by
  simp only [exec, execCheckReadAnswer, exec_fetch m h w]; rfl
theorem exec_streamFetchAnswer {f : Fetch} {a : ReadAnswer} (m : s.path.msp = some (.fetch b)) (h : (runOf s b).fetch = some f)
    (w : f.use = .stream) : exec (.streamFetchAnswer a) s = .next (settle s (streamAnswer (fresh s) b a)) := by
  simp only [exec, execStreamFetchAnswer, exec_fetch m h w]; rfl
theorem exec_anchorReadAnswer {q : Req} {n : Nat} {v : Verif} {a : ReadAnswer} (h : engineHas s q) (w : q.what = .anchorLine n)
    (x : s.loader.ver = some v) : exec (.anchorReadAnswer a) s = .next (settle s (match a with
      | .done d => anchorLine (slotRead s) v n d
      | .refused => failVerdict (slotRead s) v (vMEMORY, q.addr, 0))) := by
  rw [engineHas] at h
  simp only [exec, execAnchorReadAnswer, anchorReadOf, h, Option.bind, w, x]; rfl
theorem exec_tableScanReadAnswer {q : Req} {i : Nat} {k : Bool} {v : Verif} {c : Anchor} {a : ReadAnswer} (h : engineHas s q)
    (w : q.what = .scanRead i k) (x : s.loader.ver = some v) (y : v.cand = some c) :
    exec (.tableScanReadAnswer a) s = .next (settle s (match a with
      | .done d => scanLine (slotRead s) v c i k d
      | .refused => failVerdict (slotRead s) v (vMEMORY, q.addr, 0))) := by
  rw [engineHas] at h
  simp only [exec, execTableScanReadAnswer, scanReadOf, h, Option.bind, Option.map, w, x, y]; rfl
theorem exec_verdictWriteAnswer {q : Req} {v : Verif} {a : Ack} (h : engineHas s q) (w : q.what = .writeBack .verdict)
    (x : s.loader.ver = some v) : exec (.verdictWriteAnswer a) s = .next (settle s (verdictAnswer (fresh s) v a)) := by
  rw [engineHas] at h
  simp [exec, execVerdictWriteAnswer, h, Option.filter, w, x, taking]

/-! ## Requests inside the part -/

theorem exec_plateLookup {h : Hand} {k : Bool} (x : (runOf s b).hand = some h) (y : (runOf s b).state = .accepting)
    (z : (runOf s b).acc = .lookup k) :
    exec (.plateLookup b) s = .next (settle s (plateLookup (fresh s) b k h)) := by
  simp only [exec, execPlateLookup, x, z]
  exact takingIf_true (by simp [accWaits, y])
theorem exec_remnantIdReserve {h : Hand} {d : Line} (x : (runOf s b).hand = some h) (y : (runOf s b).state = .accepting)
    (z : (runOf s b).acc = .reserve) (w : h.desc = some d) :
    exec (.remnantIdReserve b) s = .next (settle s (idReserve (fresh s) b (descId d))) := by
  simp only [exec, execRemnantIdReserve, x, Option.bind, w]
  exact takingIf_true (by simp [accWaits, y, z])
theorem exec_burnRequest {h : Hand} (x : (runOf s b).hand = some h) (y : (runOf s b).state = .accepting)
    (z : (runOf s b).acc = .burn) :
    exec (.burnRequest b) s = .next (settle s (burnRequest (fresh s) b h)) := by
  simp only [exec, execBurnRequest, x]
  exact takingIf_true (by simp [accWaits, y, z])
theorem exec_claimRelease {r : Release} {l : List Release} (x : s.stock.releases = r :: l) :
    exec .claimRelease s = .next (settle s (claimRelease (fresh s) r)) := by
  simp only [exec, execClaimRelease, x, List.head?]; rfl
theorem exec_lockRequest {h : Hand} (x : (runOf s b).hand = some h) (y : (runOf s b).state = .accepting)
    (z : (runOf s b).acc = .lockReq) : exec (.lockRequest b) s = .next (settle s (lockRequest (fresh s) b h)) := by
  simp only [exec, execLockRequest, x]
  exact takingIf_true (by simp [accWaits, y, z])
theorem exec_permitRequest (x : (runOf s b).permitAsk = true) (y : s.arb.pool.isSome = true) :
    exec (.permitRequest b) s = .next (settle s (permitRequest (fresh s) b)) := takingIf_true (by simp [x, y])
theorem exec_permitGrant (x : s.arb.grants.contains b = true) :
    exec (.permitGrant b) s = .next (settle s (permitGrant (fresh s) b)) := takingIf_true x
theorem exec_tokenRequest (x : (runOf s b).tokenAsk = true) :
    exec (.tokenRequest b) s = .next (settle s (tokenRequest (fresh s) b)) := takingIf_true x
theorem exec_readyReport (x : (runOf s b).readyRpt = true) :
    exec (.readyReport b) s = .next (settle s (readyReport (fresh s) b)) := takingIf_true x
theorem exec_tokenOffer (x : s.arb.offer = some b) : exec .tokenOffer s = .next (settle s (tokenOffer (fresh s) b)) := by
  simp only [exec, execTokenOffer, x]; rfl
theorem exec_heatNumberRequest {i : Nat} (x : (runOf s b).marks.heatAsk = some i) (y : markDue (runOf s b) = some i) :
    exec (.heatNumberRequest b) s = .next (settle s (heatNumber (fresh s) b i)) := by
  simp only [exec, execHeatNumberRequest, x]
  exact takingIf_true (by simp [y])
theorem exec_remnantCreation {h : Hand} (x : (runOf s b).hand = some h) (y : (runOf s b).state = .unloading)
    (z : (runOf s b).unl = .creation) : exec (.remnantCreation b) s = .next (settle s (remnantCreation (fresh s) b h)) := by
  simp only [exec, execRemnantCreation, x]
  exact takingIf_true (by simp [y, z])
theorem exec_craneRequestPost {q : BedReq} {l : List Post} (x : s.crane.inbox.get b = .post q :: l) :
    exec (.craneRequestPost b) s = .next (settle s (takePost (fresh s) b q)) := by
  simp only [exec, execCraneRequestPost, x, List.head?]; rfl
theorem exec_craneRequestWithdraw {l : List Post} (x : s.crane.inbox.get b = .withdraw :: l) :
    exec (.craneRequestWithdraw b) s = .next (settle s (takeWithdraw (fresh s) b)) := by
  simp only [exec, execCraneRequestWithdraw, x, List.head?]; rfl

/-! ## Gantries and bed timers -/

theorem exec_gantryStepDone {t : BedState} {n : Byte} (h : bedHears s b t) :
    exec (.gantryStepDone b n) s = .next (settle s (stepDone (heard s b) b n)) := by
  rw [exec, execGantryStepDone, gantry_heard h]
theorem exec_gantryPierceDone {t : BedState} (h : bedHears s b t) :
    exec (.gantryPierceDone b) s = .next (settle s (pierceDone (heard s b) b)) := by
  rw [exec, execGantryPierceDone, gantry_heard h]
theorem exec_gantryPierceFail {t : BedState} (h : bedHears s b t) :
    exec (.gantryPierceFail b) s = .next (settle s (pierceFail (heard s b) b)) := by
  rw [exec, execGantryPierceFail, gantry_heard h]
theorem exec_gantryArc {t : BedState} {v : Byte} (h : bedHears s b t) :
    exec (.gantryArc b v) s = .next (settle s (arcSample (heard s b) b v.toNat)) := by
  rw [exec, execGantryArc, gantry_heard h]
theorem exec_gantryHold {t : BedState} (h : bedHears s b t) :
    exec (.gantryHold b) s = .next (settle s (setHold (heard s b) b true)) := by
  rw [exec, execGantryHold, gantry_heard h]
theorem exec_gantryGo {t : BedState} (h : bedHears s b t) :
    exec (.gantryGo b) s = .next (settle s (setHold (heard s b) b false)) := by
  rw [exec, execGantryGo, gantry_heard h]
theorem exec_gantryPaused {t : BedState} {n : Byte} (h : bedHears s b t) :
    exec (.gantryPaused b n) s = .next (settle s (pausedReply (heard s b) b n)) := by
  rw [exec, execGantryPaused, gantry_heard h]
theorem exec_gantryStopped {t : BedState} (h : bedHears s b t) :
    exec (.gantryStopped b) s = .next (settle s (stoppedReply (heard s b) b)) := by
  rw [exec, execGantryStopped, gantry_heard h]
theorem exec_gantryMarkDone {t : BedState} (h : bedHears s b t) :
    exec (.gantryMarkDone b) s = .next (settle s (markDone (heard s b) b)) := by
  rw [exec, execGantryMarkDone, gantry_heard h]
theorem exec_gantryMarkFail {t : BedState} (h : bedHears s b t) :
    exec (.gantryMarkFail b) s = .next (settle s (markAttemptFails (heard s b) b .replyFail)) := by
  rw [exec, execGantryMarkFail, gantry_heard h]
theorem exec_gantryFault {t : BedState} {c : Byte} (h : bedHears s b t) :
    exec (.gantryFault b c) s = .next (settle s (gantryFaultMessage (heard s b) b c)) := by
  rw [exec, execGantryFault, gantry_heard h]
theorem exec_gantryAlive (h : present s b = true) : exec (.gantryAlive b) s =
    .next (settle s (setLink (fresh s) b { (bedOf s b).lk with live := true, since := s.clock })) := takingIf_true h
theorem exec_bedLinkTimeout {t : BedState} (h : bedHears s b t) (d : due s (bedOf s b).lk.since Config.bedLink = true) :
    exec (.bedLinkTimeout b) s = .next (settle s (linkLost (fresh s) b)) :=
  takingIf_true (by simp [present, h.1, h.2.1, h.2.2, d])
theorem exec_stopLimit (h : stopDue s b = true) : exec (.stopLimit b) s = .next (settle s (stopLimit (fresh s) b)) := takingIf_true h
theorem exec_pierceTimeout (h : pierceDue s b = true) : exec (.pierceTimeout b) s =
    .next (settle s (if (runOf s b).state == .burning then pierceFails (fresh s) b else releaseToken (fresh s) b)) := takingIf_true h
theorem exec_markReplyLimit (h : markLimitDue s b = true) :
    exec (.markReplyLimit b) s = .next (settle s (markAttemptFails (fresh s) b .timeout)) := takingIf_true h

/-! ## Crane and watches -/

theorem exec_craneAccept {m : Move} (l : s.crane.lk.live = true) (h : s.crane.move = some m) :
    exec (.craneAccept m.id) s = .next (settle s (craneAccept (craneHeardAt s))) := by
  rw [exec, execCraneAccept, craneMessage_heard l h]
theorem exec_craneRefuse {m : Move} (l : s.crane.lk.live = true) (h : s.crane.move = some m) :
    exec (.craneRefuse m.id) s = .next (settle s (craneRefuse (craneHeardAt s) m)) := by
  rw [exec, execCraneRefuse, craneMessage_heard l h]
theorem exec_craneLifted {m : Move} {x : Word} (l : s.crane.lk.live = true) (h : s.crane.move = some m) :
    exec (.craneLifted m.id x) s = .next (settle s (craneLifted (craneHeardAt s) m x.toNat)) := by
  rw [exec, execCraneLifted, craneMessage_heard l h]
theorem exec_craneArrived {m : Move} (l : s.crane.lk.live = true) (h : s.crane.move = some m) :
    exec (.craneArrived m.id) s = .next (settle s (craneArrived (craneHeardAt s))) := by
  rw [exec, execCraneArrived, craneMessage_heard l h]
theorem exec_craneSet {m : Move} (l : s.crane.lk.live = true) (h : s.crane.move = some m) :
    exec (.craneSet m.id) s = .next (settle s (craneSet (craneHeardAt s) m)) := by
  rw [exec, execCraneSet, craneMessage_heard l h]
theorem exec_craneDropped {m : Move} (l : s.crane.lk.live = true) (h : s.crane.move = some m) :
    exec (.craneDropped m.id) s = .next (settle s (craneDropped (craneHeardAt s) m)) := by
  rw [exec, execCraneDropped, craneMessage_heard l h]
theorem exec_craneReturning {m : Move} (l : s.crane.lk.live = true) (h : s.crane.move = some m) :
    exec (.craneReturning m.id) s = .next (settle s (craneReturning (craneHeardAt s) m)) := by
  rw [exec, execCraneReturning, craneMessage_heard l h]
theorem exec_craneFault {id : Byte} {c : CraneCause} (l : s.crane.lk.live = true) :
    exec (.craneFault id c) s = .next (settle s (craneFaultMessage (fresh s) id c)) := takingIf_true l
theorem exec_craneReady {k : Bool} : exec (.craneReady k) s = .next (settle s (craneReady (fresh s) k)) := rfl
theorem exec_craneLinkTimeout (l : s.crane.lk.live = true) (d : due s s.crane.lk.since Config.craneLink = true) :
    exec .craneLinkTimeout s = .next (settle s (craneLinkLost (fresh s))) := takingIf_true (by simp [l, d])
theorem exec_phaseLimit (d : phaseDue s = true) : exec .phaseLimit s = .next (settle s (phaseOver (fresh s))) := takingIf_true d
theorem exec_craneResetLimit {t : Word} (h : s.crane.resetAt = some t) (d : due s t Config.craneReset = true) :
    exec .craneResetLimit s = .next (settle s (craneResetEnd (fresh s))) := takingIf_true (by simp [h, d])
theorem exec_hostWatchExpiry (d : watchDue s = true) : exec .hostWatchExpiry s = .next (settle s (watchExpiry (fresh s))) :=
  takingIf_true d
theorem exec_holdExpiry {i : Nat} (d : expires s i = true) : exec (.holdExpiry i) s = .next (settle s (holdExpiry (fresh s) i)) :=
  takingIf_true d

end Sys2Proof.Machine
end

