-- ==== Sys2Proof/Laws/Bed.lean ====
section
/-!
SUPPORT. Sys2Proof/Laws/Bed.lean: what the shared operations of the bed controllers do to the beds, the permit arbiter and the
lock table, and what the return of an order leaves.
-/
set_option linter.unusedSimpArgs false
namespace Sys2Proof.Machine

variable (s : State) (b : BedId)

/-! ## Entering a state, pausing -/

@[simp] theorem runOf_enter (t : BedState) : runOf (enter s b t) b =
    { runOf s b with state := t, arc := if (runOf s b).state == .burning && t != .burning then ⟨0, 0⟩ else (runOf s b).arc,
                     pause := if t == .stopped || t == .waiting then 0 else (runOf s b).pause } := by simp [enter]
theorem runOf_enter_ne {c : BedId} (t : BedState) (h : c ≠ b) : runOf (enter s b t) c = runOf s c := by
  simp [enter, runOf_setRun_ne _ _ h]
@[simp] theorem links_enter (t : BedState) (c : BedId) :
    (bedOf (enter s b t) c).lk = (bedOf s c).lk ∧ (bedOf (enter s b t) c).ring = (bedOf s c).ring ∧
    isLive (enter s b t) c = isLive s c := by simp [enter]
@[simp] theorem runOf_setStream (t : Stream) : runOf (setStream s b t) b = { runOf s b with stream := t } := by simp [setStream]
theorem runOf_setStream_ne {c : BedId} (t : Stream) (h : c ≠ b) : runOf (setStream s b t) c = runOf s c := by
  simp [setStream, runOf_setRun_ne _ _ h]
@[simp] theorem isLive_setStream (t : Stream) (c : BedId) : isLive (setStream s b t) c = isLive s c := by simp [setStream]
@[simp] theorem runOf_sendBed (o : Output) (c : BedId) : runOf (sendBed s b o) c = runOf s c := by simp
/-- Adding a pause cause to an active bed sets its bit; to another it does nothing (R89). -/
theorem addPause_inactive (i : Nat) (h : activeState (runOf s b).state = false) : addPause s b i = s := by
  simp [addPause, h]
theorem addPause_run (i : Nat) (h : activeState (runOf s b).state = true) :
    (runOf (addPause s b i) b).pause = setBit (runOf s b).pause i ∧ (runOf (addPause s b i) b).state = (runOf s b).state ∧
    (runOf (addPause s b i) b).hand = (runOf s b).hand ∧ (runOf (addPause s b i) b).arc = (runOf s b).arc ∧
    (runOf (addPause s b i) b).pierce = (runOf s b).pierce ∧ (runOf (addPause s b i) b).marks = (runOf s b).marks := by
  unfold addPause; dsimp only
  rw [if_neg (by simp [h])]
  split <;> simp [sendPause]
theorem addPause_state (i : Nat) (c : BedId) : (runOf (addPause s b i) c).state = (runOf s c).state := by
  unfold addPause; dsimp only
  by_cases e : c = b
  · subst e; repeat' split
    all_goals simp [sendPause]
  · repeat' split
    all_goals simp [sendPause, runOf_setStream_ne _ _ _ e, runOf_setRun_ne _ _ e]
theorem addPause_ne {c : BedId} (i : Nat) (e : c ≠ b) : runOf (addPause s b i) c = runOf s c := by
  unfold addPause; dsimp only
  repeat' split
  all_goals simp [sendPause, runOf_setStream_ne _ _ _ e, runOf_setRun_ne _ _ e]

/-! ## Token, permit, locks -/

@[simp] theorem runOf_releaseToken : runOf (releaseToken s b) b = { runOf s b with pierce := none } := by
  unfold releaseToken; dsimp only; split <;> simp
theorem runOf_releaseToken_ne {c : BedId} (e : c ≠ b) : runOf (releaseToken s b) c = runOf s c := by
  unfold releaseToken; dsimp only; split <;> simp [runOf_setRun_ne _ _ e]
@[simp] theorem arbOffer_token : (arbOffer s).arb.token = s.arb.token := by
  unfold arbOffer; split
  · split <;> simp
  · rfl
theorem releaseToken_token : (releaseToken s b).arb.token ≠ some b := by
  unfold releaseToken; dsimp only; split
  · simp
  · next h => simpa using h
@[simp] theorem runOf_leaveTokenList :
    runOf (leaveTokenList s b) b = { runOf s b with tokenAsk := false, readyRpt := false } := by
  unfold leaveTokenList; dsimp only; split <;> simp
theorem runOf_leaveTokenList_ne {c : BedId} (e : c ≠ b) : runOf (leaveTokenList s b) c = runOf s c := by
  unfold leaveTokenList; dsimp only; split <;> simp [runOf_setRun_ne _ _ e]
theorem leaveTokenList_token (c : Option BedId) (h : s.arb.token ≠ c) : (leaveTokenList s b).arb.token ≠ c := by
  unfold leaveTokenList; dsimp only; split <;> simpa using h
@[simp] theorem runOf_leavePermitList : runOf (leavePermitList s b) b = { runOf s b with permitAsk := false } := by
  simp [leavePermitList]
theorem runOf_leavePermitList_ne {c : BedId} (e : c ≠ b) : runOf (leavePermitList s b) c = runOf s c := by
  simp [leavePermitList, runOf_setRun_ne _ _ e]
@[simp] theorem runOf_releasePermit :
    runOf (releasePermit s b) b = { runOf s b with pierce := none, permit := false } := by
  unfold releasePermit; dsimp only; split
  · simp
  · next h => simp at h ⊢; simp [h]
theorem runOf_releasePermit_ne {c : BedId} (e : c ≠ b) : runOf (releasePermit s b) c = runOf s c := by
  unfold releasePermit; dsimp only; split <;> simp [runOf_setRun_ne _ _ e, runOf_releaseToken_ne _ _ e]
theorem Locks.examine_owns (n : Nat) (l : Locks) (h : l.owns b = false) (w : ∀ x ∈ l.waits, x.1 ≠ b) :
    (Locks.examine n l).owns b = false := by
  induction n generalizing l with
  | zero => exact h
  | succ n ih =>
    unfold Locks.examine; split
    · next c rs rest e =>
      split
      · apply ih
        · have hc : ¬b = c := fun x => w (c, rs) (by simp [e]) x.symm
          simp only [Locks.owns, grantLocks, List.any_append, Bool.or_eq_false_iff] at h ⊢
          constructor
          · simp only [List.any_map, List.any_eq_false, Function.comp] at h ⊢
            intro x hx
            have := h x hx
            split <;> simp_all
          · simp [hc]
        · intro x hx; exact w x (by simp [e, hx])
      · exact h
    · exact h
/-- The examination of the wait list grants its heads one after the other while there is room, with fuel for every waiter (R54). -/
theorem Locks.examine_grants (n : Nat) (l : Locks) (h : l.waits.length ≤ n) :
    let after (j : Nat) : List LockEntry := (l.waits.take j).foldl (fun x w => grantLocks x w.1 w.2) l.entries
    ∃ k, Locks.examine n l = ⟨after k, l.waits.drop k⟩ ∧
      (∀ j w, j < k → l.waits[j]? = some w → lockRoom (after j) w.2 = true) ∧
      (∀ w, l.waits[k]? = some w → lockRoom (after k) w.2 = false) := by
  induction n generalizing l with
  | zero => obtain ⟨es, ws⟩ := l; cases ws with
    | nil => exact ⟨0, rfl, by simp, by simp⟩
    | cons _ _ => simp at h
  | succ n ih =>
    obtain ⟨es, ws⟩ := l
    cases ws with
    | nil => exact ⟨0, rfl, by simp, by simp⟩
    | cons w rest =>
      by_cases r : lockRoom es w.2 = true
      · obtain ⟨k, e, g, f⟩ := ih ⟨grantLocks es w.1 w.2, rest⟩ (by simpa using h)
        refine ⟨k + 1, by simpa [Locks.examine, r] using e, fun j x hj hx => ?_, fun x hx => f x (by simpa using hx)⟩
        cases j with
        | zero => obtain rfl : w = x := by simpa using hx
                  exact r
        | succ j => exact g j x (by omega) (by simpa using hx)
      · refine ⟨0, by simp [Locks.examine, r], by simp, fun x hx => ?_⟩
        obtain rfl : w = x := by simpa using hx
        simpa using r

theorem Locks.release_owns (l : Locks) : (l.release b).owns b = false := by
  unfold Locks.release; apply Locks.examine_owns
  · simp [Locks.owns]
  · intro x hx; simpa using (List.mem_filter.1 hx).2
theorem releaseLocks_owns : (releaseLocks s b).locks.owns b = false := Locks.release_owns b s.locks

/-! ## The return of an order -/

@[simp] theorem runOf_giveUp : runOf (giveUp s b) b =
    { runOf s b with permitAsk := false, tokenAsk := false, readyRpt := false, pierce := none, permit := false } := by
  unfold giveUp; dsimp only; split <;> simp
theorem runOf_giveUp_ne {c : BedId} (e : c ≠ b) : runOf (giveUp s b) c = runOf s c := by
  unfold giveUp; dsimp only
  split <;> simp [runOf_releasePermit_ne _ _ e, runOf_leaveTokenList_ne _ _ e, runOf_leavePermitList_ne _ _ e]
theorem giveUp_owns : (giveUp s b).locks.owns b = false := by
  unfold giveUp; dsimp only; split <;> simp [releaseLocks_owns]
@[simp] theorem runOf_withdrawAll (c : BedId) : runOf (withdrawAll s b) c = runOf s c := rfl
@[simp] theorem runOf_dropUnposted (c : BedId) : runOf (dropUnposted s b) c = runOf s c := by simp
/-- The bed after the return of its order (R57, R97, R111, R128). -/
def afterReturn (r : BedRun) (h : Hand) : BedRun :=
  { r.cleared with permit := false, ret := some ⟨h.idx, ordAttn h.order⟩ }
theorem returnOrder_none (o : Outcome) (c : Nat) (p : Option (Nat × Nat)) (k : Bool) (h : (runOf s b).hand = none) :
    returnOrder s b o c p k = s := by simp [returnOrder, h]
theorem runOf_returnOrder {h : Hand} (o : Outcome) (c : Nat) (p : Option (Nat × Nat)) (k : Bool) (e : (runOf s b).hand = some h) :
    runOf (returnOrder s b o c p k) b = afterReturn (runOf s b) h := by
  unfold returnOrder; simp only [e]
  split <;> simp [afterReturn, BedRun.cleared, dropFetch]
theorem runOf_returnOrder_ne {x : BedId} (o : Outcome) (c : Nat) (p : Option (Nat × Nat)) (k : Bool) (e : x ≠ b) :
    runOf (returnOrder s b o c p k) x = runOf s x := by
  unfold returnOrder; dsimp only; split
  · rfl
  · split <;> simp [runOf_setRun_ne _ _ e, runOf_giveUp_ne _ _ e]
@[simp] theorem links_returnOrder (o : Outcome) (c : Nat) (p : Option (Nat × Nat)) (k : Bool) (x : BedId) :
    (bedOf (returnOrder s b o c p k) x).lk = (bedOf s x).lk ∧ (bedOf (returnOrder s b o c p k) x).ring = (bedOf s x).ring ∧
    isLive (returnOrder s b o c p k) x = isLive s x := by
  have g : ∀ s : State, (bedOf (giveUp s b) x).lk = (bedOf s x).lk ∧ (bedOf (giveUp s b) x).ring = (bedOf s x).ring := by
    intro s
    have t : ∀ s : State, (bedOf (releaseToken s b) x).lk = (bedOf s x).lk ∧ (bedOf (releaseToken s b) x).ring = (bedOf s x).ring := by
      intro s; unfold releaseToken; dsimp only; split <;> simp
    have l : ∀ s : State, (bedOf (leaveTokenList s b) x).lk = (bedOf s x).lk ∧
        (bedOf (leaveTokenList s b) x).ring = (bedOf s x).ring := by
      intro s; unfold leaveTokenList; dsimp only; split <;> simp
    have p : ∀ s : State, (bedOf (releasePermit s b) x).lk = (bedOf s x).lk ∧
        (bedOf (releasePermit s b) x).ring = (bedOf s x).ring := by
      intro s; unfold releasePermit; dsimp only; split <;> simp [t]
    unfold giveUp; dsimp only; split <;> simp [p, l, leavePermitList]
  unfold returnOrder; dsimp only; split
  · simp
  · split <;> simp [g, isLive]
/-- The return write is the last request queued (R44, R46). -/
theorem returnOrder_queue {h : Hand} (o : Outcome) (c : Nat) (p : Option (Nat × Nat)) (k : Bool) (e : (runOf s b).hand = some h) :
    ∃ line, (returnOrder s b o c p k).engine.queue =
        s.engine.queue ++ [⟨s.engine.nextTicket, .bedReturn b, h.addr, line, returnEnables, false⟩] ∧
      ∃ place : Nat × Nat, line = returnLine s (runOf s b) h o c place k := by
  unfold returnOrder; simp only [e]
  split
  all_goals exact ⟨_, by simp; rfl, _, rfl⟩
/-- The ownership word, outcome and code of a return (Table 12-8). -/
theorem returnLine_fields (r : BedRun) (h : Hand) (o : Outcome) (c : Nat) (p : Nat × Nat) (k : Bool) (hc : c < 256) :
    fld (returnLine s r h o c p k).toNat 0 4 = RETURNED ∧ fld (returnLine s r h o c p k).toNat 0x20 1 = o.num ∧
    fld (returnLine s r h o c p k).toNat 0x21 1 = c ∧ fld (returnLine s r h o c p k).toNat 0x20 2 = o.num + 256 * c := by
  have ho : o.num < 256 := by cases o <;> decide
  simp only [returnLine, lineOf, fld, put, BitVec.toNat_ofNat, Nat.shiftLeft_eq, Nat.shiftRight_eq_div_pow, RETURNED]
  refine ⟨?_, ?_, ?_, ?_⟩ <;> omega
theorem returnOrder_owns {h : Hand} (o : Outcome) (c : Nat) (p : Option (Nat × Nat)) (k : Bool) (e : (runOf s b).hand = some h) :
    (returnOrder s b o c p k).locks.owns b = false := by
  unfold returnOrder; simp only [e]
  split <;> simp [giveUp_owns]

theorem returnsWith_returnOrder {h : Hand} (o : Outcome) (c : Nat) (p : Option (Nat × Nat)) (k : Bool) (t : BedState)
    (e : (runOf s b).hand = some h) (hc : c < 256) : returnsWith (enter (returnOrder s b o c p k) b t) b h o.num c := by
  obtain ⟨l, hq, q, hl⟩ := returnOrder_queue s b o c p k e
  have f := returnLine_fields s (runOf s b) h o c q k hc
  refine ⟨by simp [runOf_returnOrder _ _ _ _ _ _ e, afterReturn, BedRun.cleared], ?_⟩
  simp [hq, hl, f]
/-- A rejection leaves the bed WAITING with the order returned REJECTED (R48, R57). -/
theorem rejects_rejectOrder {h : Hand} {c : Nat} (e : (runOf s b).hand = some h) (hc : c < 256) :
    rejects (rejectOrder s b c) b h c := ⟨by simp [rejectOrder], returnsWith_returnOrder s b .rejected c none false .waiting e hc⟩
/-- Entry to FAULTED with an order in hand (R63). -/
theorem enterFaulted_hand {h : Hand} (o : Outcome) (c : Nat) (p : Option (Nat × Nat)) (e : (runOf s b).hand = some h)
    (hc : c < 256) : (runOf (enterFaulted s b o c p) b).state = .faulted ∧ returnsWith (enterFaulted s b o c p) b h o.num c ∧
      (runOf (enterFaulted s b o c p) b).permit = false ∧ (enterFaulted s b o c p).locks.owns b = false ∧
      (bedOf (enterFaulted s b o c p) b).lk.hold = false := by
  have hand : ∀ r : BedRun, (cutPass r).hand = r.hand := by intro r; unfold cutPass; split <;> rfl
  have key : ∃ s1 k, enterFaulted s b o c p = enter (setRun (returnOrder s1 b o c p k) b
      (emptyFifo (runOf (returnOrder s1 b o c p k) b))) b .faulted ∧
      (runOf s1 b).hand = some h ∧ (bedOf s1 b).lk.hold = false := by
    unfold enterFaulted
    simp only [e, Option.isSome_some, if_true]
    refine ⟨_, _, rfl, ?_, ?_⟩
    · simp only [runOf_setRun, hand, runOf_setLink]; split <;> simp [e]
    · simp
  obtain ⟨s1, k, hk, h1, h2⟩ := key
  obtain ⟨l, hq, q, hl⟩ := returnOrder_queue s1 b o c p k h1
  have f := returnLine_fields s1 (runOf s1 b) h o c q k hc
  rw [hk]
  refine ⟨by simp, ⟨?_, ?_⟩, ?_, ?_, ?_⟩
  · simp [runOf_returnOrder _ _ _ _ _ _ h1, afterReturn, BedRun.cleared, emptyFifo, dropFetch]
  · simp [hq, hl, f]
  · simp [runOf_returnOrder _ _ _ _ _ _ h1, afterReturn, BedRun.cleared, emptyFifo, dropFetch]
  · simp [returnOrder_owns _ _ _ _ _ _ h1]
  · simp [h2]
theorem enterFaulted_noHand (o : Outcome) (c : Nat) (p : Option (Nat × Nat)) (e : (runOf s b).hand = none) :
    (runOf (enterFaulted s b o c p) b).state = .faulted ∧ (runOf (enterFaulted s b o c p) b).hand = none ∧
      (runOf (enterFaulted s b o c p) b).permit = false ∧ (enterFaulted s b o c p).locks.owns b = false := by
  have hand : ∀ r : BedRun, (cutPass r).hand = r.hand := by intro r; unfold cutPass; split <;> rfl
  unfold enterFaulted
  simp only [e, Option.isSome_none, Bool.false_eq_true, if_false]
  refine ⟨by simp, ?_, ?_, ?_⟩
  · simp [emptyFifo, dropFetch, hand]; split <;> simp [e]
  · simp [emptyFifo, dropFetch]
  · simp [giveUp_owns]
/-- Faulting a bed (R63): FAULTED, its order returned, the detail flag set. -/
theorem faultBed_faulted {flag : Nat} (d : Nat) (hf : flag < 8) (hd : d < 256) : faulted (faultBed s b flag d) b flag := by
  have fl : hasBit ((faultBed s b flag d).faults.beds.get b).flags flag = true := by
    simp [faultBed, bedFlag, hf]
  cases e : (runOf s b).hand with
  | some h =>
    have := enterFaulted_hand (bedFlag s b flag) b .faultAbort d none (h := h) (by simpa using e) hd
    exact ⟨this.1, this.2.1.1, fl⟩
  | none =>
    have := enterFaulted_noHand (bedFlag s b flag) b .faultAbort d none (by simpa using e)
    exact ⟨this.1, this.2.1, fl⟩
theorem faultBed_returns {h : Hand} (flag : Nat) {d : Nat} (e : (runOf s b).hand = some h) (hd : d < 256) :
    returnsWith (faultBed s b flag d) b h 7 d :=
  (enterFaulted_hand (bedFlag s b flag) b .faultAbort d none (h := h) (by simpa using e) hd).2.1

end Sys2Proof.Machine
end

