-- ==== Sys2Proof/Laws/Images.lean ====
section
/-!
SUPPORT. Sys2Proof/Laws/Images.lean: records composed of fields: what each byte of one holds, and `pack` as such a record
(R217, R218); what a grant to the record engine sends; what the table scan marks changed (R203).
-/
namespace Sys2Proof.Machine

/-! ## What the record engine sends -/

/-- Addresses and images do not depend on the outputs of the taking. -/
@[simp] theorem recAddr_out (s : State) (o : List Output) (w : RecId) : recAddr { s with out := o } w = recAddr s w := by
  cases w <;> rfl
@[simp] theorem recLines_out (s : State) (o : List Output) (w : RecId) : recLines { s with out := o } w = recLines s w := by
  cases w <;> rfl
/-- What a grant to the record engine sends and keeps (R182, R194, R195). -/
theorem grantEngine_grants (s : State) (r : Req) :
    grantsEngine s (grantEngine s r) r s.out ∧
      (grantEngine s r).engine.queue = s.engine.queue.filter (·.ticket != r.ticket) := by
  unfold grantEngine grantsEngine
  cases h : r.what <;> simp [grantMsp, emit, setPath, setEngine]

/-! ## What the table scan marks -/

/-- The scan marks a record changed as R203 says. -/
theorem scanChanged_iff (l d : Line) (lost : Bool) : scanChanged l d lost = true ↔ marksChanged l d lost := by
  by_cases h : fld l.toNat 0 1 = 0 <;> simp [scanChanged, marksChanged, h, or_assoc]

/-! ## Fields put beside each other -/

/-- The fields of a record as one number. -/
def sumOf (fs : List (Nat × Nat × Nat)) : Nat := (fs.map fun f => put f.1 f.2.1 f.2.2).sum
/-- The fields stand in the order of their offsets from `o` on, apart from each other. -/
def laid : Nat → List (Nat × Nat × Nat) → Prop
  | _, [] => True
  | o, f :: fs => o ≤ f.1 ∧ laid (f.1 + f.2.1) fs
/-- The fields end by byte `n`. -/
def within (n : Nat) (fs : List (Nat × Nat × Nat)) : Prop := ∀ f ∈ fs, f.1 + f.2.1 ≤ n

@[simp] theorem sumOf_nil : sumOf [] = 0 := rfl
@[simp] theorem sumOf_cons (f : Nat × Nat × Nat) (fs : List (Nat × Nat × Nat)) : sumOf (f :: fs) = put f.1 f.2.1 f.2.2 + sumOf fs := by
  simp [sumOf]
@[simp] theorem sumOf_append (fs gs : List (Nat × Nat × Nat)) : sumOf (fs ++ gs) = sumOf fs + sumOf gs := by simp [sumOf]

theorem put_eq (o n v : Nat) : put o n v = 2 ^ (8 * o) * (v % 2 ^ (8 * n)) := by rw [put, Nat.shiftLeft_eq, Nat.mul_comm]
theorem fld_eq (x o n : Nat) : fld x o n = x / 2 ^ (8 * o) % 2 ^ (8 * n) := by rw [fld, Nat.shiftRight_eq_div_pow]
theorem put_lt (o n v : Nat) : put o n v < 2 ^ (8 * (o + n)) := by
  rw [put_eq, Nat.mul_add, Nat.pow_add]
  exact Nat.mul_lt_mul_of_pos_left (Nat.mod_lt _ (Nat.two_pow_pos _)) (Nat.two_pow_pos _)
theorem laid_weaken {o o' : Nat} {fs : List (Nat × Nat × Nat)} (h : laid o fs) (l : o' ≤ o) : laid o' fs := by
  cases fs with
  | nil => trivial
  | cons f fs => exact ⟨l.trans h.1, h.2⟩
theorem laid_le {o : Nat} {fs : List (Nat × Nat × Nat)} (h : laid o fs) : ∀ f ∈ fs, o ≤ f.1 := by
  induction fs generalizing o with
  | nil => simp
  | cons g fs ih =>
    intro f hf
    rcases List.mem_cons.1 hf with rfl | hf
    · exact h.1
    · exact (Nat.le_add_right_of_le h.1).trans (ih h.2 f hf)
/-- Fields from byte `o` on leave the bytes below 0. -/
theorem sumOf_dvd {o : Nat} {fs : List (Nat × Nat × Nat)} (h : laid o fs) : 2 ^ (8 * o) ∣ sumOf fs := by
  induction fs generalizing o with
  | nil => simp
  | cons f fs ih =>
    rw [sumOf_cons, put_eq]
    refine Nat.dvd_add (Nat.dvd_mul_right_of_dvd (Nat.pow_dvd_pow 2 ?_) _) (ih (laid_weaken h.2 ?_))
    · have := h.1; omega
    · have := h.1; omega
/-- Fields that end by byte `n` stay below it. -/
theorem sumOf_lt {o n : Nat} {fs : List (Nat × Nat × Nat)} (h : laid o fs) (w : within n fs) : sumOf fs < 2 ^ (8 * n) := by
  induction fs generalizing o with
  | nil => simp
  | cons f fs ih =>
    have hn : f.1 + f.2.1 ≤ n := w f (by simp)
    have ht := ih h.2 (fun g hg => w g (by simp [hg]))
    obtain ⟨q, hq⟩ := sumOf_dvd h.2
    have hp := put_lt f.1 f.2.1 f.2.2
    rw [sumOf_cons, hq]
    rw [hq, show 8 * n = 8 * (f.1 + f.2.1) + 8 * (n - (f.1 + f.2.1)) by omega, Nat.pow_add] at ht
    have hlt : q < 2 ^ (8 * (n - (f.1 + f.2.1))) := Nat.lt_of_mul_lt_mul_left ht
    calc put f.1 f.2.1 f.2.2 + 2 ^ (8 * (f.1 + f.2.1)) * q
        < 2 ^ (8 * (f.1 + f.2.1)) + 2 ^ (8 * (f.1 + f.2.1)) * q := by omega
      _ = 2 ^ (8 * (f.1 + f.2.1)) * (q + 1) := by rw [Nat.mul_succ, Nat.add_comm]
      _ ≤ 2 ^ (8 * (f.1 + f.2.1)) * 2 ^ (8 * (n - (f.1 + f.2.1))) := Nat.mul_le_mul_left _ hlt
      _ = 2 ^ (8 * n) := by rw [← Nat.pow_add]; congr 1; omega
/-- A number below byte `m` is not seen from byte `m` on. -/
theorem fld_add_high {x r m k : Nat} (n : Nat) (hx : x < 2 ^ (8 * m)) (hr : 2 ^ (8 * m) ∣ r) (hk : m ≤ k) :
    fld (x + r) k n = fld r k n := by
  obtain ⟨q, rfl⟩ := hr
  rw [fld_eq, fld_eq, show 8 * k = 8 * m + 8 * (k - m) by omega, Nat.pow_add, ← Nat.div_div_eq_div_mul, ← Nat.div_div_eq_div_mul,
    Nat.add_mul_div_left _ _ (Nat.two_pow_pos _), Nat.div_eq_of_lt hx, Nat.zero_add, Nat.mul_div_cancel_left _ (Nat.two_pow_pos _)]
/-- A number from byte `k + n` on is not seen below. -/
theorem fld_add_low {r k n : Nat} (x : Nat) (hr : 2 ^ (8 * (k + n)) ∣ r) : fld (x + r) k n = fld x k n := by
  obtain ⟨q, rfl⟩ := hr
  rw [fld_eq, fld_eq, show 8 * (k + n) = 8 * k + 8 * n by omega, Nat.pow_add, Nat.mul_assoc,
    Nat.add_mul_div_left _ _ (Nat.two_pow_pos _), Nat.add_mul_mod_self_left]
theorem fld_put (o n v : Nat) : fld (put o n v) o n = v % 2 ^ (8 * n) := by
  rw [fld_eq, put_eq, Nat.mul_div_cancel_left _ (Nat.two_pow_pos _), Nat.mod_mod]

/-- Each field of a record reads as it was put there (R217). -/
theorem fld_sumOf {o : Nat} {fs : List (Nat × Nat × Nat)} (h : laid o fs) :
    ∀ f ∈ fs, fld (sumOf fs) f.1 f.2.1 = f.2.2 % 2 ^ (8 * f.2.1) := by
  induction fs generalizing o with
  | nil => simp
  | cons g fs ih =>
    intro f hf
    rw [sumOf_cons]
    rcases List.mem_cons.1 hf with rfl | hf
    · rw [fld_add_low _ (sumOf_dvd h.2), fld_put]
    · rw [fld_add_high _ (put_lt _ _ _) (sumOf_dvd h.2) (laid_le h.2 f hf), ih h.2 f hf]
/-- A byte of no field reads 0 (R217). -/
theorem fld_sumOf_gap {o : Nat} {fs : List (Nat × Nat × Nat)} (h : laid o fs) (k : Nat)
    (hk : ∀ f ∈ fs, k < f.1 ∨ f.1 + f.2.1 ≤ k) : fld (sumOf fs) k 1 = 0 := by
  induction fs generalizing o with
  | nil => simp [fld_eq]
  | cons g fs ih =>
    rw [sumOf_cons]
    rcases hk g (by simp) with hg | hg
    · have hd : 2 ^ (8 * (k + 1)) ∣ put g.1 g.2.1 g.2.2 + sumOf fs := by
        have := sumOf_dvd (o := k + 1) (fs := g :: fs) ⟨by omega, h.2⟩
        rwa [sumOf_cons] at this
      have := fld_add_low (k := k) (n := 1) 0 hd
      rwa [Nat.zero_add, show fld 0 k 1 = 0 by simp [fld_eq]] at this
    · rw [fld_add_high 1 (put_lt _ _ _) (sumOf_dvd h.2) hg]
      exact ih h.2 fun f hf => hk f (by simp [hf])

/-! ## Lines -/

theorem lineOf_add_high (x y : Nat) : lineOf (x + 2 ^ 512 * y) = lineOf x := by
  apply BitVec.eq_of_toNat_eq
  rw [lineOf, lineOf, BitVec.toNat_ofNat, BitVec.toNat_ofNat, Nat.add_mul_mod_self_left]
theorem toNat_lineOf (x : Nat) : (lineOf x).toNat = x % 2 ^ 512 := BitVec.toNat_ofNat ..
/-- The lines of a number that fits in them hold the number. -/
theorem recordNat_linesOf (n : Nat) : ∀ x, x < 2 ^ (512 * n) → recordNat (linesOf n x) = x := by
  induction n with
  | zero => intro x h; have := Nat.lt_one_iff.1 h; subst this; rfl
  | succ n ih =>
    intro x h
    have e : linesOf (n + 1) x = lineOf x :: linesOf n (x / 2 ^ 512) := by
      simp only [linesOf, List.range_succ_eq_map, List.map_cons, List.map_map, Nat.mul_zero, Nat.shiftRight_zero]
      congr 1
      apply List.map_congr_left
      intro k _
      simp [Nat.shiftRight_eq_div_pow, Nat.div_div_eq_div_mul, ← Nat.pow_add, Nat.mul_succ, Nat.add_comm]
    have hq : x / 2 ^ 512 < 2 ^ (512 * n) := by
      rw [Nat.div_lt_iff_lt_mul (Nat.two_pow_pos _), ← Nat.pow_add]
      exact h
    rw [e, recordNat, List.foldr_cons, ← recordNat, ih _ hq, toNat_lineOf]
    exact Nat.mod_add_div x (2 ^ 512)
/-- `n` lines of fields laid apart within them are composed of those fields. -/
theorem composedOf_sumOf {n : Nat} {fs : List (Nat × Nat × Nat)} (h : laid 0 fs) (w : within (64 * n) fs) :
    composedOf (linesOf n (sumOf fs)) n fs := by
  have e : recordNat (linesOf n (sumOf fs)) = sumOf fs :=
    recordNat_linesOf n _ (by have := sumOf_lt h w; rwa [show 8 * (64 * n) = 512 * n by omega] at this)
  exact ⟨by simp [linesOf], by rw [e]; exact fld_sumOf h, by rw [e]; exact fld_sumOf_gap h⟩

/-! ## Packed fields (R218) -/

/-- A packed set of beds has the bit of each member (R217). -/
theorem bedSet_eq (l : List BedId) : bedSet l = .u8 (bedBits l) := by
  simp only [bedSet, bedBits, bedIds, List.filter, List.map_cons, List.map_nil]
  cases l.contains .b0 <;> cases l.contains .b1 <;> cases l.contains .b2 <;> cases l.contains .b3 <;> rfl

/-- Where `pack` puts each field. -/
def layout : Nat → List Item → List (Nat × Nat × Nat)
  | _, [] => []
  | o, .u8 n :: l => (o, 1, n) :: layout (o + 1) l
  | o, .u16 n :: l => (o, 2, n) :: layout (o + 2) l
  | o, .u32 n :: l => ((o + 3) / 4 * 4, 4, n) :: layout ((o + 3) / 4 * 4 + 4) l
theorem pack_eq (l : List Item) : ∀ o, pack o l = sumOf (layout o l) := by
  induction l with
  | nil => intro o; rfl
  | cons i l ih => intro o; cases i <;> simp [pack, layout, ih]
theorem laid_layout (l : List Item) : ∀ o, laid o (layout o l) := by
  induction l with
  | nil => intro o; trivial
  | cons i l ih =>
    intro o
    cases i
    · exact ⟨Nat.le_refl _, ih _⟩
    · exact ⟨Nat.le_refl _, ih _⟩
    · exact ⟨by dsimp only; omega, ih _⟩
/-- A record packed within its lines is composed of the fields of its layout. -/
theorem composedOf_pack {n : Nat} {l : List Item} (w : within (64 * n) (layout 0 l)) :
    composedOf (linesOf n (pack 0 l)) n (layout 0 l) := by
  rw [pack_eq]; exact composedOf_sumOf (laid_layout l 0) w
/-- A run of words lies word beside word. -/
theorem layout_words (l : List Word) : ∀ j,
    layout (4 * j) (l.map fun w => Item.u32 w.toNat) = (l.zipIdx j).map fun w => (4 * w.2, 4, w.1.toNat) := by
  induction l with
  | nil => intro j; rfl
  | cons w l ih =>
    intro j
    have e : (4 * j + 3) / 4 * 4 = 4 * j := by omega
    simp only [List.map_cons, layout, e, List.zipIdx_cons]
    rw [show 4 * j + 4 = 4 * (j + 1) by omega, ih]
/-- Violation records lie 12 bytes apart from byte 8 on. -/
theorem layout_violations (l : List Violation) : ∀ j,
    layout (8 + 12 * j) (l.flatMap fun v => [.u32 v.addr.toNat, .u8 v.cause.num, .u32 v.time.toNat]) =
      (l.zipIdx j).flatMap fun v =>
        [(8 + 12 * v.2, 4, v.1.addr.toNat), (12 + 12 * v.2, 1, v.1.cause.num), (16 + 12 * v.2, 4, v.1.time.toNat)] := by
  induction l with
  | nil => intro j; rfl
  | cons v l ih =>
    intro j
    have e1 : (8 + 12 * j + 3) / 4 * 4 = 8 + 12 * j := by omega
    have e2 : (12 + 12 * j + 1 + 3) / 4 * 4 = 16 + 12 * j := by omega
    simp only [List.flatMap_cons, List.cons_append, List.nil_append, layout, e1, List.zipIdx_cons]
    rw [show 8 + 12 * j + 4 = 12 + 12 * j by omega, e2, show 16 + 12 * j + 4 = 8 + 12 * (j + 1) by omega, ih]

/-! ## Outlines (Table 12-10) -/

/-- The second line of a plate record of these vertices. -/
def outlineNat (l : List (Nat × Nat)) : Nat := l.foldr (fun v acc => put 0 2 v.1 + put 2 2 v.2 + put 4 60 acc) 0
/-- The fields of vertices from byte H'40 on, the first of number `j`. -/
def vertexFields (l : List (Nat × Nat)) (j : Nat) : List (Nat × Nat × Nat) :=
  (l.zipIdx j).flatMap fun v => [(0x40 + 4 * v.2, 2, v.1.1), (0x42 + 4 * v.2, 2, v.1.2)]
theorem vertexFields_cons (v : Nat × Nat) (l : List (Nat × Nat)) (j : Nat) :
    vertexFields (v :: l) j = (0x40 + 4 * j, 2, v.1) :: (0x42 + 4 * j, 2, v.2) :: vertexFields l (j + 1) := rfl
theorem laid_vertexFields (l : List (Nat × Nat)) : ∀ j, laid (0x40 + 4 * j) (vertexFields l j) := by
  induction l with
  | nil => intro j; trivial
  | cons v l ih =>
    intro j
    rw [vertexFields_cons]
    exact ⟨Nat.le_refl _, by dsimp only; omega, laid_weaken (ih (j + 1)) (by dsimp only; omega)⟩
theorem within_vertexFields (l : List (Nat × Nat)) : ∀ j, within (0x40 + 4 * (j + l.length)) (vertexFields l j) := by
  induction l with
  | nil => intro j f hf; cases hf
  | cons v l ih =>
    intro j f hf
    rw [vertexFields_cons] at hf
    simp only [List.mem_cons, List.length_cons] at *
    rcases hf with rfl | rfl | hf
    · dsimp only; omega
    · dsimp only; omega
    · have := ih (j + 1) f hf
      omega
/-- The outline of up to 15 vertices holds each at its place. -/
theorem sumOf_vertexFields (l : List (Nat × Nat)) : l.length ≤ 15 → ∀ j,
    sumOf (vertexFields l j) = 2 ^ (512 + 32 * j) * outlineNat l ∧ outlineNat l < 2 ^ (32 * l.length) := by
  induction l with
  | nil => intro _ j; exact ⟨rfl, Nat.one_pos⟩
  | cons v l ih =>
    intro h j
    have hl : l.length + 1 ≤ 15 := h
    obtain ⟨he, hlt⟩ := ih (by omega) (j + 1)
    have hs : outlineNat l < 2 ^ (8 * 60) := Nat.lt_of_lt_of_le hlt (Nat.pow_le_pow_right (by decide) (by omega))
    have hc : outlineNat (v :: l) = v.1 % 2 ^ 16 + 2 ^ 16 * (v.2 % 2 ^ 16) + 2 ^ 32 * outlineNat l := by
      change put 0 2 v.1 + put 2 2 v.2 + put 4 60 (outlineNat l) = _
      rw [put_eq, put_eq, put_eq, Nat.mod_eq_of_lt hs]
      simp
    refine ⟨?_, ?_⟩
    · rw [vertexFields_cons, sumOf_cons, sumOf_cons, he, hc, put_eq, put_eq,
        show 8 * (0x40 + 4 * j) = 512 + 32 * j by omega, show 8 * (0x42 + 4 * j) = 512 + 32 * j + 16 by omega,
        show 512 + 32 * (j + 1) = 512 + 32 * j + 32 by omega, Nat.pow_add 2 (512 + 32 * j) 16, Nat.pow_add 2 (512 + 32 * j) 32]
      simp only [Nat.mul_add, Nat.mul_assoc, Nat.add_assoc]
    · rw [hc, List.length_cons, Nat.mul_succ, Nat.pow_add]
      have h1 := Nat.mod_lt v.1 (Nat.two_pow_pos 16)
      have h2 := Nat.mod_lt v.2 (Nat.two_pow_pos 16)
      generalize 2 ^ (32 * l.length) = m at *
      omega

end Sys2Proof.Machine
end

