-- ==== Sys2Proof/WellFormed.lean ====
section
/-!
DEFINITION. Sys2Proof/WellFormed.lean: which commands can arrive: the ranges the rules give their operands.
A transaction of any form may be offered at the SSP (R181 answers a malformed one).
-/
namespace Sys2Proof

/-- A move ID of the crane link: 1 to 255 (R140). -/
def wfMove (id : Byte) : Bool := id != 0

/-- A record that can carry a read bracket (R191), plate records of an index below the greatest capacity. -/
def wfBracket : RecId → Bool
  | .plate i => i < 1024
  | .hall | .bed _ | .crane | .fault | .violations | .stats => true
  | .scan _ | .verdict => false

/-- Operand ranges: gantry fault cause 1..255 (R86), move IDs, bracket records, plate record indices (R1). -/
def Instr.wf : Instr → Bool
  | .gantryFault _ cause => cause != 0
  | .craneAccept id | .craneRefuse id | .craneArrived id | .craneSet id | .craneDropped id | .craneReturning id => wfMove id
  | .craneLifted id _ => wfMove id
  | .bracketExpiry r => wfBracket r
  | .holdExpiry i => i < 1024
  | _ => true

end Sys2Proof
end

