-- ==== Sys2Proof/Tests/Slice0.lean ====
section
/-!
SUPPORT. Sys2Proof/Tests/Slice0.lean: the smoke test of WellFormed, small tests of one command each, and for every statement of
Certificates/Slice0/Obligations.lean with hypotheses a state and operands that meet them, clause by clause.
-/
namespace Sys2Proof.Tests
open Sys2Proof.Machine

-- One theorem at a time: each waits for the kernel, and a waiting theorem holds a thread.
set_option Elab.async false

/-! ## WellFormed: an ill-formed command for each check -/

theorem test_wf_gantryFault : (Instr.gantryFault .b0 0).wf = false ∧ (Instr.gantryFault .b0 255).wf = true := by decide
theorem test_wf_moveIds :
    ((craneMessages 0 5 .drive).filter (fun c => match c with | .craneFault _ _ => false | _ => true)).all (!·.wf) = true ∧
    (craneMessages 255 5 .drive).all (·.wf) = true ∧ (Instr.craneFault 0 .drive).wf = true := by decide
theorem test_wf_bracketExpiry :
    (Instr.bracketExpiry (.scan 0)).wf = false ∧ (Instr.bracketExpiry .verdict).wf = false ∧
    (Instr.bracketExpiry (.plate 1024)).wf = false ∧ (Instr.bracketExpiry (.plate 1023)).wf = true := by decide
theorem test_wf_holdExpiry : (Instr.holdExpiry 1024).wf = false ∧ (Instr.holdExpiry 1023).wf = true := by decide

/-! ## Small states -/

def bedEntry (base : Nat) : BedCfg :=
  { present := true, full := true, count := 4, base := base, len := 12000, wid := 4000, thick := 500, arcHigh := 150,
    arcLow := 60, arcN := 2 }
def anchor : Anchor :=
  { memMiB := 16, control := 0x1000, table := 0x4000, capacity := 64, craneBase := 0x3000, craneCount := 4,
    beds := ⟨bedEntry 0x6000, bedEntry 0x6100, bedEntry 0x6200, .absent⟩, permits := 1, rated := 20000, tolerance := 10,
    aging := 3, classS := ⟨2000, 1000, 2⟩, classM := ⟨6000, 2000, 2⟩, classL := ⟨12000, 4000, 2⟩, holdMin := 10, watch := 2,
    dropDone := false, alternate := false, retries := 1 }
/-- A plate in stock in slot 2, a skeleton on bed B0, a lost plate, an EMPTY record. -/
def plate : Plate :=
  { Plate.blank with st := .stock, loc := .rack 2, id := 101, thickness := 100, length := 5000, width := 1500, heatLen := 1,
                     heat := 0x41, mass := 1000, grade := 0x3131313131313131 }
def plates : List Plate :=
  [plate, { plate with st := .skeleton, loc := .bed .b0, id := 102 }, { plate with st := .lost, id := 103 }, .blank]
def s0 : State := { State.reset with
  path := { State.reset.path with memReady := true }
  loader := { State.reset.loader with inForce := some anchor }
  cmd := { State.reset.cmd with mode := .run }
  arb := { State.reset.arb with pool := some 1 }
  stock := { State.reset.stock with table := plates } }
def inMode (s : State) (m : Mode) : State := setCmd s { s.cmd with mode := m }
def at_ (s : State) (t : Word) : State := { s with clock := t }
def withPlate (s : State) (i : Nat) (f : Plate → Plate) : State :=
  setStock s { s.stock with table := s.stock.table.set i (f (plateAt s i)) }
def live (s : State) (b : BedId) : State := setLink s b { (bedOf s b).lk with live := true }
def run (s : State) (b : BedId) (f : BedRun → BedRun) : State := setRun s b (f (runOf s b))
/-- The answer of the MSP to a request of the record engine is due. -/
def due_ (s : State) (what : ReqOf) : State :=
  setPath (setEngine s { s.engine with cur := some ⟨⟨0, what, 0x6000, 0, 0, false⟩, [], 0, false⟩ }) { s.path with msp := some .engine }
def req (what : ReqOf) : Req := ⟨0, what, 0x6000, 0, 0, false⟩
/-- The answer of the MSP to a host transaction is due. -/
def dueHost (s : State) (t : Transaction) : State := setPath s { s.path with fwd := some ⟨t, true⟩, msp := some .host }
/-- The slot read of a command is due. -/
def command (s : State) (code target : Nat) : State :=
  setCmd (due_ s .slotRead) { s.cmd with current := some ⟨BitVec.ofNat 16 code, byte target, 7, .reading⟩ }
/-- A command slot with parameter fields given by offset, size and value. -/
def slot (fs : List (Nat × Nat × Nat)) : Line := lineOf ((fs.map fun f => put (0x10 + f.1) f.2.1 f.2.2).sum)
def line (fs : List (Nat × Nat × Nat)) : Line := lineOf ((fs.map fun f => put f.1 f.2.1 f.2.2).sum)
def order : Line := line [(0xC, 2, 101), (0x10, 2, 4), (0x12, 1, 1), (0x14, 4, 0x8000), (0x18, 4, 0x9000), (0x1C, 4, 0xA000)]
def hand : Hand :=
  { addr := 0x6000, idx := 0, order := order, look := some ⟨0, 100, 5000, 1500, false⟩, desc := none, claimed := true,
    remnant := .none, remRec := 0, remDest := .none, burnStart := some 0, burnEnd := none, unloading := false }
/-- B0 LIVE in a state, with an order in hand. -/
def bed (t : BedState) : State := run (live s0 .b0) .b0 fun r => { r with state := t, hand := some hand }
def stepAt (kind : Nat) (seq : Byte) : Entry := ⟨0, 0, ⟨kind, 0, none, 0, 0, 0, 0, 100, 0⟩, seq, false⟩
def stream (s : State) (f : Stream → Stream) : State := run s .b0 fun r => { r with stream := f r.stream }
def marks (s : State) (f : Marks → Marks) : State := run s .b0 fun r => { r with marks := f r.marks }
def fetching (s : State) (u : FetchFor) : State :=
  setPath (run s .b0 fun r => { r with fetch := some ⟨u, 0x8000, true, false⟩ }) { s.path with msp := some (.fetch .b0) }
def write (addr beats : Nat) (data : Line) : Transaction := writeOf addr beats (enable 0 (8 * beats)) data
def move : Move :=
  { id := 5, kind := .move, req := .host 1, live := true, ix := 0, plate := 101, src := .rack 2, dst := .overflow,
    expected := some 1000, measured := none, abort := false, turned := false, massBad := false, confirmed := false,
    lifted := false, zones := [], reserves := true, phase := none }
def crane (t : CraneState) (m : Move) : State :=
  setCrane s0 { s0.crane with state := t, move := some m, lk := ⟨true, 0, .absent, true⟩ }
def orderAt (i : Nat) (g : OrderStage) : StockOrder := ⟨i, 0x3000 + 32 * i, 0, 0, .overflow, 0, g⟩
def holding (s : State) (os : List StockOrder) : State := setCrane s { s.crane with stock := os }
def after (o : Host.Outcome State Fault Refusal) : State := match o with | .next s => s | _ => s0

def allRacks : List SlotRes := (List.range 6).map fun k => ⟨k, 300 + k, .host 1⟩

/-! ## One command each -/

theorem test_step_empty : step s0 = .next { s0 with clock := 1, out := [] } := rfl
theorem test_step_front : step { s0 with pending := [.gantryAlive .b1] } = exec (.gantryAlive .b1) s0 := rfl
theorem test_hallHold : (after (exec (.hallHold 0) (command s0 0x11 0xFF))).cmd.mode = .hold := by decide +kernel
theorem test_hallHalt_idleHall : (after (exec (.hallHalt 0) (command s0 0x12 0xFF))).cmd.mode = .halt := by decide +kernel
theorem test_bedStart : (runOf (after (exec (.bedStart 0) (command (live s0 .b0) 0x20 0))) .b0).state = .waiting := by
  decide +kernel
theorem test_bedStart_noLink :
    ((after (exec (.bedStart 0) (command s0 0x20 0))).engine.queue.getLast?.map fun r => fld r.data.toNat 7 1) = some 3 := by
  decide +kernel
theorem test_register :
    ((after (exec (.plateRegister (slot [(0, 2, 104), (2, 2, 30), (4, 2, 1), (6, 2, 1), (8, 4, 1), (0x10, 8, 0x3131313131313131)]))
      (command s0 0x40 0xFF))).stock.table.map (fun p => (p.id, p.loc)))[3]? = some (104, .infeed 1) := by decide +kernel
theorem test_find_token :
    ((after (exec (.remnantFind (slot [(0, 2, 100), (2, 2, 10), (4, 2, 10), (8, 8, 0x3131313131313131)]))
      (command s0 0x43 0xFF))).stock.table.map (·.claim)).head? = some (.hold 1 (s0.clock + holdMs s0)) := by decide +kernel
theorem test_trigger :
    (after (exec .commandTrigger (dueHost s0 (write 0x1000 2 (line [(0, 2, 0x11), (2, 1, 0xFF), (4, 4, 9)]))))).cmd.current =
      some ⟨0x11, 0xFF, 9, .reading⟩ := by decide +kernel
theorem test_violation :
    (after (exec .hostClassify (setPath s0 { s0.path with ssp := [write 0x4000 1 0] }))).path.log =
      [⟨0x4000, .table, 0⟩] := by decide +kernel
theorem test_take :
    (runOf (after (exec .burnRingIssuedWrite (dueHost (run s0 .b0 fun r => { r with state := .waiting })
      (write 0x6000 1 (line [(0, 4, 1)]))))) .b0).state = .accepting := by decide +kernel
theorem test_stepDone_end :
    (runOf (after (exec (.gantryStepDone .b0 3) (stream (bed .burning) fun t => { t with window := [stepAt kEND 3] }))) .b0).state =
      .unloading := by decide +kernel
theorem test_arcHigh :
    hasBit (runOf (after (exec (.gantryArc .b0 151) (run (stream (bed .burning) fun t => { t with window := [stepAt kLINE 3] }) .b0
      fun r => { r with arc := ⟨1, 0⟩ }))) .b0).pause pARC = true := by decide +kernel
theorem test_lifted :
    (plateAt (after (exec (.craneLifted 5 1000) (crane .lifting move))) 0).loc = .crane := by decide +kernel
theorem test_lifted_heavy :
    (after (exec (.craneLifted 5 1101) (crane .lifting move))).crane.state = .returning := by decide +kernel
theorem test_dispatch :
    (after (exec (.craneReady false) (setCrane s0 { s0.crane with stock := [{ orderAt 1 .queued with order := BitVec.ofNat 256 (put 0xC 2 101) }] }
      |> fun s => setStock s { s.stock with overRes := [⟨101, .host 1⟩] }))).crane.state = .dispatched := by decide +kernel
theorem test_memoryReady : (after (exec .memoryReady State.reset)).engine.queue.map (·.what) = [.anchorLine 0] := by decide +kernel
theorem test_pierceTimeout :
    hasBit ((after (exec (.pierceTimeout .b0) (at_ (run (bed .burning) .b0 fun r => { r with pierce := some ⟨0, 3⟩ }) 8000))).faults.beds.get
      .b0).flags fPIERCE_FAIL = true := by decide +kernel
theorem test_pierceTimeout_early :
    runOf (after (exec (.pierceTimeout .b0) (at_ (run (bed .burning) .b0 fun r => { r with pierce := some ⟨0, 3⟩ }) 7999))) .b0 =
      runOf (run (bed .burning) .b0 fun r => { r with pierce := some ⟨0, 3⟩ }) .b0 := by decide +kernel

/-! ## The hypotheses of the statements are met

One theorem per statement with hypotheses; a conjunct per clause, at a boundary value where a range stands in the clause. -/

theorem test_met_StepTakesFront : s0.pending = [] := rfl

theorem test_met_HardResetAndMemoryReady : State.reset.path.memReady = false ∧ s0.path.memReady = true := by decide

def full8 (s : State) : State := setPath s { s.path with ssp := List.replicate 8 (write 0 1 0) }
theorem test_met_SspOffer :
    (let t : Nat → Nat → Transaction := fun a n => readOf a n
     ((t 0 0).beats = 0 ∧ 8 < (t 0 9).beats ∧ 64 < (t 8 8).addr.toNat % 64 + 8 * (t 8 8).beats) ∧
     ((t 0 8).addr.toNat % 64 + 8 * (t 0 8).beats ≤ 64 ∧ (t 0 8).beats ≤ 8 ∧ (t 0 8).write = false)) ∧
    (let w := writeOf 0 8 0 0
     w.write = true ∧ ∀ k, k < 8 * w.beats → w.enables.getLsbD k = false) ∧
    (∃ k, k < 8 * (write 0 1 0).beats ∧ (write 0 1 0).enables.getLsbD k = true) ∧
    (setPath s0 { s0.path with ssp := List.replicate 7 (write 0 1 0) }).path.ssp.length < 8 ∧ 8 ≤ (full8 s0).path.ssp.length := by
  refine ⟨by decide +kernel, by decide +kernel, ⟨7, by decide +kernel⟩, by decide +kernel, by decide +kernel⟩

def offered (s : State) (t : Transaction) : State := setPath s { s.path with ssp := [t] }
theorem test_met_Classification :
    (mustRetry (offered State.reset (readOf 0 1)) (readOf 0 1) = true) ∧
    (let s := offered s0 (write 0x4000 1 0)
     mustRetry s (write 0x4000 1 0) = false ∧ protectedCause s (write 0x4000 1 0) = some .table) ∧
    (let s := offered s0 (write 0x8000 1 0)
     mustRetry s (write 0x8000 1 0) = false ∧ protectedCause s (write 0x8000 1 0) = none) ∧
    (mustRetry (offered s0 (readOf 0x4000 1)) (readOf 0x4000 1) = false) ∧ (offered s0 (readOf 0x4000 1)).path.fwd = none ∧
    (recordAt s0 (readOf 0x4000 1)).map (fun x => (x.1, x.2.1)) = some (.plate 0, 0) ∧
    (∀ r n, recordAt s0 (readOf 0x8000 1) ≠ some (r, 0, n)) ∧
    (∀ n ∈ [3, 4], let p := { s0.path with brackets := List.replicate n ⟨.hall, 0⟩ }
      bracketOpen p (.plate 0) = false ∧ bracketOpen p .hall = true ∧ p.brackets.length = n) := by
  have h : recordAt s0 (readOf 0x8000 1) = none := by decide +kernel
  and_intros <;> first | decide +kernel | simp [h]

def queueing (s : State) (what : ReqOf) : State := setEngine s { s.engine with queue := [req what] }
def forwards (s : State) (t : Transaction) : State := setPath s { s.path with fwd := some ⟨t, false⟩ }
def alternating : State := setLoader s0 { s0.loader with inForce := some { anchor with alternate := true } }
theorem test_met_MspGrant :
    s0.path.memReady = true ∧ s0.path.msp = none ∧
    (let c : Current := ⟨req (.writeBack .hall), [0], 0x1100, false⟩
     (setEngine s0 { s0.engine with cur := some c }).engine.cur = some c ∧ c.lines = 0 :: []) ∧
    (let s := run (bed .burning) .b0 fun r => { r with fetch := some ⟨.stream, 0x8000, false, false⟩ }
     s.engine.cur = none ∧ (bedsAfter s.path.lastUrgent).find? (fetchUrgent s) = some .b0 ∧
       (runOf s .b0).fetch = some ⟨.stream, 0x8000, false, false⟩) ∧
    (let s := forwards s0 (readOf 0x8000 1)
     s.engine.cur = none ∧ (bedsAfter s.path.lastUrgent).find? (fetchUrgent s) = none ∧
       s.path.fwd = some ⟨readOf 0x8000 1, false⟩ ∧ engineWaits s = false) ∧
    (let s := forwards (queueing s0 .slotRead) (write 0x8000 1 0)
     s.path.fwd = some ⟨write 0x8000 1 0, false⟩ ∧ protectedCause s (write 0x8000 1 0) = none ∧
       param s (·.alternate) false = false ∧ engineWaits s = true) ∧
    (let s := forwards (queueing alternating .slotRead) (readOf 0x8000 1)
     param s (·.alternate) false = true ∧ s.path.lastSide = .engine) ∧
    (∀ w ∈ [ReqOf.slotRead, .writeBack .hall], enginePresents (queueing s0 w) = some (req w) ∧ (queueing s0 w).engine.cur = none ∧
      (bedsAfter (queueing s0 w).path.lastUrgent).find? (fetchUrgent (queueing s0 w)) = none ∧ (queueing s0 w).path.fwd = none) ∧
    (let s := forwards (queueing alternating .slotRead) (readOf 0x8000 1)
     let s := setPath s { s.path with lastSide := .host }
     enginePresents s = some (req .slotRead) ∧ s.path.fwd = some ⟨readOf 0x8000 1, false⟩ ∧
       param s (·.alternate) false = true ∧ s.path.lastSide = .host) ∧
    (let s := run (bed .burning) .b0 fun r =>
       { r with fetch := some ⟨.stream, 0x8000, false, false⟩, stream := { r.stream with fifo := List.replicate 8 0 } }
     enginePresents s = none ∧ (bedsAfter s.path.lastUrgent).find? (fetchUrgent s) = none ∧
       (bedsAfter s.path.lastFetch).find? (fetchWaits s) = some .b0 ∧ s.path.fwd = none) ∧
    (∀ w ∈ [ReqOf.slotRead, .writeBack .fault], let s := forwards (queueing s0 w) (write 0x4000 1 0)
     s.path.fwd = some ⟨write 0x4000 1 0, false⟩ ∧ protectedCause s (write 0x4000 1 0) = some .table ∧
       enginePresents s = some (req w) ∧ param s (·.alternate) false = false) := by
  decide +kernel

def inVerification (s : State) : State := setLoader s { s.loader with ver := some ⟨.anchor, [], none, none, [], [], 0, none⟩ }
def bracketed : State := setPath s0 { s0.path with brackets := [⟨.plate 0, 0⟩] }
theorem test_met_HostAnswersAndBrackets :
    (let t := write 0x8000 1 0
     let s := dueHost s0 t
     hostHas s t ∧ t.write = true ∧ snooped s t = false ∧ isTrigger s t = false) ∧
    (let t := write 0x1000 2 0
     let s := dueHost (command s0 0x11 0xFF) t
     hostHas s t ∧ t.write = true ∧ snooped s t = false ∧ isTrigger s t = true) ∧
    (let t := write 0x1000 2 0
     let s := inMode (dueHost (inVerification s0) t) .halt
     hostHas s t ∧ snooped s t = false ∧ isTrigger s t = true ∧ s.cmd.current = none) ∧
    (let t := readOf 0x4000 8
     let s := dueHost bracketed t
     hostHas s t ∧ t.write = false ∧ closes s t = none) ∧
    (let t := readOf 0x4040 8
     let s := dueHost bracketed t
     hostHas s t ∧ t.write = false ∧ closes s t = some (.plate 0)) ∧
    bracketOpen bracketed.path (.plate 0) = true := by
  decide +kernel

theorem test_met_Acknowledge :
    let t := write 0x1040 1 (line [(0, 4, 0xFF)])
    let s := dueHost s0 t
    hostHas s t ∧ t.write = true ∧ isAck s t = true := by
  decide +kernel

theorem test_met_TriggerAndCommit :
    (let t := write 0x1000 2 0
     let s := dueHost s0 t
     hostHas s t ∧ t.write = true ∧ isTrigger s t = true ∧ s.cmd.current = none ∧ s.loader.ver = none) ∧
    (let t := write 8 1 0
     let s := inMode (dueHost s0 t) .halt
     hostHas s t ∧ t.write = true ∧ isCommit s t = true ∧ s.cmd.current = none) ∧
    (let t := write 8 1 0
     let s := dueHost (inMode (command s0 0x11 0xFF) .halt) t
     hostHas s t ∧ isCommit s t = true ∧ s.cmd.current.isSome = true) := by
  decide +kernel

theorem test_met_RingTakes :
    (let t := write 0x6000 1 (line [(0, 4, 1)])
     let s := dueHost (run s0 .b0 fun r => { r with state := .waiting }) t
     hostHas s t ∧ t.write = true ∧ burnIssued s t = some (.b0, 0) ∧ (runOf s .b0).state = .waiting ∧ (runOf s .b0).ret = none ∧
       (bedOf s .b0).ring.pos = 0) ∧
    (let t := write 0x60C0 1 (line [(0, 4, 1)])
     let s := dueHost (run s0 .b0 fun r => { r with state := .waiting }) t
     hostHas s t ∧ burnIssued s t = some (.b0, 3) ∧ (bedOf s .b0).ring.pos ≠ 3) ∧
    (let t := write 0x6000 1 (line [(0, 4, 1)])
     burnIssued (dueHost s0 t) t = some (.b0, 0) ∧ (runOf (dueHost s0 t) .b0).state ≠ .waiting) ∧
    (let t := write 0x3000 1 (line [(0, 4, 1)])
     let s := dueHost (holding s0 ((List.range 7).map fun k => orderAt (k + 4) .queued)) t
     hostHas s t ∧ t.write = true ∧ craneIssued s t = [0] ∧ mayTake s = true ∧ s.crane.ringPos = 0) ∧
    (let t := write 0x3000 1 (line [(0, 4, 1)])
     let s := dueHost (holding s0 ((List.range 8).map fun k => orderAt (k + 4) .queued)) t
     craneIssued s t = [0] ∧ mayTake s = false) ∧
    (let t := write 0x3060 1 (line [(0, 4, 1)])
     craneIssued (dueHost s0 t) t = [3] ∧ (dueHost s0 t).crane.ringPos ≠ 3) := by
  decide +kernel

theorem test_met_CommandTurnedAway :
    slotReadFor (command s0 0x10 0xFF) (fun _ => true) = true ∧
    slotReadFor (command s0 0x17 0xFF) (fun c => !commandCodes.contains c) = true ∧
    (∀ p ∈ oneRowCommands 0 ++ optionCommands 0, ∀ m ∈ [Mode.halting, .resetting],
      slotReadFor (inMode (command s0 p.2 0xFF) m) (· == p.2) = true) ∧
    (∀ p ∈ untargetedCommands 0, ∀ n ∈ [0, 0xFE], commandDue (command s0 p.2 n) p.2 n) := by
  decide +kernel

/-- A command without target is due in each of the modes that take commands. -/
theorem test_met_hallCommands :
    ∀ c ∈ [0x10, 0x11, 0x12, 0x13], ∀ m ∈ [Mode.halt, .run, .hold],
      commandDue (inMode (command s0 c 0xFF) m) c 0xFF ∧ (inMode (command s0 c 0xFF) m).cmd.mode = m ∧
        parZeroBut (slot []) [] = true := by
  decide +kernel
/-- A hall command with a target, or with a parameter not 0. -/
theorem test_met_hallCommands_param :
    (∀ p ∈ hallCommands (slot [(47, 1, 1)]), commandDue (command s0 p.2 0xFF) p.2 0xFF) ∧ parZeroBut (slot [(47, 1, 1)]) [] = false ∧
    (∀ p ∈ hallCommands (slot []), commandDue (command s0 p.2 0) p.2 0) := by
  decide +kernel

theorem test_met_HallResetBeds :
    (let s := live (command s0 0x13 0xFF) .b0
     present s .b0 = true ∧ isLive s .b0 = true ∧ present s .b1 = true ∧ isLive s .b1 = false) ∧
    (let s := inMode (command (bed .burning) 0x11 0xFF) .run
     activeState (runOf s .b0).state = true ∧ activeState (runOf s .b1).state = false) ∧
    (let s := command (crane .travelling move) 0x13 0xFF
     s.crane.lk.live = true ∧ s.crane.move.isSome = true ∧ s.crane.state ≠ .faulted) := by
  decide +kernel

def staged (s : State) (g : CmdStage) : State := setCmd s { s.cmd with current := some ⟨0, 0xFF, 0, g⟩ }
/-- The commands that wait for an end of their own, before it and at it. -/
theorem test_met_completions :
    stageOf (staged s0 (.hold 2)) = .hold 2 ∧ (staged s0 (.hold 2)).cmd.torch = [] ∧
    (setCmd s0 { s0.cmd with torch := [.b0] }).cmd.torch ≠ [] ∧ (inMode s0 .hold).cmd.mode = .hold ∧
    (let s := inMode s0 .halting
     bedIdle s .b0 = true ∧ bedIdle s .b1 = true ∧ bedIdle s .b2 = true ∧ bedIdle s .b3 = true ∧ craneIdle s = true ∧
       s.arb.grants = []) ∧
    bedIdle (inMode (bed .burning) .halting) .b0 = false ∧ craneIdle (inMode (crane .lifting move) .halting) = false ∧
    (let s := setCrane (inMode s0 .resetting) { s0.crane with resetEnded := true }
     let s := { s with beds := .const (({ Bed.reset with run := { BedRun.reset with resetEnd := some .other } } : Bed)) }
     bedReset s .b0 = true ∧ bedReset s .b1 = true ∧ bedReset s .b2 = true ∧ bedReset s .b3 = true ∧ s.crane.resetEnded = true ∧
       s.arb.grants = []) ∧
    bedReset (inMode s0 .resetting) .b0 = false ∧ (inMode s0 .resetting).crane.resetEnded = false ∧
    (∀ t ∈ [BedState.stopped, .stopping], let s := staged (bed t) (.stopping .b0)
      stageOf s = .stopping .b0 ∧ (runOf s .b0).state = t) ∧
    (∀ e ∈ [none, some (RemarkEnd.finished 1), some (.early 2)],
      let s := staged (run (bed .paused) .b0 fun r => { r with remarkEnd := e }) (.remark .b0)
      stageOf s = .remark .b0 ∧ (runOf s .b0).remarkEnd = e) := by
  decide +kernel

theorem test_met_FaultClearAndMask :
    (∀ c ∈ [0x14, 0x15], commandDue (command s0 c 0xFF) c 0xFF) ∧
    (∀ n ∈ [0, 1, 2, 3, 4, 5], ∃ g, groupOf? n = some g) ∧ groupOf? (par (slot [(0, 1, 4), (1, 1, 0x3F)]) 0 1) = some .crane ∧
    (∀ f ∈ [[(0, 1, 4), (1, 1, 0x3F)], [(0, 1, 4), (1, 1, 0x3F), (2, 1, 1)], [(0, 1, 4), (2, 1, 1)]],
      let q := slot f
      parZeroBut q [(0, 3)] = true ∧ byte (par q 1 1) &&& ~~~ groupFlags .crane = 0 ∧
        ((byte (par q 1 1) ≠ 0 ∧ par q 2 1 = 0) ∨ par q 2 1 = 1)) ∧
    (∀ f ∈ [[(0, 1, 4), (1, 1, 0x40)], [(0, 1, 4)], [(0, 1, 4), (1, 1, 1), (2, 1, 2)]],
      let q := slot f
      parZeroBut q [(0, 3)] = true ∧ (byte (par q 1 1) &&& ~~~ groupFlags .crane ≠ 0 ∨ (byte (par q 1 1) = 0 ∧ par q 2 1 = 0) ∨
        1 < par q 2 1)) ∧
    (let q := slot [(0, 1, 5), (1, 1, 7)]
     groupOf? (par q 0 1) = some .hall ∧ parZeroBut q [(0, 2)] = true ∧ byte (par q 1 1) &&& ~~~ groupFlags .hall = 0) ∧
    (let q := slot [(0, 1, 5), (1, 1, 8)]
     parZeroBut q [(0, 2)] = true ∧ byte (par q 1 1) &&& ~~~ groupFlags .hall ≠ 0) := by
  refine ⟨by decide +kernel, ?_, by decide +kernel, by decide +kernel, by decide +kernel, by decide +kernel, by decide +kernel⟩
  intro n hn
  simp only [List.mem_cons, List.not_mem_nil, or_false] at hn
  rcases hn with rfl | rfl | rfl | rfl | rfl | rfl <;> exact ⟨_, rfl⟩

/-- A target, a group above 5, a parameter beyond those used. -/
theorem test_met_FaultClearAndMask_param :
    (∀ c ∈ [0x14, 0x15], ∀ n ∈ [0, 0xFF], commandDue (command s0 c n) c n) ∧ groupOf? (par (slot [(0, 1, 6)]) 0 1) = none ∧
    parZeroBut (slot [(3, 1, 1)]) [(0, 3)] = false ∧ parZeroBut (slot [(2, 1, 1)]) [(0, 2)] = false := by
  decide +kernel

theorem test_met_AttentionMask :
    commandDue (command s0 0x51 0xFF) 0x51 0xFF ∧ parZeroBut (slot [(0, 1, 0xFF)]) [(0, 1)] = true ∧
    commandDue (command s0 0x51 0) 0x51 0 ∧ parZeroBut (slot [(1, 1, 1)]) [(0, 1)] = false := by
  decide +kernel

theorem test_met_StatsSnapshot :
    commandDue (command s0 0x50 0xFF) 0x50 0xFF ∧ (∀ n ∈ [0, 1], parZeroBut (slot [(0, 1, n)]) [(0, 1)] = true ∧ par (slot [(0, 1, n)]) 0 1 ≤ 1) ∧
    commandDue (command s0 0x50 0) 0x50 0 ∧ 1 < par (slot [(0, 1, 2)]) 0 1 ∧ parZeroBut (slot [(1, 1, 1)]) [(0, 1)] = false := by
  decide +kernel

/-- Every limit, valid or not, in every state of the bed but ABSENT, with its link LIVE and DOWN. -/
theorem test_met_MonitorTest :
    ∀ k ∈ [0, 1, 2, 3], ∀ t ∈ [BedState.stopped, .waiting, .accepting, .faulted], ∀ l ∈ [true, false],
      let s := run (command (if l then live s0 .b0 else s0) 0x16 0) .b0 fun r => { r with state := t }
      bedCommandDue s 0x16 .b0 (slot [(0, 1, k)]) [(0, 1)] ∧ (runOf s .b0).state = t ∧ isLive s .b0 = l ∧
        par (slot [(0, 1, k)]) 0 1 = k := by
  decide +kernel

def bedStates : List BedState :=
  [.stopped, .waiting, .accepting, .checking, .staging, .marking, .burning, .paused, .unloading, .stopping, .faulted]
/-- A bed command is due in every state of the bed but ABSENT. -/
theorem test_met_bedCommands :
    ∀ c ∈ [0x20, 0x21, 0x22, 0x23, 0x24, 0x25], ∀ t ∈ bedStates,
      bedCommandDue (command (bed t) c 0) c .b0 (slot []) [] ∧ (runOf (command (bed t) c 0) .b0).state = t ∧
        isLive (command (bed t) c 0) .b0 = true ∧ (runOf (command (bed t) c 0) .b0).hand = some hand := by
  decide +kernel

/-- Wrong targets, an ABSENT bed, and a parameter that must be 0. -/
theorem test_met_bedTargets :
    (∀ c ∈ [0x16, 0x20, 0x21, 0x22, 0x23, 0x24, 0x25], ∀ n ∈ [4, 0xFF], commandDue (command s0 c n) c n) ∧
    (∀ c ∈ [0x16, 0x20, 0x21, 0x22, 0x23, 0x24, 0x25],
      let s := run (command s0 c 3) .b3 fun r => { r with state := .absent }
      commandDue s c (bedNum .b3) ∧ (runOf s .b3).state = .absent ∧ present s .b3 = false ∧ present s .b0 = true) ∧
    parZeroBut (slot [(47, 1, 1)]) [] = false ∧ parZeroBut (slot [(47, 1, 1)]) [(0, 1)] = false := by
  decide +kernel

theorem test_met_BedStartAndStop :
    (let s := inMode (command (bed .stopped) 0x20 0) .halt
     bedCommandDue s 0x20 .b0 (slot []) [] ∧ (runOf s .b0).state = .stopped ∧ s.cmd.mode = .halt) ∧
    (let s := command s0 0x20 0
     bedCommandDue s 0x20 .b0 (slot []) [] ∧ (runOf s .b0).state = .stopped ∧ s.cmd.mode ≠ .halt ∧ isLive s .b0 = false) := by
  decide +kernel

theorem test_met_BedPause :
    (let s := command (bed .burning) 0x22 0
     (runOf s .b0).pause = 0 ∧ (runOf s .b0).stream.pausing = false) ∧
    (let s := run (command (bed .burning) 0x22 0) .b0 fun r => { r with pause := 1 }
     bedCommandDue s 0x22 .b0 (slot []) [] ∧ ¬ ((runOf s .b0).pause = 0 ∧ (runOf s .b0).stream.pausing = false)) := by
  decide +kernel

theorem test_met_BedResume :
    (∀ k ∈ [0, 1, 2],
      let s := command (bed .paused) 0x23 0
      bedCommandDue s 0x23 .b0 (slot [(0, 1, k)]) [(0, 1)] ∧ mayResume (runOf s .b0) = true ∧ par (slot [(0, 1, k)]) 0 1 = k ∧
        (runOf s .b0).state = .paused) ∧
    (runOf (marks (bed .paused) fun m => { m with begun := true }) .b0).marks.begun = true ∧
    (let s := command (stream (bed .burning) fun t => { t with pausing := true }) 0x23 0
     bedCommandDue s 0x23 .b0 (slot [(0, 1, 2)]) [(0, 1)] ∧ mayResume (runOf s .b0) = true ∧ (runOf s .b0).state ≠ .paused) ∧
    (∀ k ∈ [0, 1, 2], bedCommandDue (command (bed .burning) 0x23 0) 0x23 .b0 (slot [(0, 1, k)]) [(0, 1)]) ∧
    (let s := command (bed .burning) 0x23 0
     (runOf s .b0).state = .burning ∧ (runOf s .b0).stream.pausing = false) ∧
    (runOf (command (stream (bed .paused) fun t => { t with form := some ⟨3, 0, 1⟩ }) 0x23 0) .b0).stream.form ≠ none ∧
    (let s := command (bed .waiting) 0x23 0
     (runOf s .b0).state = .waiting ∧ bedCommandDue s 0x23 .b0 (slot [(0, 1, 3)]) [(0, 1)] ∧ 2 < par (slot [(0, 1, 3)]) 0 1) := by
  decide +kernel

theorem test_met_BedRelease :
    (let s := run (command (bed .unloading) 0x24 0) .b0 fun r => { r with unl := .release }
     bedCommandDue s 0x24 .b0 (slot []) [] ∧ (runOf s .b0).hand = some hand ∧ (runOf s .b0).state = .unloading ∧
       (runOf s .b0).unl = .release) ∧
    (let s := command (bed .unloading) 0x24 0
     bedCommandDue s 0x24 .b0 (slot []) [] ∧ (runOf s .b0).unl ≠ .release) := by
  decide +kernel

theorem test_met_BedRecover :
    let s := command (run s0 .b0 fun r => { r with state := .faulted }) 0x25 0
    bedCommandDue s 0x25 .b0 (slot []) [] ∧ (runOf s .b0).state = .faulted ∧ isLive s .b0 = false := by
  decide +kernel

theorem test_met_CraneCancel :
    (∀ g ∈ [OrderStage.queued, .reading, .failed, .returning, .inFlight],
      let s := command (holding s0 [orderAt 3 g]) 0x30 0xFF
      let q := slot [(0, 2, 3)]
      commandDue s 0x30 0xFF ∧ parZeroBut q [(0, 2)] = true ∧ par q 0 2 = (orderAt 3 g).idx ∧ (orderAt 3 g).stage = g ∧
        (orderAt 3 g).idx < param s (·.craneCount) 0 ∧ (orderAt 3 g).idx ≠ 0xFFFF ∧
        s.crane.stock.find? (·.idx == (orderAt 3 g).idx) = some (orderAt 3 g)) ∧
    (let s := command (holding (crane .lifting move) [orderAt 1 .inFlight]) 0x30 0xFF
     let q := slot [(0, 2, 0xFFFF)]
     commandDue s 0x30 0xFF ∧ parZeroBut q [(0, 2)] = true ∧ par q 0 2 = 0xFFFF ∧ s.crane.state ≠ .faulted ∧
       s.crane.move = some move ∧ move.req = .host (orderAt 1 .inFlight).idx ∧
       s.crane.stock.find? (·.idx == 1) = some (orderAt 1 .inFlight)) ∧
    (let q := slot [(0, 2, 3)]
     par q 0 2 ≠ 0xFFFF ∧ par q 0 2 < param (command s0 0x30 0xFF) (·.craneCount) 0 ∧
       ∀ o ∈ (command s0 0x30 0xFF).crane.stock, o.idx ≠ par q 0 2) ∧
    ((command s0 0x30 0xFF).crane.move = none ∧ (crane .faulted move).crane.state = .faulted ∧
      (crane .lifting { move with req := .bed .b0 .loadBed 101 }).crane.move =
        some { move with req := .bed .b0 .loadBed 101 }) ∧
    (commandDue (command s0 0x30 0) 0x30 0 ∧ parZeroBut (slot [(2, 1, 1)]) [(0, 2)] = false ∧
      param (command s0 0x30 0xFF) (·.craneCount) 0 ≤ par (slot [(0, 2, 4)]) 0 2 ∧ par (slot [(0, 2, 4)]) 0 2 ≠ 0xFFFF) ∧
    (∀ t ∈ [CraneState.dispatched, .lifting, .travelling, .setting, .returning],
      (crane t move).crane.move = some move ∧ (crane t move).crane.state = t ∧ move.abort = false) ∧
    available (crane .travelling move) (.rack 0) = true ∧ available (crane .travelling move) move.src = false := by
  decide +kernel

/-- `n` plates at the infeed. -/
def infeed (n : Nat) : List Plate := (List.range n).map fun k => { plate with id := 200 + k, loc := .infeed (k + 1) }
def failed (m : Move) (p : Plate → Plate) : State := withPlate (crane .faulted m) 0 p
theorem test_met_CraneRecover :
    (∀ k ∈ [0, 1, 2, 3], ∀ s ∈ [setCrane s0 { s0.crane with state := .faulted, lk := ⟨true, 0, .absent, true⟩ }, failed move id],
      commandDue (command s 0x31 0xFF) 0x31 0xFF ∧ parZeroBut (slot [(0, 1, k)]) [(0, 1)] = true ∧ par (slot [(0, 1, k)]) 0 1 = k ∧
        s.crane.state = .faulted ∧ s.crane.lk.live = true ∧ s.crane.lk.load ≠ .present) ∧
    s0.crane.move = none ∧
    (let s := failed move id
     s.crane.move = some move ∧ holds s move.ix move.plate = true ∧ move.ix < s.stock.table.length ∧ (plateAt s move.ix).st ≠ .lost ∧
       move.lifted = false) ∧
    (let m := { move with lifted := true, dst := .rack 3 }
     let s := failed m fun p => { p with loc := .crane }
     s.crane.move = some m ∧ holds s m.ix m.plate = true ∧ (plateAt s m.ix).st ≠ .lost ∧ m.lifted = true ∧ m.src = .rack 2 ∧
       m.dst = .rack 3 ∧ available s m.src = true ∧ available s m.dst = true) ∧
    (let s := holding (failed { move with lifted := true, measured := some 990 } id) [orderAt 1 .failed]
     s.crane.stock = [orderAt 1 .failed] ∧ move.req = .host (orderAt 1 .failed).idx ∧ move.live = true) ∧
    (∀ keeps ∈ [true, false],
     let m := { move with lifted := true, src := .rack 3, dst := .rack 3, reserves := keeps }
     let s := setStock (failed m fun p => { p with loc := .crane }) { s0.stock with slotRes := [⟨3, 101, .host 1⟩] }
     s.crane.move = some m ∧ hasRes s m.req m.dst = true ∧ m.reserves = keeps ∧ available s m.src = false ∧
       available s m.dst = false) := by
  decide +kernel
/-- The refusals of CRANE_RECOVER, in the order of their table. -/
theorem test_met_CraneRecover_refused :
    (commandDue (command s0 0x31 0) 0x31 0 ∧ 3 < par (slot [(0, 1, 4)]) 0 1 ∧ parZeroBut (slot [(1, 1, 1)]) [(0, 1)] = false) ∧
    (let f (l : Load) (link : Bool) (m : Option Move) : State :=
       setCrane s0 { s0.crane with state := .faulted, lk := ⟨link, 0, l, true⟩, move := m }
     (∀ k ∈ [0, 1, 2, 3], ∀ s ∈ [s0, f .absent false none, f .present true none, f .absent true none, f .unknown true (some move)],
       commandDue (command s 0x31 0xFF) 0x31 0xFF ∧ parZeroBut (slot [(0, 1, k)]) [(0, 1)] = true ∧ par (slot [(0, 1, k)]) 0 1 = k) ∧
     s0.crane.state ≠ .faulted ∧ (f .absent false none).crane.lk.live = false ∧ (f .present true none).crane.lk.load = .present ∧
     (f .absent true none).crane.move = none ∧ (f .unknown true (some move)).crane.move = some move ∧
     (f .unknown true (some move)).crane.lk.load ≠ .present) ∧
    (let s := failed move fun p => { p with st := .lost }
     s.crane.move = some move ∧ holds s 0 101 = true ∧ (plateAt s 0).st = .lost) := by
  decide +kernel
/-- Where a declared piece may be placed, and where not: the infeed with 3 and 4 pieces, the scrap bay, its own source freed. -/
theorem test_met_CraneRecover_places :
    (∀ n ∈ [3, 4], let m := { move with dst := .infeed 0, src := .infeed 1, lifted := true }
      let s := setStock (crane .faulted m) { s0.stock with table := { plate with loc := .crane } :: infeed n }
      holds s 0 101 = true ∧ (plateAt s 0).st ≠ .lost ∧ (available s (.infeed 0) = decide (n = 3))) ∧
    mayPlace (failed { move with dst := .scrap } id) { move with dst := .scrap } .scrap ∧
    (let m := { move with dst := .rack 2 }
     let s := failed m id
     m.lifted = false ∧ ¬ mayPlace s m m.dst ∧ mayPlace (stockLift s m.ix m.plate) m m.dst) ∧
    (let m := { move with dst := .rack 3 }
     let s := setStock (failed m id) { s0.stock with slotRes := [⟨3, 101, .host 9⟩] }
     m.lifted = false ∧ ¬ mayPlace (stockLift s m.ix m.plate) m m.dst) := by
  decide +kernel

/-! Plates -/

def regSlot (id th len wid mass hl : Nat) : Line :=
  slot [(0, 2, id), (2, 2, th), (4, 2, len), (6, 2, wid), (8, 4, mass), (0xE, 1, hl), (0x10, 8, 0x3131313131313131),
        (0x18, 12, 0x313131313131313131313131 % 2 ^ (8 * hl))]
def regOk (q : Line) : Bool :=
  parZeroBut q [(0, 0xF), (0x10, 0x14)] && 1 ≤ par q 0 2 && 30 ≤ par q 2 2 && par q 2 2 ≤ 1500 && 1 ≤ par q 4 2 && par q 4 2 ≤ 24000 &&
    1 ≤ par q 6 2 && par q 6 2 ≤ 4000 && 1 ≤ par q 8 4 && par q 8 4 ≤ 1000000 && par q 0xE 1 ≤ 12 && gradeOk (par q 0x10 8) &&
    heatField (par q 0x18 12) (par q 0xE 1)
def infeeds (n : Nat) (s : State) : State :=
  setStock s { s.stock with table := infeed n ++ [.blank] }
def reg (s : State) : State := command s 0x40 0xFF
theorem test_met_PlateRegister :
    regOk (regSlot 1 30 1 1 1 0) = true ∧ regOk (regSlot 65535 1500 24000 4000 1000000 12) = true ∧ commandDue (reg s0) 0x40 0xFF ∧
    par (regSlot 104 30 1 1 1 0) 0 2 = 104 ∧ par (regSlot 101 30 1 1 1 0) 0 2 = 101 ∧
    (let s := reg (infeeds 3 s0)
     findPlate s 104 = none ∧ s.stock.reservedIds.find? (·.1 == 104) = none ∧ lowestEmpty s = some 3 ∧ infeedCount s = 3 ∧
       liftingInfeed s = false) ∧
    findPlate (reg s0) 101 = some 0 ∧
    (let s := setStock (reg s0) { s0.stock with reservedIds := [(104, .b3)] }
     findPlate s 104 = none ∧ s.stock.reservedIds.find? (·.1 == 104) = some (104, .b3)) ∧
    (let s := setStock (reg s0) { s0.stock with table := [] }
     findPlate s 104 = none ∧ s.stock.reservedIds.find? (·.1 == 104) = none ∧ lowestEmpty s = none) ∧
    (let s := reg (infeeds 4 s0)
     findPlate s 104 = none ∧ lowestEmpty s = some 4 ∧ infeedCount s = 4) ∧
    (let m := { move with src := .infeed 3, plate := 202, ix := 2 }
     let s := reg (infeeds 3 (crane .lifting m))
     findPlate s 104 = none ∧ s.stock.reservedIds.find? (·.1 == 104) = none ∧ lowestEmpty s = some 3 ∧ infeedCount s < 4 ∧
       liftingInfeed s = true) := by
  decide +kernel

/-- Below and above each field's range, with every field before it at a bound of its range; bytes behind the heat number's count, and
bytes that must be 0. -/
theorem test_met_PlateRegister_param :
    [regSlot 0 29 0 0 0 13, regSlot 1 29 0 1 1 0, regSlot 1 1501 1 1 1 0, regSlot 1 30 0 1 1 0, regSlot 1 1500 24001 1 1 0,
     regSlot 1 30 1 0 1 0, regSlot 1 30 24000 4001 1 0, regSlot 1 30 1 1 0 0, regSlot 1 30 1 4000 1000001 0, regSlot 1 30 1 1 1 13,
     slot [(0, 2, 1), (2, 2, 30), (4, 2, 1), (6, 2, 1), (8, 4, 1000000), (0xE, 1, 12)],
     regSlot 1 30 1 1 1 0 + slot [(0x18, 1, 0x31)], regSlot 1 30 1 1 1 12 + slot [(0xF, 1, 1)], regSlot 1 30 1 1 1 0].map
      (fun q => firstInvalid (registerParams q)) =
    [some 1, some 2, some 2, some 3, some 3, some 4, some 4, some 5, some 5, some 7, some 8, some 9, some 0, none] := by
  decide +kernel

def amend (s : State) : State := command s 0x41 0xFF
def amendSlot (fs : List (Nat × Nat × Nat)) (id : Nat) : Line := slot ((0, 2, id) :: fs)
def overflowed (n : Nat) (s : State) : State :=
  let full : List Plate := (List.range n).map (fun k => { plate with id := 200 + k, loc := .overflow })
  setStock s { s.stock with table := { plate with st := .lost } :: full }
/-- Records 1 to `n` at the infeed and record 0 LOST. -/
def lostAnd (n : Nat) (s : State) : State :=
  setStock s { s.stock with table := { plate with st := .lost } :: infeed n }
/-- Valid parameters at the bounds of each field: HEAT, GRADE, MASS, and PLACE at each of its kinds. -/
def amendSlots : List Line :=
  [amendSlot [(2, 1, 1), (5, 1, 1), (0x14, 12, 0x31)] 101, amendSlot [(2, 1, 1), (5, 1, 12), (0x14, 12, 0x313131313131313131313131)] 101,
   amendSlot [(2, 1, 2), (0xC, 8, 0x3232323232323232)] 101, amendSlot [(2, 1, 4), (3, 1, 3), (8, 4, 1)] 101,
   amendSlot [(2, 1, 4), (8, 4, 1000000)] 101, amendSlot [(2, 1, 8), (3, 1, 1)] 101, amendSlot [(2, 1, 8), (3, 1, 4)] 101,
   amendSlot [(2, 1, 8), (3, 1, 4), (4, 1, 5)] 101, amendSlot [(2, 1, 8), (3, 1, 5)] 101,
   amendSlot [(2, 1, 15), (3, 1, 5), (5, 1, 1), (8, 4, 9), (0xC, 8, 0x3232323232323232), (0x14, 12, 0x31)] 101]
theorem test_met_PlateAmend_parameters :
    commandDue (amend s0) 0x41 0xFF ∧ amendSlots.all (fun q => parZeroBut q [(0, 6), (8, 0x18)] &&
      findPlate (amend s0) (par q 0 2) == some 0 && decide (amendValid (amend s0) q)) = true := by
  decide +kernel
/-- PLATE_AMEND: an invalid value of each field, with the changes that select it; a slot of 63 is beyond the 6 configured, and judged
after the fields behind it. -/
theorem test_met_PlateAmend_param :
    [amendSlot [(2, 1, 0), (3, 1, 6)] 101, amendSlot [(2, 1, 16)] 101, amendSlot [(2, 1, 1), (3, 1, 6)] 101, amendSlot [(2, 1, 8), (3, 1, 2)] 101,
     amendSlot [(2, 1, 9), (3, 1, 4), (4, 1, 64)] 101, amendSlot [(2, 1, 1), (5, 1, 13)] 101, amendSlot [(2, 1, 4), (8, 4, 1000001)] 101,
     amendSlot [(2, 1, 2), (0xC, 8, 1)] 101, amendSlot [(2, 1, 1), (5, 1, 1), (0x14, 12, 0x3131)] 101,
     amendSlot [(2, 1, 12), (3, 1, 4), (4, 1, 63)] 101, amendSlot [(2, 1, 8), (3, 1, 4), (4, 1, 6)] 101,
     amendSlot [(2, 1, 8), (3, 1, 5), (6, 1, 1)] 101].map (fun q => firstInvalid (amendParams (amend s0) q)) =
    [some 2, some 2, some 3, some 3, some 4, some 5, some 6, some 7, some 8, some 6, some 4, some 0] ∧
    amendSlots.all (fun q => firstInvalid (amendParams (amend s0) q) == none) = true := by
  decide +kernel
theorem test_met_PlateAmend :
    findPlate (amend s0) (par (amendSlot [(2, 1, 4), (8, 4, 1)] 104) 0 2) = none ∧
    (∀ c ∈ [Claim.hold 1 5, .lift 1, .burn .b2], (plateAt (withPlate (amend s0) 0 fun p => { p with claim := c }) 0).claim = c) ∧
    (amendSlots.map fun q => bit (par q 2 1) 3) = [false, false, false, false, false, true, true, true, true, true] ∧
    (plateAt (amend s0) 0).claim = .none ∧ (plateAt (amend s0) 0).st ≠ .lost ∧
    (∀ n ∈ [3, 4], let s := amend (lostAnd n s0)
      (plateAt s 0).st = .lost ∧ (plateAt s 0).claim = .none ∧ infeedCount s = n ∧ liftingInfeed s = false) ∧
    (let s := amend (lostAnd 1 (crane .lifting { move with src := .infeed 1 }))
     (plateAt s 0).st = .lost ∧ liftingInfeed s = true) ∧
    (let s := amend (lostAnd 0 s0)
     fitsSlot s 0 (plateAt s 0).length (plateAt s 0).width = false ∧ fitsSlot s 5 (plateAt s 0).length (plateAt s 0).width = true ∧
       slotFree s 5 = true) ∧
    slotFree (setStock (lostAnd 0 s0) { (lostAnd 0 s0).stock with slotRes := [⟨5, 300, .host 2⟩] }) 5 = false ∧
    (∀ n ∈ [7, 8], let s := amend (overflowed n s0)
      findPlate s 101 = some 0 ∧ (plateAt s 0).claim = .none ∧ (plateAt s 0).st = .lost ∧ overflowUsed s = n) := by
  decide +kernel

theorem test_met_PlateRetire :
    let q (id : Nat) : Line := slot [(0, 2, id)]
    let s := command s0 0x42 0xFF
    commandDue s 0x42 0xFF ∧ parZeroBut (q 101) [(0, 2)] = true ∧ parZeroBut (slot [(0, 2, 101), (2, 1, 1)]) [(0, 2)] = false ∧ findPlate s (par (q 0) 0 2) = none ∧
    findPlate s (par (q 101) 0 2) = some 0 ∧ (plateAt s 0).claim = .none ∧ (plateAt s 0).loc ≠ .crane ∧ namedByCrane s 0 = false ∧
    (plateAt (withPlate s 0 fun p => { p with claim := .lift 1 }) 0).claim ≠ .none ∧
    (plateAt (withPlate s 0 fun p => { p with loc := .crane }) 0).loc = .crane ∧
    (let s := infeeds 2 s
     findPlate s (par (q 200) 0 2) = some 0 ∧ (plateAt s 0).loc = .infeed 1 ∧ 1 < locatedInfeed s ∧ (plateAt s 1).loc = .infeed 2 ∧
       locatedInfeed s = 2 ∧ (plateAt s 0).claim = .none) ∧
    (let s := command (crane .lifting { move with req := .bed .b0 .loadBed 101, kind := .loadBed }) 0x42 0xFF
     findPlate s (par (q 101) 0 2) = some 0 ∧ namedByCrane s 0 = true) ∧
    (plateAt s 2).st = .lost ∧ findPlate s (par (q 103) 0 2) = some 2 ∧ (plateAt s 2).claim = .none := by
  decide +kernel

def findSlot (th len wid : Nat) : Line := slot [(0, 2, th), (2, 2, len), (4, 2, wid), (8, 8, 0x3131313131313131)]
theorem test_met_RemnantFind :
    (∀ f ∈ [(30, 1, 1), (1500, 24000, 4000), (100, 5000, 1500)],
      let q := findSlot f.1 f.2.1 f.2.2
      commandDue (command s0 0x43 0xFF) 0x43 0xFF ∧ parZeroBut q [(0, 6), (8, 8)] = true ∧ 30 ≤ par q 0 2 ∧ par q 0 2 ≤ 1500 ∧
        1 ≤ par q 2 2 ∧ par q 2 2 ≤ 24000 ∧ 1 ≤ par q 4 2 ∧ par q 4 2 ≤ 4000 ∧ gradeOk (par q 8 8) = true) ∧
    (let q := findSlot 100 5000 1500
     (command s0 0x43 0xFF).stock.table[0]? = some plate ∧
       findCandidate plate (par q 0 2) (par q 2 2) (par q 4 2) (BitVec.ofNat 64 (par q 8 8)) = true) ∧
    ([findSlot 29 1 1, findSlot 1501 0 1, findSlot 30 0 1, findSlot 1500 24001 0, findSlot 30 1 0, findSlot 30 24000 4001,
      slot [(0, 2, 30), (2, 2, 1), (4, 2, 4000)], findSlot 30 1 1 + slot [(6, 1, 1)], findSlot 30 1 1].map
        (fun q => firstInvalid (findParams q)) =
      [some 1, some 1, some 2, some 2, some 3, some 3, some 4, some 0, none]) ∧
    (∀ (i : Nat) (p : Plate), ¬ (setStock s0 { s0.stock with table := [] }).stock.table[i]? = some p) := by
  refine ⟨by decide +kernel, by decide +kernel, by decide +kernel, ?_⟩
  intro i p h
  cases h

theorem test_met_HoldDrop :
    (∀ f ∈ [[(2, 2, 1)], [(0, 2, 101)]],
      let q := slot f
      commandDue (command s0 0x44 0xFF) 0x44 0xFF ∧ parZeroBut q [(0, 4)] = true ∧ (par q 0 2 = 0 ∨ par q 2 2 = 0)) ∧
    (let q := slot [(0, 2, 101), (2, 2, 0xFFFF)]
     let s := withPlate (command s0 0x44 0xFF) 0 fun p => { p with claim := .hold 0xFFFF 5 }
     commandDue s 0x44 0xFF ∧ parZeroBut q [(0, 4)] = true ∧ par q 0 2 ≠ 0 ∧ par q 2 2 ≠ 0 ∧ findPlate s (par q 0 2) = some 0 ∧
       (plateAt s 0).claim = .hold 0xFFFF 5 ∧ (0xFFFF : BitVec 16).toNat = par q 2 2) ∧
    (let q := slot [(0, 2, 104), (2, 2, 1)]
     par q 0 2 ≠ 0 ∧ par q 2 2 ≠ 0 ∧ findPlate (command s0 0x44 0xFF) (par q 0 2) = none) := by
  decide +kernel

/-! Answers of the MSP -/

def committing (s : State) : State := setLoader s { s.loader with pendingCommit := some 7 }
theorem test_met_ResultWriteAnswer :
    (let s := due_ s0 .result
     engineHas s (req .result) ∧ (req .result).what = .result ∧ s.loader.pendingCommit = none) ∧
    (let s := committing (inMode (due_ s0 .result) .halt)
     engineHas s (req .result) ∧ s.loader.pendingCommit = some 7 ∧ s.cmd.mode = .halt) ∧
    (let s := committing (due_ s0 .result)
     engineHas s (req .result) ∧ s.loader.pendingCommit = some 7 ∧ s.cmd.mode ≠ .halt) ∧
    engineHas (due_ s0 .busyResult) (req .busyResult) ∧ (req .busyResult).what = .busyResult := by
  decide +kernel

def deferring (s : State) (ds : List Deferred) : State := setEngine s { s.engine with deferred := ds }

theorem test_met_WriteBackAndTakenAnswer :
    (let s := due_ s0 (.writeBack .hall)
     let c : Current := ⟨req (.writeBack .hall), [], 0, false⟩
     s.path.msp = some .engine ∧ s.engine.cur = some c ∧ c.req.what = .writeBack .hall ∧ c.lines = [] ∧ s.engine.deferred = []) ∧
    (∀ ls ∈ [[], [(0 : Line)]], let c : Current := ⟨req (.writeBack .hall), ls, 0x1140, true⟩
     let s := setEngine (due_ s0 (.writeBack .hall)) { s0.engine with cur := some c }
     s.path.msp = some .engine ∧ s.engine.cur = some c ∧ c.lines = ls ∧ c.refused = true ∧ s.engine.deferred = []) ∧
    (∀ a ∈ [Act.result 0x41 0xFF 7 0 0 0 0, .cause aHOLD_EXPIRED, .cause aFAULT, .ownerRead .b1], ∀ ts ∈ [[0], [0, 4]],
     let s := deferring (due_ s0 (.writeBack (.plate 0))) [⟨ts, a⟩]
     let c : Current := ⟨req (.writeBack (.plate 0)), [], 0, false⟩
     s.path.msp = some .engine ∧ s.engine.cur = some c ∧ c.req.ticket = 0 ∧ s.engine.deferred = [⟨ts, a⟩] ∧
       (ts.filter (· != c.req.ticket) = if ts = [0] then [] else [4])) ∧
    (engineHas (due_ s0 (.bedTaken .b1)) (req (.bedTaken .b1)) ∧ isTaken (req (.bedTaken .b1)) = true) ∧
    (engineHas (due_ s0 (.craneTaken 3)) (req (.craneTaken 3)) ∧ isTaken (req (.craneTaken 3)) = true) := by
  decide +kernel

theorem test_met_BedElementAndOwnershipRead :
    (let s := due_ (bed .accepting) (.bedElement .b0)
     engineHas s (req (.bedElement .b0)) ∧ (runOf s .b0).hand = some hand ∧ (runOf s .b0).state = .accepting ∧
       (runOf s .b0).acc = .element ∧ ordReservedSet order = false ∧ ordReservedSet (line [(7, 1, 1)]) = true) ∧
    (let s := due_ (run s0 .b0 fun r => { r with state := .waiting }) (.bedOwner .b0)
     engineHas s (req (.bedOwner .b0)) ∧ (runOf s .b0).state = .waiting ∧ (runOf s .b0).ret = none ∧
       (req (.bedOwner .b0)).addr = ringAddr s .b0 ∧ fld (line [(0, 4, 1)]).toNat 0 4 = 1 ∧ fld (line [(0, 4, 0)]).toNat 0 4 ≠ 1 ∧
       (req (.bedOwner .b0)).addr ≠ ringAddr (setRing s .b0 ⟨1, 0, 0, 0⟩) .b0 ∧
       (runOf (run s .b0 fun r => { r with ret := some ⟨0, true⟩ }) .b0).ret ≠ none) ∧
    (∀ t ∈ bedStates, let s := due_ (bed t) (.bedOwner .b0)
      engineHas s (req (.bedOwner .b0)) ∧ (runOf s .b0).state = t ∧ s.cmd.mode ≠ .resetting ∧
        (inMode s .resetting).cmd.mode = .resetting) ∧
    (let s := due_ s0 (.bedElement .b0)
     engineHas s (req (.bedElement .b0)) ∧ (runOf s .b0).hand = none ∧ (runOf s .b0).state ≠ .accepting ∧
       (runOf (run s .b0 fun r => { r with acc := .marks }) .b0).acc ≠ .element ∧
       (runOf (bed .stopping) .b0).hand = some hand ∧ (runOf (bed .stopping) .b0).state ≠ .accepting) := by
  decide +kernel

def aMark : Raw := BitVec.ofNat 256 (put 6 1 5 + put 8 1 1 + put 0x10 1 0x41)
def desc (n : Nat) : Line :=
  line [(0, 2, 300), (2, 1, n), (4, 4, 1000000), (0x10, 4, 0), (0x14, 4, 24000), (0x18, 4, 24000 + 4000 * 65536)]
/-- Bed B0 at the last line of its mark list, which passes check 9, with this descriptor address; the plate lies at its bed or not. -/
def lastMarks (desc : Nat) (away : Bool) : State :=
  fetching (run (bed .accepting) .b0 fun r => { r with acc := .marks, hand := some { hand with
    order := line [(0xC, 2, 101), (0x12, 1, 1), (0x1C, 4, desc)], look := some ⟨0, 100, 5000, 1500, away⟩ } }) .marks
def markLine : Line := lineOf aMark.toNat
/-- The end of a mark list without and with a descriptor, its address in order or in the plate table. -/
theorem test_markList_ends :
    (let u := after (exec (.markListReadAnswer (.done markLine)) (lastMarks 0 true))
     (runOf u .b0).state = .waiting ∧ (u.engine.queue.head?.map fun r => fld r.data.toNat 0x20 2) = some (1 + 256 * 11)) ∧
    (runOf (after (exec (.markListReadAnswer (.done markLine)) (lastMarks 0 false))) .b0).acc = .burn ∧
    (runOf (after (exec (.markListReadAnswer (.done markLine)) (lastMarks 0x4000 false))) .b0).state = .waiting ∧
    (let u := after (exec (.markListReadAnswer (.done markLine)) (lastMarks 0x8000 false))
     (runOf u .b0).acc = .descriptor ∧ (u.engine.queue.head?.map fun r => (r.what, r.addr)) = some (.descriptor .b0, 0x8000)) ∧
    (runOf (after (exec (.markListReadAnswer .refused) (lastMarks 0 false))) .b0).state = .faulted := by
  and_intros <;> decide +kernel
theorem test_met_MarkListAndDescriptorRead :
    (∀ d ∈ [0, 0x4000, 0x8000], ∀ away ∈ [true, false],
      let s := lastMarks d away
      let h : Hand := { hand with order := line [(0xC, 2, 101), (0x12, 1, 1), (0x1C, 4, d)], look := some ⟨0, 100, 5000, 1500, away⟩ }
      let tbl := (listPart markLine 0 (ordMarks h.order)).map (⟨·, .pending, 0, .none, false⟩ : Raw → Mark)
      s.path.msp = some (.fetch .b0) ∧ (runOf s .b0).fetch = some ⟨.marks, 0x8000, true, false⟩ ∧ (runOf s .b0).hand = some h ∧
        (runOf s .b0).marks.table = [] ∧ ordMarks h.order ≤ tbl.length ∧ markCheck tbl (h.look.getD ⟨0, 0, 0, 0, false⟩) = none ∧
        ordDescAddr h.order = d ∧ (h.look.map (·.away)).getD false = away ∧ listAddressOk s d 64 = decide (d = 0x8000)) ∧
    (let s := fetching (run (bed .accepting) .b0 fun r => { r with acc := .marks, hand := some { hand with order := line [(0x12, 1, 64)] } }) .marks
     s.path.msp = some (.fetch .b0) ∧ (runOf s .b0).fetch = some ⟨.marks, 0x8000, true, false⟩ ∧ (runOf s .b0).marks.table = [] ∧
       ((listPart (line []) 0 (ordMarks (line [(0x12, 1, 64)]))).map (⟨·, .pending, 0, .none, false⟩ : Raw → Mark)).length < 64) ∧
    (let s := fetching (run (bed .accepting) .b0 fun r => { r with acc := .marks }) .marks
     let tbl := (listPart (line []) 0 (ordMarks order)).map (⟨·, .pending, 0, .none, false⟩ : Raw → Mark)
     (runOf s .b0).hand = some hand ∧ ordMarks hand.order ≤ tbl.length ∧
       markCheck tbl (hand.look.getD ⟨0, 0, 0, 0, false⟩) = some (0, 3)) ∧
    (let s := run (due_ (bed .accepting) (.descriptor .b0)) .b0 fun r => { r with acc := .descriptor }
     engineHas s (req (.descriptor .b0)) ∧ (runOf s .b0).hand = some hand ∧ (runOf s .b0).state = .accepting ∧
       (runOf s .b0).acc = .descriptor ∧ descOk (desc 3) = true ∧ descOk (desc 2) = false) ∧
    (let s := due_ (bed .stopping) (.descriptor .b0)
     engineHas s (req (.descriptor .b0)) ∧ (runOf s .b0).hand = some hand ∧ (runOf s .b0).state ≠ .accepting ∧
       (runOf s0 .b0).hand = none ∧ (runOf (bed .accepting) .b0).acc ≠ .descriptor) := by
  decide +kernel

def endStep : Line := line [(0, 1, 7)]
def listHand (n : Nat) : Hand := { hand with order := line [(0xC, 2, 101), (0x10, 2, n), (0x14, 4, 0x8000)] }
def checking (n : Nat) : State :=
  fetching (run (bed .checking) .b0 fun r => { r with chk := some .start, hand := some (listHand n) }) .check
def checkOf (n : Nat) (d : Line) : Option FormStop :=
  (checkRun (formCfg (checking n) .b0 (listHand n)) 20000 .start (listPart d 0 n)).2
theorem test_met_SegmentListRead :
    (∀ n ∈ [1, 2, 3], (checking n).path.msp = some (.fetch .b0) ∧ (runOf (checking n) .b0).fetch = some ⟨.check, 0x8000, true, false⟩ ∧
      (runOf (checking n) .b0).hand = some (listHand n) ∧ (runOf (checking n) .b0).chk = some .start ∧
      (runOf (checking n) .b0).stream.nextLine = 0 ∧ ordSteps (listHand n).order = n) ∧
    checkOf 1 (line [(0, 1, 8)]) = some ⟨0, 0, 16⟩ ∧ checkOf 1 endStep = none ∧
    checkOf 3 (line [(0, 1, 1), (32, 1, 1)]) = none ∧
    (let s := fetching (bed .burning) .stream
     s.path.msp = some (.fetch .b0) ∧ (runOf s .b0).fetch = some ⟨.stream, 0x8000, true, false⟩ ∧ (runOf s .b0).hand = some hand) ∧
    (∀ t ∈ [BedState.checking, .marking, .burning, .paused],
      (runOf (bed t) .b0).hand = some hand ∧ (runOf (bed t) .b0).fetch = none ∧ (runOf (bed t) .b0).state = t ∧
        2 * (streamOf (bed t) .b0).nextLine < ordSteps hand.order) ∧
    (∀ n ∈ [30, 31],
      (streamOf (stream (bed .burning) fun t => { t with fifo := List.replicate n 0 }) .b0).fifo.length + 2 = n + 2) ∧
    ordSteps hand.order ≤ 2 * (streamOf (stream (bed .burning) fun t => { t with nextLine := 2 }) .b0).nextLine := by
  decide +kernel

theorem test_met_ReturnAnswers :
    (let s := run (due_ s0 (.bedReturn .b0)) .b0 fun r => { r with ret := some ⟨0, true⟩ }
     engineHas s (req (.bedReturn .b0)) ∧ (runOf s .b0).ret = some ⟨0, true⟩ ∧ s.engine.deferred = []) ∧
    (let s := deferring (run (due_ s0 (.bedReturn .b0)) .b0 fun r => { r with ret := some ⟨0, true⟩, state := .waiting })
       [⟨[4], .ownerRead .b0⟩]
     engineHas s (req (.bedReturn .b0)) ∧ (runOf s .b0).ret = some ⟨0, true⟩ ∧ s.engine.deferred = [⟨[4], .ownerRead .b0⟩] ∧
       (req (.bedReturn .b0)).ticket ∉ [4] ∧ (runOf s .b0).state = .waiting ∧ (runOf s0 .b0).state ≠ .waiting) ∧
    (let s := holding (due_ s0 (.craneReturn 3)) [orderAt 3 .returning]
     engineHas s (req (.craneReturn 3)) ∧ s.crane.stock.find? (·.idx == 3) = some (orderAt 3 .returning) ∧ s.engine.deferred = [] ∧
       s.crane.ownRead = false ∧ s.cmd.mode = .run ∧ (inMode s .halt).cmd.mode = .halt) ∧
    (∀ w ∈ [ReqOf.bedReturn .b0, .craneReturn 3],
     let d : Deferred := ⟨[0], .result 0x21 0 7 0 1 0 0⟩
     let s := deferring (due_ s0 w) [d]
     engineHas s (req w) ∧ (req w).ticket = 0 ∧ s.engine.deferred = [⟨[0], .result 0x21 0 7 0 1 0 0⟩]) := by
  decide +kernel

def crane4 (id : Nat) : Line := line [(5, 1, 4), (0xC, 2, id)]
theorem test_met_CraneRingReads :
    (let s := holding (due_ s0 (.craneOwner 0)) ((List.range 7).map fun k => orderAt (k + 4) .queued)
     engineHas s (req (.craneOwner 0)) ∧ s.crane.ringPos = 0 ∧ mayTake s = true ∧ fld (line [(0, 4, 1)]).toNat 0 4 = 1 ∧
       fld (line [(0, 4, 2)]).toNat 0 4 ≠ 1) ∧
    (let s := holding (due_ s0 (.craneElement 3)) [orderAt 3 .reading]
     let r := (lineHalves (crane4 101)).1
     engineHas s (req (.craneElement 3)) ∧ s.crane.stock = [orderAt 3 .reading] ∧ (orderAt 3 .reading).idx = 3 ∧
       (orderAt 3 .reading).stage = .reading ∧ crReservedSet r = false ∧ findPlate s (crPlate r) = some 0 ∧
       (plateAt s 0).claim = .none ∧ (plateAt s 0).st ≠ .lost ∧ (plateAt s 0).loc ≠ .crane ∧ underRemnantOut s 0 = none ∧
       (plateAt s 0).suspect = false ∧ (plateAt s 0).mass ≤ param s (·.rated) 0) ∧
    crReservedSet (lineHalves (line [])).1 = true ∧ findPlate s0 (crPlate (lineHalves (crane4 104)).1) = none ∧
    (∀ g ∈ [OrderStage.returning, .queued],
     let s := holding (due_ s0 (.craneElement 3)) [orderAt 3 g]
     s.crane.stock.find? (·.idx == 3) = some (orderAt 3 g) ∧ (orderAt 3 g).stage ≠ .reading) := by
  decide +kernel

/-- The record of plate 101 and the element, for each of checks 3 to 7. -/
theorem test_met_CraneRingReads_piece :
    (plateAt (withPlate s0 0 fun p => { p with st := .lost }) 0).st = .lost ∧
    (plateAt (withPlate s0 0 fun p => { p with loc := .crane }) 0).loc = .crane ∧
    underRemnantOut (setCrane s0 { s0.crane with bank := s0.crane.bank.set .b1 [⟨.remnantOut, 0, 101, .overflow, false, false⟩] }) 0 =
      some .b1 ∧
    (∀ c ∈ [Claim.burn .b1, .lift 2, .hold 9 5, .hold 0 5], (plateAt (withPlate s0 0 fun p => { p with claim := c }) 0).claim = c) ∧
    crToken (lineHalves (line [(5, 1, 4), (0xC, 2, 101), (0xE, 2, 9)])).1 = 9 ∧ crToken (lineHalves (crane4 101)).1 ≠ 9 ∧
    (plateAt (withPlate s0 0 fun p => { p with suspect := true }) 0).suspect = true ∧
    (∀ m ∈ [20000, 20001], let s := withPlate s0 0 fun p => { p with mass := m }
      (plateAt s 0).st = .stock ∧ (plateAt s 0).mass = m ∧ param s (·.rated) 0 = 20000) := by
  decide +kernel

def craneTo' (kind n : Nat) : Raw := (lineHalves (line [(5, 1, kind), (6, 1, n), (0xC, 2, 101)])).1
/-- The destinations of checks 8 to 13, each taken and turned away. -/
theorem test_met_CraneRingReads_dest :
    (∀ n ∈ [0, 3, 4], crKind (craneTo' 1 n) = 1 ∧ crNum (craneTo' 1 n) = n ∧ crReservedSet (craneTo' 1 n) = false) ∧
    (∀ k ∈ [2, 4, 5, 6], crKind (craneTo' k 0) = k ∧ crReservedSet (craneTo' k 0) = false) ∧
    (∀ n ∈ [5, 6], crKind (craneTo' 3 n) = 3 ∧ crNum (craneTo' 3 n) = n) ∧ rackSlots s0 = 6 ∧
    present (run s0 .b3 fun r => { r with state := .absent }) .b3 = false ∧
    (plateAt (withPlate s0 0 fun p => { p with loc := .bed .b1 }) 0).loc = .bed .b1 ∧
    (present s0 .b1 = true ∧ locatedAt s0 (.bed .b1) = [] ∧ bedTakes s0 .b1 101 [.accepting] = true ∧ locatedAt s0 (.bed .b0) ≠ [] ∧
      bedTakes (run s0 .b1 fun r => { r with state := .burning }) .b1 101 [.accepting] = false) ∧
    (autoSlot s0 5000 1500 = some 3 ∧ autoSlot (setStock s0 { s0.stock with slotRes := allRacks }) 5000 1500 = none) ∧
    ((plateAt s0 0).loc = .rack 2 ∧ fitsSlot s0 0 5000 1500 = false ∧ fitsSlot s0 5 5000 1500 = true ∧ slotFree s0 5 = true ∧
      slotFree (setStock s0 { s0.stock with slotRes := allRacks }) 5 = false) ∧
    (plateAt (withPlate s0 0 fun p => { p with loc := .overflow }) 0).loc = .overflow ∧
    (∀ n ∈ [7, 8], overflowUsed (overflowed n s0) = n) ∧ (plateAt (infeeds 1 s0) 0).loc = .infeed 1 ∧
    (∀ n ∈ [3, 4], infeedCount (lostAnd n s0) = n) ∧ (∀ n, (plateAt s0 0).loc ≠ .infeed n) ∧ (plateAt s0 0).loc ≠ .scrap := by
  have h : (plateAt s0 0).loc = .rack 2 := by decide +kernel
  and_intros <;> first | decide +kernel | simp [h]

def verifying (st : VerStage) (l : List Line) (a : Option Anchor) (f : Option Line) (v : Option Verdict) : Verif :=
  { stage := st, lines := l, cand := a, first := f, table := [], changed := [], lost := 0, verdict := v }
def withVer (s : State) (v : Verif) : State := setLoader s { s.loader with ver := some v }
def headLine (len : Nat) : Line := line [(0, 4, 0x31344850), (4, 2, 1), (6, 2, len)]
theorem test_met_Verification :
    (let v := verifying .anchor [] none none none
     let s := withVer (due_ s0 (.anchorLine 0)) v
     engineHas s (req (.anchorLine 0)) ∧ s.loader.ver = some v ∧ v.lines = []) ∧
    (∀ n ∈ [512, 960], let d := headLine n
      fld d.toNat 0 4 = 0x31344850 ∧ fld d.toNat 4 2 = 1 ∧ fld d.toNat 6 2 = n ∧ n % 64 = 0) ∧
    fld (line [(0, 4, 0x31344851)]).toNat 0 4 ≠ 0x31344850 ∧
    (let v := verifying (.scan 62) [] (some anchor) (some 0) none
     let s := withVer (due_ s0 (.scanRead 62 false)) v
     engineHas s (req (.scanRead 62 false)) ∧ s.loader.ver = some v ∧ v.cand = some anchor) ∧
    (let v := verifying (.scan 62) [] (some anchor) (some 0) none
     let s := withVer (due_ s0 (.scanRead 62 true)) v
     engineHas s (req (.scanRead 62 true)) ∧ s.loader.ver = some v ∧ v.first = some 0 ∧ Plate.scan? 0 0 = some .blank ∧
       62 + 1 < anchor.capacity ∧ Plate.scan? (line [(0, 1, 4)]) 0 = none) ∧
    (∀ c ∈ [0, 1], let x : Verdict := ⟨c, false, 0, 0, 0, 1, 0, 0⟩
      let v := verifying .writing [] (some anchor) none (some x)
      let s := withVer (due_ s0 (.writeBack .verdict)) v
      engineHas s (req (.writeBack .verdict)) ∧ (req (.writeBack .verdict)).what = .writeBack .verdict ∧ s.loader.ver = some v ∧
        v.verdict = some x ∧ v.cand = some anchor) := by
  decide +kernel

/-- A field area of 512 bytes with the values of `anchor`, some of them replaced, and its checksum word. -/
def anchorFields : List (Nat × Nat × Nat) :=
  [(0, 4, 0x31344850), (4, 2, 1), (6, 2, 512), (0x10, 2, 16), (0x14, 4, 0x1000), (0x18, 4, 0x4000), (0x1C, 2, 64), (0x1E, 1, 4),
   (0x20, 4, 0x3000), (0x24, 1, 1), (0x25, 1, 10), (0x26, 1, 3), (0x27, 1, 1), (0x28, 4, 20000), (0x2C, 1, 10), (0x2D, 1, 2),
   (0x40, 1, 1), (0x42, 2, 4), (0x44, 4, 0x6000), (0x48, 2, 12000), (0x4A, 2, 4000), (0x4C, 2, 500), (0x4E, 1, 150), (0x4F, 1, 60),
   (0x50, 1, 2), (0xC0, 2, 2000), (0xC2, 2, 1000), (0xC4, 1, 2), (0xC8, 2, 6000), (0xCA, 2, 2000), (0xCC, 1, 2), (0xD0, 2, 12000),
   (0xD2, 2, 4000), (0xD4, 1, 2)]
def fieldArea (changed : List (Nat × Nat × Nat)) : Nat :=
  let x := ((anchorFields.map fun f => (changed.find? (·.1 == f.1)).getD f).map fun f => put f.1 f.2.1 f.2.2).sum
  x + put 0xC 4 (2 ^ 32 - checksum x 512)
/-- The last line of the field area is answered, the seven before it read. -/
def lastLine (x : Nat) : State × Verif × Line :=
  let v := verifying .anchor ((List.range 7).map fun k => lineOf (x >>> (512 * k))) none none none
  (withVer (due_ s0 (.anchorLine 7)) v, v, lineOf (x >>> (512 * 7)))
theorem test_met_Verification_lines :
    (let t := lastLine (fieldArea [])
     engineHas t.1 (req (.anchorLine 7)) ∧ t.1.loader.ver = some t.2.1 ∧ (7 : Nat) ≠ 0 ∧
       anchorNat (t.2.1.lines ++ [t.2.2]) = fieldArea [] ∧ fld (fieldArea []) 6 2 ≤ 64 * (7 + 1)) ∧
    64 * (6 + 1) < fld (fieldArea []) 6 2 ∧
    (∀ f ∈ [[(4, 2, 0)], [(4, 2, 1), (6, 2, 448)], [(4, 2, 1), (6, 2, 1024)], [(4, 2, 1), (6, 2, 513)]],
      let d := line ((0, 4, 0x31344850) :: f)
      fld d.toNat 0 4 = 0x31344850 ∧ (fld d.toNat 4 2 ≠ 1 ∨ fld d.toNat 6 2 < 512 ∨ 960 < fld d.toNat 6 2 ∨
        fld d.toNat 6 2 % 64 ≠ 0)) := by
  decide +kernel
def areaOf (changed : List (Nat × Nat × Nat)) : Nat × Anchor := (fieldArea changed, anchorOf (fieldArea changed))
theorem test_met_Verification_regions :
    checksum (fieldArea [] + 1) 512 ≠ 0 ∧ checksum (fieldArea []) 512 = 0 ∧
    ((bases (areaOf [(0x14, 4, 0x1001)]).2).find? (fun p => p.2.1 % 64 != 0) = some (7, 0x1001, 0)) ∧
    (∀ m ∈ [15, 4097], let a := (areaOf [(0x10, 2, m)]).2
      (∀ p ∈ bases a, p.2.1 % 64 = 0) ∧ (a.memMiB < 16 ∨ 4096 < a.memMiB)) ∧
    (∀ m ∈ [16, 4096], (areaOf [(0x10, 2, m)]).2.memMiB = m) ∧
    ((regionList 0 (areaOf [(0x44, 4, 0x1000000 - 64)]).2).find? (fun r => 1048576 * 16 < r.2.1 + r.2.2.1) =
      some (13, 0x1000000 - 64, 256, 0)) ∧
    (let a := (areaOf [(0x44, 4, 0x4000)]).2
     outsideCheck 0 a = none ∧ overlapIn (regionList 0 a) = some (7, 8, 13)) ∧
    (∀ n ∈ [2, 128], let a := (areaOf [(0x1E, 1, n)]).2
      outsideCheck 0 a = none ∧ overlapIn (regionList 0 a) = none ∧ ¬ a.craneCount ∈ [4, 8, 16, 32, 64]) ∧
    (let a := (areaOf [(0x42, 2, 6)]).2
     a.craneCount ∈ [4, 8, 16, 32, 64] ∧ overlapIn (regionList 0 a) = none ∧
       (presentBeds a).find? (fun b => !powerOfTwo (a.beds.get b).count) = some .b0) ∧
    (∀ n ∈ [0, 65], let a := (areaOf [(0x1C, 2, n)]).2
      (∀ b ∈ presentBeds a, powerOfTwo (a.beds.get b).count = true) ∧ (a.capacity < 64 ∨ 1024 < a.capacity ∨ a.capacity % 64 ≠ 0)) := by
  and_intros <;> decide +kernel
theorem test_met_Verification_values :
    (let x := areaOf [(0x27, 1, 4)]
     regionChecks 0 x.1 = none ∧ paramCheck x.1 512 x.2 = some (10, 32, 0)) ∧
    (let x := areaOf [(0x2D, 1, 4)]
     paramCheck x.1 512 x.2 = some (10, 0, 0x2D)) ∧
    (let x := areaOf [(0x40, 1, 0)]
     regionChecks 0 x.1 = none ∧ paramCheck x.1 512 x.2 = none ∧ presentBeds x.2 = []) ∧
    (let x := areaOf []
     regionChecks 0 x.1 = none ∧ paramCheck x.1 512 x.2 = none ∧ presentBeds x.2 ≠ []) := by
  and_intros <;> decide +kernel
theorem test_met_Verification_retry :
    let v := verifying .anchor [] (some anchor) none none
    (withVer s0 v).cmd.mode ≠ .startUp ∧ (withVer s0 v).loader.ver = some v ∧ v.cand = some anchor ∧
      (7, 0x1000, 4096) ∈ regionsOf 0 anchor ∧ touches (write 0x1000 1 0) 0x1000 4096 = true := by
  decide +kernel

/-- The last record is read, over a table image `t` of those before it. -/
def lastRecord (t : List Plate) : State × Verif :=
  let v := { verifying (.scan 63) [] (some anchor) (some 0) none with table := t, changed := [0] }
  (withVer (due_ s0 (.scanRead 63 true)) v, v)
def inRack (i n : Nat) : Plate := { plate with id := i, loc := .rack n }
def atInfeed (i n : Nat) : Plate := { plate with id := i, loc := .infeed n }
theorem test_met_Verification_table :
    (let t := lastRecord [plate]
     engineHas t.1 (req (.scanRead 63 true)) ∧ t.1.loader.ver = some t.2 ∧ t.2.first = some 0 ∧ Plate.scan? 0 0 = some .blank ∧
       anchor.capacity ≤ 63 + 1 ∧ queued t.1 (.writeBack .verdict) = false) ∧
    tableChecks anchor [plate, plate] = some (14, 1, 0) ∧ tableChecks anchor [inRack 1 6] = some (15, 0, 6) ∧
    tableChecks anchor [inRack 1 5, inRack 2 5] = some (15, 1, 0) ∧ tableChecks anchor [atInfeed 1 2] = some (13, 1, 2) ∧
    tableChecks anchor ((List.range 9).map fun k => { plate with id := 1 + k, loc := .overflow }) = some (13, 9, 3) ∧
    tableChecks anchor ((List.range 8).map fun k => { plate with id := 1 + k, loc := .overflow }) = none ∧
    tableChecks anchor [inRack 1 5, atInfeed 2 1, .blank] = none := by
  and_intros <;> decide +kernel

/-- The first line of `plate` as memory may hold it, with the fields `fs` beside its own. -/
def heldLine (fs : List (Nat × Nat × Nat)) : Line := plate.lines.headD 0 + line fs
/-- Of a record read: a reserved byte, a byte behind the heat number's count, a flag bit without a member, a vertex behind the count
mark nothing; a claim, a holder or an expiry does, and so does any byte of an EMPTY record (R203; log 26). -/
theorem test_scan_marks_fixups_alone :
    (∀ fs ∈ [[], [(0x34, 1, 1)], [(0x29, 1, 0x42)], [(5, 1, 2)]], Plate.scan? (heldLine fs) (line [(0, 2, 5)]) = some plate ∧
      scanChanged (heldLine fs) (line [(0, 2, 5)]) false = false) ∧
    (fixup anchor plate).2 = false ∧
    (∀ fs ∈ [[(4, 1, 1)], [(4, 1, 9)], [(6, 2, 1)], [(0x18, 4, 1)]],
      Plate.scan? (heldLine fs) 0 = some plate ∧ scanChanged (heldLine fs) 0 false = true) ∧
    (∀ l ∈ [Loc.crane, .bed .b3], let p := { plate with loc := l }
      (fixup anchor p).2 = true ∧ scanChanged (p.lines.headD 0) 0 true = true) ∧
    scanChanged 0 0 false = false ∧ scanChanged (line [(8, 2, 1)]) 0 false = true ∧ scanChanged 0 (line [(0x30, 1, 1)]) false = true := by
  decide +kernel
theorem test_met_Verification_marks :
    (let t := lastRecord [plate]
     Plate.scan? 0 (line [(0, 2, 1)]) = some .blank ∧ marksChanged 0 (line [(0, 2, 1)]) (fixup anchor .blank).2 ∧
       ¬ marksChanged 0 0 (fixup anchor .blank).2 ∧ (0 : Nat) ∈ t.2.changed) ∧
    (let v := verifying (.scan 62) [] (some anchor) (some (heldLine [(4, 1, 3)])) none
     let s := withVer (due_ s0 (.scanRead 62 true)) v
     engineHas s (req (.scanRead 62 true)) ∧ s.loader.ver = some v ∧ v.first = some (heldLine [(4, 1, 3)]) ∧
       Plate.scan? (heldLine [(4, 1, 3)]) 0 = some plate ∧ marksChanged (heldLine [(4, 1, 3)]) 0 (fixup anchor plate).2 ∧
       Plate.scan? (heldLine []) 0 = some plate ∧ ¬ marksChanged (heldLine []) 0 (fixup anchor plate).2) := by
  decide +kernel

/-! Requests of the beds -/

def looking (again : Bool) : State := run (bed .accepting) .b0 fun r => { r with acc := .lookup again }
theorem test_met_LookupAndIdReserve :
    (∀ again ∈ [true, false],
      (runOf (looking again) .b0).hand = some hand ∧ (runOf (looking again) .b0).state = .accepting ∧
        (runOf (looking again) .b0).acc = .lookup again) ∧
    (let s := setStock (looking true) { s0.stock with table := [] }
     findPlate s (ordPlate hand.order) = none) ∧
    (let s := looking true
     findPlate s (ordPlate hand.order) = some 0 ∧ (plateAt s 0).st = .stock ∧ (plateAt s 0).thickness ≤ (bedCfg s .b0).thick ∧
       bedOccupied s .b0 (ordPlate hand.order) = true) ∧
    (∀ t ∈ [PlateState.skeleton, .lost],
      let s := withPlate (looking true) 0 fun p => { p with st := t }
      findPlate s (ordPlate hand.order) = some 0 ∧ (plateAt s 0).st = t) ∧
    (let s := withPlate (looking true) 0 fun p => { p with thickness := 501 }
     (plateAt s 0).st = .stock ∧ (bedCfg s .b0).thick < (plateAt s 0).thickness) ∧
    (let s := withPlate (withPlate (looking true) 1 fun _ => .blank) 0 fun p => { p with thickness := 500, suspect := true }
     findPlate s (ordPlate hand.order) = some 0 ∧ (plateAt s 0).thickness ≤ (bedCfg s .b0).thick ∧
       bedOccupied s .b0 (ordPlate hand.order) = false ∧ (plateAt s 0).suspect = true ∧ (plateAt s 0).loc ≠ .bed .b0) ∧
    (let s := withPlate (withPlate (looking true) 1 fun _ => .blank) 0 fun p => { p with suspect := true, loc := .bed .b0 }
     findPlate s (ordPlate hand.order) = some 0 ∧ bedOccupied s .b0 (ordPlate hand.order) = false ∧ (plateAt s 0).loc = .bed .b0) ∧
    (∀ f ∈ [([(0x10, 2, 4), (0x14, 4, 0x8000)], true), ([(0x10, 2, 4), (0x14, 4, 0x1000000 - 128)], true),
        ([(0x10, 2, 4), (0x14, 4, 0x1000000 - 64)], false), ([(0x10, 2, 4), (0x14, 4, 0x4000)], false),
        ([(0x14, 4, 0x8000)], true), ([(0x14, 4, 0x1000000)], true), ([(0x14, 4, 0x1000040)], false),
        ([(0x10, 2, 4), (0x12, 1, 64), (0x14, 4, 0x8000), (0x18, 4, 0x9000)], true),
        ([(0x10, 2, 4), (0x12, 1, 65), (0x14, 4, 0x8000), (0x18, 4, 0x9000)], true),
        ([(0x10, 2, 4), (0x12, 1, 1), (0x14, 4, 0x8000), (0x18, 4, 0x9001)], false)],
      let o := line f.1
      (listAddressOk (looking false) (ordSegAddr o) (32 * ordSteps o) &&
        (ordMarks o == 0 || listAddressOk (looking false) (ordMarkAddr o) (32 * ordMarks o))) = f.2) ∧
    (listAddressOk (looking false) 0xA000 64 = true ∧ listAddressOk (looking false) 0xA020 64 = false) ∧
    (∀ id ∈ [101, 300],
      let d := line [(0, 2, id)]
      let s := run (bed .accepting) .b0 fun r => { r with acc := .reserve, hand := some { hand with desc := some d } }
      (runOf s .b0).hand = some { hand with desc := some d } ∧ (runOf s .b0).state = .accepting ∧ (runOf s .b0).acc = .reserve ∧
        idTaken s (descId d) = (id == 101) ∧ (hand.look.map (·.away)).getD false = false) := by
  decide +kernel

def asking (f : Plate → Plate) : State := withPlate (run (bed .accepting) .b0 fun r => { r with acc := .burn }) 0 f
theorem test_met_BurnRequest :
    (runOf (asking id) .b0).hand = some hand ∧ (runOf (asking id) .b0).state = .accepting ∧ (runOf (asking id) .b0).acc = .burn ∧
    holds (asking fun p => { p with id := 300 }) (lookIx hand) (ordPlate hand.order) = false ∧
    holds (asking id) (lookIx hand) (ordPlate hand.order) = true ∧ (plateAt (asking fun p => { p with st := .lost }) 0).st = .lost ∧
    (plateAt (asking id) 0).claim = .none ∧ underRemnantOut (asking id) (lookIx hand) = none ∧
    (let s := asking id
     let s := setCrane s { s.crane with bank := s.crane.bank.set .b1 [⟨.remnantOut, 0, 101, .overflow, false, false⟩] }
     (underRemnantOut s (lookIx hand)).isSome = true) ∧
    (let h := { hand with order := line [(0xC, 2, 101), (0xE, 2, 9)] }
     let s := run (asking fun p => { p with claim := .hold 9 5 }) .b0 fun r => { r with hand := some h }
     holds s (lookIx h) (ordPlate h.order) = true ∧ (plateAt s (lookIx h)).claim = .hold 9 5 ∧ (9 : BitVec 16) = ordToken h.order) ∧
    ((plateAt (asking fun p => { p with claim := .hold 9 5 }) 0).claim = .hold 9 5 ∧ (9 : BitVec 16) ≠ ordToken hand.order) ∧
    (∀ b ∈ [BedId.b0, .b1],
      let s := asking fun p => { p with claim := .burn b }
      let s := setStock s { s.stock with releases := [⟨0, 101, .burn .b0⟩] }
      holds s (lookIx hand) (ordPlate hand.order) = true ∧ (plateAt s (lookIx hand)).claim = .burn b) ∧
    (plateAt (asking fun p => { p with claim := .lift 3 }) 0).claim = .lift 3 := by
  decide +kernel

def releasing (c : Claim) (f : Plate → Plate) : State :=
  withPlate (setStock s0 { s0.stock with releases := [⟨0, 101, c⟩] }) 0 f
def locking (es : List LockEntry) (ws : List (BedId × List (Nat × Nat))) : State :=
  setLocks (run (bed .accepting) .b0 fun r => { r with acc := .lockReq }) ⟨es, ws⟩
theorem test_met_ClaimReleaseAndLockRequest :
    (let s := releasing (.lift 3) fun p => { p with claim := .lift 3 }
     s.stock.releases = [⟨0, 101, .lift 3⟩] ∧ holds s 0 101 = true ∧ (plateAt s 0).claim = .lift 3) ∧
    (let s := releasing (.lift 3) id
     (plateAt s 0).claim ≠ .lift 3) ∧
    (let es : List LockEntry := (List.range 4).map fun k => ⟨0x10000 + 64 * k, 64, [.b1]⟩
     let s := locking es []
     (runOf s .b0).hand = some hand ∧ (runOf s .b0).state = .accepting ∧ (runOf s .b0).acc = .lockReq ∧ s.locks.waits = [] ∧
       lockRoom s.locks.entries (orderRanges hand.order) = true) ∧
    (let es : List LockEntry := (List.range 5).map fun k => ⟨0x10000 + 64 * k, 64, [.b1]⟩
     lockRoom (locking es []).locks.entries (orderRanges hand.order) = false) ∧
    (locking [] [(.b1, [])]).locks.waits ≠ [] ∧
    (∀ ws ∈ [[], [(0, BedId.b0)]], let s := run (bed .accepting) .b0 fun r => { r with acc := .claimWait }
      let s := setStock s { s0.stock with waiters := ws }
      (runOf s .b0).state = .accepting ∧ (runOf s .b0).acc = .claimWait ∧ s.stock.waiters = ws) ∧
    (∀ es ∈ [[], [(⟨0x8000, 128, [.b0]⟩ : LockEntry)]], let s := run (locking es []) .b0 fun r => { r with acc := .lockWait }
      (runOf s .b0).hand = some hand ∧ (runOf s .b0).state = .accepting ∧ (runOf s .b0).acc = .lockWait ∧
        s.locks.owns .b0 = !es.isEmpty) := by
  decide +kernel
/-- A release of B0 with 4 beds waiting: B0 leaves the list, the two beds whose ranges fit are granted, the next is not. -/
theorem test_met_lockRelease :
    let r (k : Nat) : Nat × Nat := (0x20000 + 64 * k, 64)
    let es : List LockEntry := (List.range 6).map fun k => ⟨0x10000 + 64 * k, 64, if k < 3 then [.b0] else [.b3]⟩
    let l : Locks := ⟨es, [(.b1, [r 1, r 2]), (.b0, [r 3]), (.b2, [r 1, r 4]), (.b3, [r 5])]⟩
    l.waits.length ≤ 4 ∧ (l.release .b0).waits = [(.b3, [r 5])] ∧ (l.release .b0).entries.length = 6 ∧
      ((l.release .b0).entries.filter (fun e => e.addr == 0x20040)).map (·.owners) = [[.b1, .b2]] := by
  decide +kernel

def arbiter (s : State) (f : Arbiter → Arbiter) : State := setArb s (f s.arb)
theorem test_met_PermitRequestAndGrant :
    (let s := run s0 .b0 fun r => { r with permitAsk := true }
     (runOf s .b0).permitAsk = true ∧ s.arb.pool = some 1 ∧ s.cmd.mode = .run ∧ s.arb.waits = [] ∧ s.arb.holders.length < 1 ∧
       (inMode s .hold).cmd.mode ≠ .run ∧ 1 ≤ (arbiter s fun a => { a with holders := [.b1] }).arb.holders.length) ∧
    (∀ t ∈ [BedState.burning, .stopping],
      let s := arbiter (bed t) fun a => { a with grants := [.b0] }
      s.arb.grants.contains .b0 = true ∧ s.arb.ended.contains .b0 = false ∧ (runOf s .b0).hand.isSome = true ∧
        (runOf s .b0).state = t ∧ (arbiter s fun a => { a with ended := [.b0] }).arb.ended.contains .b0 = true) ∧
    (let s := stream (bed .burning) fun t => { t with held := some (stepAt kPIERCE 0) }
     (runOf s .b0).state = .burning ∧ (streamOf s .b0).form = none ∧ (nextPierce (streamOf s .b0)).isSome = true ∧
       (runOf s .b0).permit = false ∧ BedId.b0 ∉ s.arb.waits ∧ BedId.b0 ∉ s.arb.grants ∧ BedId.b0 ∉ s.arb.holders) ∧
    (let s := arbiter s0 fun a => { a with grants := [.b0] }
     s.arb.grants.contains .b0 = true ∧ (runOf s .b0).hand = none ∧ s.arb.waits = []) := by
  decide +kernel

def piercing (synth sent : Bool) : State :=
  arbiter (stream (run (bed .burning) .b0 fun r => { r with permit := true }) fun t =>
    { t with held := if synth then none else some (stepAt kPIERCE 0), resend := if synth then [stepAt kLINE 0] else [], synth := synth,
             lastPierce := some (stepAt kPIERCE 0).step, pierceSent := sent })
    fun a => { a with offer := some .b0, tokenWaits := [.b0, .b1] }
theorem test_met_Token :
    (let s := run s0 .b0 fun r => { r with tokenAsk := true }
     (runOf s .b0).tokenAsk = true ∧ s.arb.tokenWaits = [] ∧ s.cmd.mode = .run ∧ s.arb.token = none ∧ s.arb.offer = none ∧
       (arbiter s fun a => { a with tokenWaits := [.b1] }).arb.tokenWaits ≠ []) ∧
    (let s := run s0 .b0 fun r => { r with readyRpt := true }
     let w := arbiter s fun a => { a with tokenWaits := [.b0] }
     (runOf s .b0).readyRpt = true ∧ s.arb.tokenWaits.head? ≠ some .b0 ∧ w.arb.tokenWaits.head? = some .b0 ∧ w.cmd.mode = .run ∧
       w.arb.token = none ∧ w.arb.offer = none) ∧
    (∀ synth ∈ [true, false], ∀ sent ∈ [true, false],
      let s := piercing synth sent
      s.arb.offer = some .b0 ∧ s.arb.offerLeft = false ∧ s.arb.tokenWaits.contains .b0 = true ∧ readyNow s .b0 = true ∧
        (nextPierce (streamOf s .b0)).map (·.synth) = some synth ∧ (streamOf s .b0).pierceSent = sent ∧
        (runOf s .b0).hand = some hand ∧ holds s (lookIx hand) (ordPlate hand.order) = true ∧ (plateAt s (lookIx hand)).st = .stock) ∧
    (let s := arbiter s0 fun a => { a with offer := some .b0, tokenWaits := [.b0] }
     s.arb.offer = some .b0 ∧ s.arb.offerLeft = false ∧ s.arb.tokenWaits.contains .b0 = true ∧ readyNow s .b0 = false) ∧
    (let s := run (stream (bed .burning) fun t => { t with held := some (stepAt kPIERCE 0) }) .b0 fun r => { r with permit := true }
     (nextPierce (streamOf s .b0)).isSome = true ∧ (streamOf s .b0).pausing = false ∧ (runOf s .b0).permit = true ∧
       s.arb.token ≠ some .b0 ∧ BedId.b0 ∉ s.arb.tokenWaits) ∧
    (let s := arbiter s0 fun a => { a with offer := some .b0, offerLeft := true, tokenWaits := [.b1, .b0] }
     s.arb.offer = some .b0 ∧ s.arb.offerLeft = true ∧ s.arb.tokenWaits = .b1 :: [.b0] ∧ s.cmd.mode = .run ∧ s.arb.token = none) ∧
    (let s := arbiter s0 fun a => { a with offer := some .b0, tokenWaits := [.b1] }
     s.arb.tokenWaits.contains .b0 = false ∧ s.arb.tokenWaits = .b1 :: [] ∧ s.cmd.mode = .run ∧ s.arb.token = none) := by
  refine ⟨by decide +kernel, by decide +kernel, ?_, by decide +kernel, by decide +kernel, by decide +kernel, by decide +kernel⟩
  intro synth _ sent _
  cases synth <;> cases sent <;> decide +kernel

def markIn (st : MarkState) (n : Nat) : Mark := ⟨aMark, st, n, .none, false⟩
def marking (st : MarkState) (n : Nat) : State :=
  marks (bed .marking) fun m => { m with table := [markIn st n], begun := true, heatAsk := some 0, limit := some 0 }
theorem test_met_MarksAnswered :
    (let s := marking .pending 0
     (runOf s .b0).marks.heatAsk = some 0 ∧ markDue (runOf s .b0) = some 0 ∧
       (runOf s .b0).marks.table[0]? = some (markIn .pending 0) ∧ (runOf s .b0).hand = some hand ∧
       hand.look = some ⟨0, 100, 5000, 1500, false⟩ ∧ (plateAt s 0).heatLen ≠ 0 ∧ isLive s .b0 = true ∧
       (plateAt (withPlate s 0 fun p => { p with heatLen := 0 }) 0).heatLen = 0) ∧
    (∀ n ∈ [1, 2],
      let s := at_ (marking .sent n) 20000
      sentMark (runOf s .b0) = some 0 ∧ (runOf s .b0).marks.table[0]? = some (markIn .sent n) ∧ isLive s .b0 = true ∧
        (runOf s .b0).marks.limit = some 0 ∧ 20000 ≤ (s.clock - 0).toNat ∧ 1 + param s (·.retries) 0 = 2) := by
  decide +kernel
theorem test_met_MarksAnswered_marking :
    (∀ heat ∈ [0, 1], let x : Mark := ⟨aMark + BitVec.ofNat 256 (put 7 1 heat), .pending, 0, .none, false⟩
     let s := marks (bed .marking) fun m => { m with table := [markIn .done 1, x], begun := true, cursor := 1 }
     (runOf s .b0).state = .marking ∧ (streamOf s .b0).pausing = false ∧ (runOf s .b0).marks.pass = none ∧
       (∀ x ∈ (runOf s .b0).marks.table, x.st ≠ .sent) ∧ (runOf s .b0).marks.table[1]? = some x ∧ markAddHeat x.raw = (heat == 1) ∧
       isLive s .b0 = true) ∧
    (let s := marks (bed .marking) fun m => { m with table := [markIn .done 1, markIn .failed 2, markIn .waived 2], begun := true }
     ∀ x ∈ (runOf s .b0).marks.table.drop 0, x.st = .done ∨ x.st = .failed ∨ x.st = .waived) ∧
    (∀ t ∈ [MarkState.sent, .pending],
      let s := marks (bed .paused) fun m => { m with table := [markIn .failed 1, markIn t 1], begun := true, pass := some .waiting }
      (runOf s .b0).marks.pass = some .waiting ∧ ((∃ x ∈ (runOf s .b0).marks.table, x.st = .sent) ↔ t = .sent)) ∧
    (∀ t ∈ [MarkState.done, .failed, .pending],
      let s := marks (bed .paused) fun m => { m with table := [markIn t 1], begun := true, pass := some (.chosen [0]) }
      (runOf s .b0).marks.pass = some (.chosen [0]) ∧ (markAt (runOf s .b0).marks 0).st = t) := by
  and_intros <;> decide +kernel

def creating (d : Option Line) (f : Stock → Stock) : State :=
  let s := run (bed .unloading) .b0 fun r => { r with hand := some { hand with desc := d } }
  let s := withPlate s 0 fun p => { p with st := .skeleton, loc := .bed .b0 }
  setStock s (f s.stock)
def small : Line := line [(0, 2, 300), (2, 1, 3), (4, 4, 10), (0x14, 4, 2000), (0x18, 4, 2000 + 1000 * 65536)]
def overs (n : Nat) : List OverRes := List.replicate n ⟨300, .host 1⟩
theorem test_met_RemnantCreation :
    (∀ n ∈ [0, 1],
      let d : Option Line := if n = 0 then none else some small
      let s := creating d id
      (runOf s .b0).hand = some { hand with desc := d } ∧ (runOf s .b0).state = .unloading ∧ (runOf s .b0).unl = .creation ∧
        holds s (lookIx hand) (ordPlate hand.order) = true ∧ (plateAt s (lookIx hand)).st ≠ .stock) ∧
    (let s := creating (some small) id
     lowestEmpty s = some 3 ∧ autoSlot s (descLength small) (descWidth small) = some 0) ∧
    (∀ n ∈ [7, 8],
      let s := creating (some small) fun k => { k with slotRes := allRacks, overRes := overs n }
      autoSlot s (descLength small) (descWidth small) = none ∧ overflowUsed s = n) ∧
    lowestEmpty (creating (some small) fun k => { k with table := k.table.take 3 }) = none ∧
    (let s := withPlate (creating (some small) id) 0 fun p => { p with st := .stock }
     (runOf s .b0).hand = some { hand with desc := some small } ∧ (runOf s .b0).unl = .creation ∧ (plateAt s (lookIx hand)).st = .stock ∧
       holds (withPlate s 0 fun _ => .blank) (lookIx hand) (ordPlate hand.order) = false) ∧
    (let s := run (bed .unloading) .b0 fun r => { r with unl := .posted }
     let q : BedReq := ⟨.skeletonOut, 0, 101, .scrap, false, false⟩
     (runOf s .b0).hand = some hand ∧ (runOf s .b0).state = .unloading ∧ (runOf s .b0).unl = .posted ∧ liveRequests s .b0 = false ∧
       liveRequests (setCrane s { s.crane with bank := s.crane.bank.set .b0 [q] }) .b0 = true) := by
  decide +kernel

theorem test_met_CraneRequests :
    (let q : BedReq := ⟨.loadBed, 0, 101, .bed .b0, false, false⟩
     (setCrane s0 { s0.crane with inbox := s0.crane.inbox.set .b0 [.post q] }).crane.inbox.get .b0 = [.post q]) ∧
    (let q : BedReq := ⟨.loadBed, 0, 101, .bed .b0, false, false⟩
     let s := setCrane s0 { s0.crane with inbox := s0.crane.inbox.set .b0 [.withdraw], bank := s0.crane.bank.set .b0 [q] }
     s.crane.inbox.get .b0 = [.withdraw] ∧ q ∈ s.crane.bank.get .b0 ∧ q.inFlight = false) ∧
    (let s := withPlate (withPlate (bed .staging) 1 fun _ => .blank) 0 fun p => { p with loc := .bed .b0 }
     (runOf s .b0).hand = some hand ∧ plateHere s .b0 hand = true ∧ otherHere s .b0 (ordPlate hand.order) = false ∧
       zoneOf s .b0 = .free ∧ s.cmd.mode = .run ∧ zoneOf (setZone s .b0 .crane) .b0 ≠ .free ∧ (inMode s .hold).cmd.mode ≠ .run) ∧
    (let s := withPlate (bed .staging) 0 fun p => { p with loc := .bed .b0 }
     plateHere s .b0 hand = true ∧ otherHere s .b0 (ordPlate hand.order) = true) ∧
    (let q : BedReq := ⟨.loadBed, 0, 101, .bed .b0, false, false⟩
     let s := bed .staging
     plateHere s .b0 hand = false ∧ hasRequests s .b0 = false ∧
       hasRequests (setCrane s { s.crane with bank := s.crane.bank.set .b0 [{ q with orphan := true }] }) .b0 = true) ∧
    (∀ o ∈ [true, false], let q : BedReq := ⟨.loadBed, 0, 101, .bed .b0, true, o⟩
      let m := { move with req := .bed .b0 .loadBed 101 }
      let s := setCrane (crane .dispatched m) { (crane .dispatched m).crane with bank := s0.crane.bank.set .b0 [q] }
      m.req = .bed .b0 .loadBed 101 ∧ s.crane.bank.get .b0 = q :: [] ∧ q.inFlight = true ∧ q.orphan = o) := by
  decide +kernel

/-! Gantries -/

/-- A live bed hears its gantry in every state but ABSENT. -/
theorem test_met_bedHears : ∀ t ∈ bedStates, bedHears (bed t) .b0 t ∧ (runOf (bed t) .b0).hand = some hand := by decide +kernel

def drawing (t : BedState) (k : Nat) : State := stream (bed t) fun x => { x with window := [stepAt k 3], seq := 4, anySent := true }
theorem test_met_StepDone :
    (∀ k ∈ [kPIERCE, kTORCH_OFF, kLINE, kEND],
      bedHears (drawing .burning k) .b0 .burning ∧ (streamOf (drawing .burning k) .b0).window = [stepAt k 3] ∧ (stepAt k 3).seq = 3) ∧
    (let s := run (drawing .burning kPIERCE) .b0 fun r => { r with pierce := some ⟨0, 3⟩ }
     (runOf s .b0).pierce = some ⟨0, 3⟩) ∧
    (streamOf (drawing .burning kLINE) .b0).window.head?.map (·.seq) ≠ some 4 ∧
    (streamOf (bed .marking) .b0).window.head?.map (·.seq) ≠ some 0 ∧
    (∀ k ∈ [kLINE, kEND], bedHears (drawing .stopping k) .b0 .stopping ∧ (streamOf (drawing .stopping k) .b0).window = [stepAt k 3] ∧
      (runOf (drawing .stopping k) .b0).hand = some hand) := by
  decide +kernel
def freeing : Entry := { stepAt kLINE 0 with step := { (stepAt kLINE 0).step with frees := some 0 } }
/-- A stream about to send an entry of its resend list, the step held, or a step drawn, with a mark in some state. -/
def sending (f : Stream → Stream) (o : Line) (st : MarkState) : State :=
  run (marks (stream (bed .burning) f) fun m => { m with table := [markIn st 2], begun := true }) .b0 fun r =>
    { r with hand := some { hand with order := o } }
def strictOrder : Line := order
def looseOrder : Line := line [(5, 1, 1), (0xC, 2, 101), (0x10, 2, 4), (0x12, 1, 1), (0x14, 4, 0x8000), (0x18, 4, 0x9000)]
theorem test_met_StepDone_pump :
    (∀ f ∈ [fun t : Machine.Stream => { t with resend := [freeing] }, fun t => { t with held := some freeing }],
      ∀ p ∈ [(strictOrder, MarkState.done, Interlock.pass), (strictOrder, .failed, .hold), (looseOrder, .failed, .unmarked 0)],
        let s := sending f p.1 p.2.1
        maySend s .b0 = true ∧ nextPierce (streamOf s .b0) = none ∧ (streamOf s .b0).synth = false ∧
          interlock (runOf s .b0) freeing.step = p.2.2) ∧
    (∀ d ∈ [(1, some kRAPID), (2, some kPIERCE), (8, none), (6, none)],
      let s := sending (fun t => { t with fifo := [BitVec.ofNat 256 (put 0 1 d.1)] }) order .done
      let out := draw (formCfg s .b0 hand) (!fullCheck s .b0 hand) (streamOf s .b0).cursor (streamOf s .b0).fifo.head?
      maySend s .b0 = true ∧ nextPierce (streamOf s .b0) = none ∧ (streamOf s .b0).resend = [] ∧ (streamOf s .b0).held = none ∧
        (streamOf s .b0).endSent = false ∧
        (match out.1 with | .step e => some e.step.kind | _ => none) = (if d.1 = 8 then some 8 else d.2) ∧ (d.1 = 6 → out.1 = .taken)) ∧
    (let c : FormCfg := formCfg s0 .b0 hand
     formCode c Cursor.start.geo Cursor.start.recent Cursor.start.idx (BitVec.ofNat 256 (put 0 1 8)) = some 16 ∧
     Cursor.start.exp = none ∧ (draw c true .start (some (BitVec.ofNat 256 (put 0 1 8)))).1 = .bad ⟨0, 0, 16⟩ ∧ (draw c true .start none).1 = .wait) ∧
    fullCheck (setLoader s0 { s0.loader with inForce := some { anchor with beds := .const { bedEntry 0x6000 with full := false } } }) .b0
      hand = false ∧
    maySend (bed .paused) .b0 = false ∧ (nextPierce (streamOf (piercing false false) .b0)).isSome = true := by
  refine ⟨?_, by decide +kernel, by decide +kernel, by decide +kernel, by decide +kernel, by decide +kernel⟩
  intro f hf
  simp only [List.mem_cons, List.not_mem_nil, or_false] at hf
  rcases hf with rfl | rfl <;> decide +kernel

theorem test_met_PierceEnds :
    ∀ t ∈ [BedState.burning, .stopping],
      let s := at_ (run (bed t) .b0 fun r => { r with pierce := some ⟨0, 3⟩ }) 8000
      (runOf s .b0).pierce = some ⟨0, 3⟩ ∧ bedHears s .b0 t ∧ 8000 ≤ (s.clock - 0).toNat ∧ (runOf s .b0).pause = 0 := by
  decide +kernel

theorem test_met_ArcMonitor :
    (let s := drawing .burning kLINE
     bedHears s .b0 .burning ∧ (streamOf s .b0).window = stepAt kLINE 3 :: [] ∧ (stepAt kLINE 3).step.kind = kLINE ∧
       (stepAt kLINE 3).synth = false ∧ (bedCfg s .b0).arcN = 2 ∧ (bedCfg s .b0).arcHigh = 150 ∧ (bedCfg s .b0).arcLow = 60 ∧
       (runOf s .b0).arc = ⟨0, 0⟩) ∧
    ((151 : Byte).toNat = 151 ∧ (150 : Byte).toNat = 150 ∧ (60 : Byte).toNat = 60 ∧ (59 : Byte).toNat = 59) ∧
    (let s := run (drawing .burning kARC) .b0 fun r => { r with arc := ⟨1, 1⟩ }
     2 ≤ (runOf s .b0).arc.high + 1 ∧ 2 ≤ (runOf s .b0).arc.low + 1 ∧ (stepAt kARC 3).step.kind = kARC) ∧
    (∀ t ∈ [BedState.marking, .burning], bedHears (bed t) .b0 t ∧ (streamOf (bed t) .b0).window = []) ∧
    ((stepAt kRAPID 3).step.kind ≠ kLINE ∧ (stepAt kRAPID 3).step.kind ≠ kARC ∧
      (streamOf (drawing .burning kRAPID) .b0).window = stepAt kRAPID 3 :: []) := by
  decide +kernel

theorem test_met_BedLink :
    present s0 .b0 = true ∧ isLive s0 .b0 = false ∧
    (∀ t ∈ bedStates, bedHears (at_ (bed t) 50) .b0 t ∧
      50 ≤ ((at_ (bed t) 50).clock - (bedOf (at_ (bed t) 50) .b0).lk.since).toNat) ∧
    Instr.gantryHold .b0 ∈ gantryMessages .b0 0 0 0 := by
  decide +kernel

theorem test_met_PausedAndStopped :
    (∀ t ∈ [BedState.burning, .marking],
      let s := stream (drawing t kLINE) fun x => { x with pausing := true }
      bedHears s .b0 t ∧ (streamOf s .b0).pausing = true ∧ pausedNumberOk (streamOf s .b0) 3 = true ∧
        trimEnds (streamOf s .b0) 3 = false ∧ (streamOf s .b0).form = none ∧ pausedNumberOk (streamOf s .b0) 4 = false) ∧
    (streamOf (bed .burning) .b0).pausing = false ∧
    (let s := at_ (run (bed .stopping) .b0 fun r => { r with stop := some ⟨.stopped, 0⟩ }) 10000
     bedHears s .b0 .stopping ∧ s.cmd.mode ≠ .resetting ∧ (runOf s .b0).hand = some hand ∧
       (runOf s .b0).stop = some ⟨.stopped, 0⟩ ∧ 10000 ≤ (s.clock - 0).toNat) ∧
    ((runOf (bed .paused) .b0).state = .paused ∧ (runOf (bed .paused) .b0).pause = 0 ∧ (runOf (bed .paused) .b0).marks.pass = none) ∧
    (∀ k ∈ [kLINE, kARC, kRAPID], let t : Machine.Stream :=
        { Stream.empty with synth := true, resend := [stepAt k 0], lastPierce := some (stepAt kPIERCE 0).step }
      t.synth = true ∧ firstAfterPause t = some (k, 0, 0) ∧ t.lastPierce.isSome = true) := by
  decide +kernel
def formStopped (t : BedState) : State :=
  stream (drawing t kLINE) fun x => { x with pausing := true, form := some ⟨65535, 255, 1⟩ }
theorem test_met_PausedAndStopped_form :
    ∀ t ∈ [BedState.burning, .marking],
      bedHears (formStopped t) .b0 t ∧ (streamOf (formStopped t) .b0).pausing = true ∧
        pausedNumberOk (streamOf (formStopped t) .b0) 2 = true ∧ trimEnds (streamOf (formStopped t) .b0) 2 = false ∧
        (streamOf (formStopped t) .b0).form = some ⟨65535, 255, 1⟩ ∧ (runOf (formStopped t) .b0).hand = some hand := by
  decide +kernel
def stoppingInReset (t : Word) : State :=
  inMode (at_ (run (bed .stopping) .b0 fun r => { r with stop := some ⟨.abortedReset, 0⟩ }) t) .resetting
theorem test_met_PausedAndStopped_reset :
    bedHears (stoppingInReset 50) .b0 .stopping ∧ (stoppingInReset 50).cmd.mode = .resetting ∧
    (runOf (stoppingInReset 50) .b0).stop = some ⟨.abortedReset, 0⟩ ∧
    50 ≤ ((stoppingInReset 50).clock - (bedOf (stoppingInReset 50) .b0).lk.since).toNat ∧
    (runOf (stoppingInReset 10000) .b0).stop = some ⟨.abortedReset, 0⟩ ∧ 10000 ≤ ((stoppingInReset 10000).clock - 0).toNat := by
  decide +kernel

/-! Crane -/

theorem test_met_CraneMove :
    (∀ t ∈ [CraneState.dispatched, .lifting, .travelling, .setting],
      craneHears (crane t move) move t ∧ holds (crane t move) move.ix move.plate = true ∧ move.ix < (crane t move).stock.table.length ∧
        move.abort = false ∧ move.req = .host 1 ∧ move.live = true ∧ move.dst = .overflow) ∧
    (crane .dispatched move).crane.refusals + 1 < 3 ∧
    (let s := crane .dispatched move
     3 ≤ (setCrane s { s.crane with refusals := 2 }).crane.refusals + 1) ∧
    (∀ w ∈ [(900 : Nat), 1100], outsideTolerance (crane .lifting move) move w = false) ∧
    (∀ w ∈ [(899 : Nat), 1101], outsideTolerance (crane .lifting move) move w = true) ∧
    (∀ l ∈ [Loc.rack 0, .bed .b1, .scrap], craneHears (crane .setting { move with dst := l }) { move with dst := l } .setting) ∧
    (∀ c ∈ [true, false],
      let m := { move with abort := true, lifted := true, confirmed := c }
      craneHears (crane .returning m) m .returning ∧ m.src = .rack 2 ∧ holds (crane .returning m) m.ix m.plate = true) ∧
    craneHears (crane .lifting { move with abort := true }) { move with abort := true } .lifting ∧
    craneHears (crane .dispatched { move with abort := true }) { move with abort := true } .dispatched ∧
    (inMode (crane .dispatched move) .halting).cmd.mode = .halting ∧
    (let m := { move with abort := true, lifted := true, confirmed := true, massBad := true }
     let s := setCrane (crane .returning m) { (crane .returning m).crane with resetAt := some 0 }
     s.crane.lk.live = true ∧ s.crane.move = some m ∧ s.crane.resetAt = some 0 ∧ m.src = .rack 2 ∧ holds s m.ix m.plate = true) := by
  decide +kernel
/-- A SET at the infeed, of a host order behind another, and of a bed's request. -/
theorem test_met_CraneMove_set :
    (let m := { move with dst := .infeed 0 }
     let s := setStock (crane .travelling m) { (crane .travelling m).stock with infeedRes := some (.host 1) }
     craneHears s m .travelling ∧ holds s m.ix m.plate = true ∧ m.ix < s.stock.table.length ∧ s.stock.infeedRes = some m.req) ∧
    (let s := holding (crane .setting move) [orderAt 2 .queued, orderAt 1 .inFlight]
     craneHears s move .setting ∧ holds s move.ix move.plate = true ∧ move.ix < s.stock.table.length ∧ move.req = .host 1 ∧
       move.live = true ∧ s.crane.stock.find? (·.idx == 1) = some (orderAt 1 .inFlight) ∧ (plateAt s move.ix).st ≠ .lost) ∧
    (let m := { move with req := .bed .b0 .skeletonOut 101, kind := .skeletonOut, dst := .scrap }
     let q : BedReq := ⟨.skeletonOut, 0, 101, .scrap, true, false⟩
     let s := setCrane (crane .setting m) { (crane .setting m).crane with bank := (crane .setting m).crane.bank.set .b0 [q] }
     craneHears s m .setting ∧ holds s m.ix m.plate = true ∧ m.ix < s.stock.table.length ∧ m.live = true ∧
       s.crane.bank.get .b0 = q :: [] ∧ q.inFlight = true) := by
  decide +kernel
/-- A crane free to select, with a host order for slot 5 and a bed request for the scrap bay. -/
def selecting (age : Nat) (host bedReq : Bool) : State :=
  let o : StockOrder := { orderAt 1 .queued with order := BitVec.ofNat 256 (put 0xC 2 101), dest := .rack 5, age := age }
  let q : BedReq := ⟨.skeletonOut, 1, 102, .scrap, false, false⟩
  let s := setCrane s0 { s0.crane with lk := ⟨true, 0, .absent, true⟩, stock := if host then [o] else [],
                                       bank := s0.crane.bank.set .b0 (if bedReq then [q] else []) }
  setStock s { s.stock with slotRes := [⟨5, 101, .host 1⟩] }
theorem test_met_CraneMove_select :
    (∀ age ∈ [2, 3],
      let s := selecting age true true
      craneFree s = true ∧ param s (·.aging) 0 = 3 ∧ (s.crane.stock.map (hostFeasible s)) = [true] ∧
        s.crane.stock.map (·.age) = [age] ∧
        (bedsAfter s.crane.lastServed).find? (fun b => (bedFeasible s b).isSome) = some .b0 ∧ (bedFeasible s .b0).isSome = true) ∧
    (let s := selecting 2 true false
     (∀ b ∈ bedIds, bedFeasible s b = none) ∧ (s.crane.stock.find? (hostFeasible s)).isSome = true) ∧
    (let s := selecting 2 false false
     craneFree s = true ∧ (∀ b ∈ bedIds, bedFeasible s b = none) ∧ s.crane.stock = []) ∧
    craneFree s0 = false ∧ (selecting 2 true true).crane.bank.get .b0 = [⟨.skeletonOut, 1, 102, .scrap, false, false⟩] := by
  and_intros <;> decide +kernel

/-- A LOAD_BED of B0 in flight with plate 101 at CRANE, or failed. -/
def loading (t : CraneState) : State :=
  let m := { move with kind := .loadBed, req := .bed .b0 .loadBed 101, dst := .bed .b0, lifted := true }
  let s := run (crane t m) .b0 fun r => { r with state := .staging, hand := some hand }
  let s := setCrane s { s.crane with bank := s.crane.bank.set .b0 [⟨.loadBed, 0, 101, .bed .b0, true, false⟩] }
  withPlate s 0 fun p => { p with loc := .crane }
theorem test_met_CraneFaults_fault :
    (∀ t ∈ [CraneState.travelling, .faulted],
      let s := loading t
      s.crane.lk.live = true ∧ s.crane.resetAt = none ∧ s.crane.state = t ∧ s.crane.move.map (·.id) = some 5 ∧
        s.crane.move.map (fun m => (m.kind, m.ix, m.req, m.live)) = some (.loadBed, 0, .bed .b0 .loadBed 101, true) ∧
        s.stock.table[0]?.map (fun p => (p.located, p.loc)) = some (true, .crane) ∧
        (s.stock.table.zipIdx.filter (fun p => p.1.located && p.1.loc == .crane)).map (·.2) = [0] ∧
        s.crane.bank.get .b0 = [⟨.loadBed, 0, 101, .bed .b0, true, false⟩] ∧ (runOf s .b0).state = .staging ∧
        (runOf s .b0).hand = some hand) ∧
    (let s := holding (crane .lifting move) [orderAt 1 .inFlight]
     s.crane.move = some move ∧ move.req = .host 1 ∧ move.id ≠ 6 ∧ (6 : Byte) ≠ 0) := by
  decide +kernel
theorem test_met_CraneFaults :
    (s0.crane.lk.seen = false ∧ s0.crane.lk.live = false ∧ (crane .lifting move).crane.lk.seen = true) ∧
    Instr.craneArrived 5 ∈ craneMessages 5 0 .drive ∧
    (let s := at_ (crane .lifting move) 1000
     s.crane.lk.live = true ∧ s.crane.resetAt = none ∧ 1000 ≤ (s.clock - s.crane.lk.since).toNat) ∧
    (∀ p ∈ [(CraneState.dispatched, 2000), (.lifting, 90000), (.travelling, 240000), (.setting, 90000), (.returning, 330000)],
      let s := at_ (crane p.1 move) (word p.2)
      phaseLimit s.crane.state = some p.2 ∧ p.2 ≤ (s.clock - s.crane.phaseSince).toNat ∧ s.crane.resetAt = none) ∧
    (let s := crane .travelling move
     let s := at_ (setCrane s { s.crane with resetAt := some 0 }) 2000
     s.crane.resetAt = some 0 ∧ 2000 ≤ (s.clock - 0).toNat) ∧
    (∀ t ∈ [CraneState.dispatched, .lifting],
      let s := setCrane (crane t move) { (crane t move).crane with resetAt := some 0 }
      s.crane.lk.live = true ∧ s.crane.resetAt = some 0 ∧ s.crane.move = some move ∧ move.phase = none ∧ s.crane.state = t ∧
        holds s move.ix move.plate = true ∧ move.ix < s.stock.table.length ∧ (plateAt s move.ix).located = true) := by
  decide +kernel

theorem test_met_HostWatchAndHoldExpiry :
    (∀ m ∈ [Mode.run, .halt],
      let s := at_ (inMode (setFaults s0 { s0.faults with watch := some 0 }) m) 1000
      s.faults.watch = some 0 ∧ watchMs (param s (·.watch) 0) ≤ (s.clock - 0).toNat ∧
        hasBit s.faults.hall.flags fhHOST_SILENT = false ∧ s.cmd.mode = m) ∧
    (let s := at_ (withPlate s0 0 fun p => { p with claim := .hold 1 600000 }) 600000
     s.loader.inForce.isSome = true ∧ s.loader.ver = none ∧ (plateAt s 0).claim = .hold 1 600000 ∧
       (holdMs s).toNat ≤ (s.clock - (600000 - holdMs s)).toNat) := by
  decide +kernel

/-- A bed in STAGING whose plate lies in state `t` at `l`, with another piece at `l'`. -/
def stagingWith (t : PlateState) (l l' : Loc) : State :=
  withPlate (withPlate (bed .staging) 0 fun p => { p with st := t, loc := l }) 1 fun p => { p with loc := l' }
/-- The wait causes of STAGING (R56): a LOST plate is located nowhere (R3), so it is not BURIED. -/
theorem test_waitCause :
    waitCause (stagingWith .stock (.infeed 1) (.infeed 2)) .b0 = 4 ∧ waitCause (stagingWith .lost (.infeed 1) (.infeed 2)) .b0 = 3 ∧
    waitCause (stagingWith .stock (.infeed 2) (.infeed 1)) .b0 = 3 ∧ waitCause (stagingWith .stock (.bed .b0) (.bed .b0)) .b0 = 5 ∧
    waitCause (inMode (stagingWith .stock (.bed .b0) .overflow) .hold) .b0 = 6 ∧
    waitCause (stagingWith .stock (.bed .b0) .overflow) .b0 = 0 := by
  decide +kernel
/-- Bytes of a plate record and of a bed status record, at the offsets of Table 12-10 and R218. -/
theorem test_images :
    (let x := recordNat plate.lines
     fld x 0 1 = 1 ∧ fld x 2 2 = 0x0204 ∧ fld x 8 2 = 101 ∧ fld x 0xC 2 = 100 ∧ fld x 0x14 4 = 1000 ∧ fld x 0x34 12 = 0) ∧
    (let x := recordNat (recLines (bed .burning) (.bed .b0))
     fld x 0 1 = 7 ∧ fld x 0xC 2 = 101 ∧ fld x 0xE 1 = 1 ∧ fld x 5 3 = 0 ∧ fld x 0x4B 53 = 0) := by
  decide +kernel
theorem test_met_RecordImages :
    (∀ n ∈ [0, 8], (setPath s0 { s0.path with log := List.replicate n ⟨0x4000, .table, 5⟩ }).path.log.length = n) ∧
    (∀ n ∈ [0, 33, 64], (setCmd s0 { s0.cmd with snapshot := List.replicate n 7 }).cmd.snapshot.length = n) ∧
    s0.loader.inForce = some anchor ∧
    (let v := verifying .writing [] (some anchor) none (some ⟨0, false, 0, 0, 0, 1, 0, 0⟩)
     (withVer s0 v).loader.ver = some v ∧ v.cand = some anchor ∧
       (withVer s0 v).loader.ver.bind (·.verdict) = some ⟨0, false, 0, 0, 0, 1, 0, 0⟩) ∧
    (let s := setLoader s0 { s0.loader with verdict := some ⟨0, false, 0, 0, 0, 1, 0, 0⟩ }
     s.loader.ver.bind (·.verdict) = none ∧ s.loader.verdict = some ⟨0, false, 0, 0, 0, 1, 0, 0⟩) ∧
    (∀ p ∈ [(PlateState.stock, Loc.infeed 1, Loc.infeed 2), (.lost, .infeed 1, .infeed 2), (.stock, .bed .b0, .bed .b0),
        (.stock, .bed .b0, .overflow)],
      let s := stagingWith p.1 p.2.1 p.2.2
      (runOf s .b0).state = .staging ∧ (runOf s .b0).hand = some hand ∧ hand.look = some ⟨0, 100, 5000, 1500, false⟩ ∧
        zoneOf s .b0 = .free ∧ holds s 0 (ordPlate hand.order) = true ∧ (plateAt s 0).located = decide (p.1 = .stock) ∧
        (plateAt s 0).loc = p.2.1 ∧ otherHere s .b0 (ordPlate hand.order) = decide (p.2.2 = .bed .b0)) ∧
    locatedInfeed (stagingWith .stock (.infeed 1) (.infeed 2)) = 2 := by
  and_intros <;> decide +kernel

theorem test_met_TakingKeeps :
    RecId.hall ∈ statusRecords ∧ s0.loader.inForce.isSome = true ∧ content State.reset .hall ≠ content s0 .hall ∧
    (setFaults s0 { s0.faults with owed := true }).faults.owed = true ∧ s0.faults.owed = false ∧
    (∀ w ∈ [([] : List ReqOf), [.writeBack .hall]],
      let r : Result := ⟨oDONE, 0, 0, 0, [], w, none⟩
      let s := setCmd (pushWb s0 .hall) { s0.cmd with current := some ⟨0x50, 0xFF, 7, .ended⟩, owed := some r }
      s.cmd.owed = some r ∧ s.cmd.current = some ⟨0x50, 0xFF, 7, .ended⟩ ∧ r.after = none ∧
        (resultWaits s s r.waits ++ r.always.filterMap (ticketOf s) = if w = [] then [] else [0])) := by
  decide +kernel

theorem test_met_Frames :
    exec .claimRelease s0 = .next (fresh s0) ∧ insideCommand .claimRelease = true ∧ tableCommand .hostClassify = false ∧
    attentionCommand .claimRelease = false ∧ craneLinkCommand .claimRelease = false ∧
    exec (.gantryHold .b0) s0 = .next (fresh s0) ∧ Instr.gantryHold .b0 ∈ gantryMessages .b0 0 0 0 ∧ BedId.b1 ≠ .b0 := by
  refine ⟨rfl, by decide, by decide, by decide, by decide, rfl, by decide, by decide⟩

theorem test_met_StepKeeps :
    step s0 = .next (tick s0) ∧ PathBounds s0 ∧ StockBankOk s0 ∧ CountersOk s0 ∧ LocksOk s0 ∧ PermitsOk s0 := by
  refine ⟨rfl, ?_, ?_, ?_, ?_, ?_⟩ <;> simp [PathBounds, StockBankOk, CountersOk, LocksOk, PermitsOk, s0, State.reset, State.hardReset]

end Sys2Proof.Tests
end

/-! # The plate table's commands: HOLD_DROP (R22) -/

section
namespace Sys2Proof.Machine

/-! ## Writing a record of the plate table back (R16) -/

theorem queued_push_self (s : State) (w : ReqOf) (a : Nat) (d : Line) (e : BitVec 64) : queued (push s w a d e) w = true := by
  simp [queued]

theorem queued_pushWb_self (s : State) (r : RecId) : queued (pushWb s r) (.writeBack r) = true := by
  unfold pushWb
  split
  case isTrue h => exact h
  case isFalse => exact queued_push_self ..

@[simp] theorem pushWb_deferred (s : State) (r : RecId) : (pushWb s r).engine.deferred = s.engine.deferred := by
  unfold pushWb
  split
  · rfl
  · rw [push_engine]

theorem queued_setPlate_self (s : State) (i : Nat) (p : Plate) : queued (setPlate s i p) (.writeBack (.plate i)) = true :=
  queued_pushWb_self _ _

@[simp] theorem setPlate_stock (s : State) (i : Nat) (p : Plate) :
    (setPlate s i p).stock = { s.stock with table := s.stock.table.set i p } := by simp [setPlate]

@[simp] theorem setPlate_deferred (s : State) (i : Nat) (p : Plate) :
    (setPlate s i p).engine.deferred = s.engine.deferred := by simp [setPlate]

/-! ## Giving a result (R211) -/

@[simp] theorem queued_give (s : State) (o : Byte) (x y z : Nat) (l : List ReqOf) (w : ReqOf) :
    queued (give s o x y z l) w = queued s w := rfl

theorem gives_give (s : State) (o : Byte) (x y z : Nat) (l : List ReqOf) : gives (give s o x y z l) o x y z :=
  ⟨l, [], none, rfl⟩

/-! ## HOLD_DROP by its outcomes -/

/-- The parameters of HOLD_DROP, each with its number and its validity (R17, R22), and with number 0 the bytes that must be 0. -/
abbrev holdDropParams (q : Line) : List (Nat × Bool) :=
  [(1, 1 ≤ par q 0 2), (2, 1 ≤ par q 2 2), (0, parZeroBut q [(0, 4)])]

section
variable {s : State} {q : Line}

/-- With no further parameter set, the first of plate ID and token that is 0 is the parameter found invalid. -/
theorem firstInvalid_holdDropParams (hz : parZeroBut q [(0, 4)] = true) :
    firstInvalid (holdDropParams q) = if par q 0 2 = 0 then some 1 else if par q 2 2 = 0 then some 2 else none := by
  simp only [firstInvalid, hz, decide_eq_true_eq, Nat.one_le_iff_ne_zero, ite_not, if_true]

theorem holdDrop_invalid {k : Nat} (h : firstInvalid (holdDropParams q) = some k) : holdDrop s q = deny s oPARAM k 0 := by
  simp only [holdDrop, firstBad_eq, h]

/-- The hold of the token given is ended. -/
theorem holdDrop_held {i : Nat} {t : BitVec 16} {e : Word} (h : firstInvalid (holdDropParams q) = none)
    (hfind : findPlate s (par q 0 2) = some i) (hclaim : (plateAt s i).claim = .hold t e) (ht : t.toNat = par q 2 2) :
    holdDrop s q = give (setPlate s i { plateAt s i with claim := .none }) oDONE 0 0 0 (stockWaits i) := by
  simp only [holdDrop, firstBad_eq, h, hfind, hclaim, ht, beq_self_eq_true, if_true]

/-- No record, another claim and another token are told alike: no hold is found. -/
theorem holdDrop_notHeld (h : firstInvalid (holdDropParams q) = none)
    (hnot : ∀ i t e, findPlate s (par q 0 2) = some i → (plateAt s i).claim = .hold t e → t.toNat ≠ par q 2 2) :
    holdDrop s q = deny s oNOT_FOUND 0 0 := by
  simp only [holdDrop, firstBad_eq, h]
  cases hfind : findPlate s (par q 0 2) with
  | none => rfl
  | some i =>
    cases hclaim : (plateAt s i).claim with
    | hold t e => simp [hclaim, hnot i t e hfind hclaim]
    | _ => simp [hclaim]
end

end Sys2Proof.Machine

namespace Sys2Proof.Proofs
open Sys2Proof.Machine

/-- Settles O30: the outcomes of HOLD_DROP one by one. In the DONE case what the rest of the taking starts from is the record with
its claim ended and the result given: its write-back is queued, and no act is newly deferred that could raise HOLD_EXPIRED. -/
theorem holdDrop : Obligations.HoldDrop := by
  unfold Obligations.HoldDrop
  intro s q hdue hz
  have hparams := firstInvalid_holdDropParams hz
  rw [exec_holdDrop hdue]
  refine ⟨fun hzero => ?_, fun hid htok => ?_⟩
  · have hbad : firstInvalid (holdDropParams q) = some (if par q 0 2 = 0 then 1 else 2) := by
      rw [hparams]
      by_cases hid : par q 0 2 = 0
      · simp [hid]
      · simp [hid, hzero.resolve_left hid]
    rw [holdDrop_invalid hbad]
  · have hok : firstInvalid (holdDropParams q) = none := by simp [hparams, hid, htok]
    refine ⟨fun i t e hfind hclaim ht => ?_, fun hnot => ?_⟩
    · refine ⟨_, by rw [holdDrop_held hok (by simpa using hfind) (by simpa using hclaim) ht], ?_, gives_give .., ?_, ?_, ?_⟩
      · simp
      · exact queued_setPlate_self ..
      · simp
      · simp
    · rw [holdDrop_notHeld hok (by simpa using hnot)]

end Sys2Proof.Proofs
end

/-! # Commands to a bed: BED_RELEASE (R61, R62) and BED_RECOVER (R68) -/

section
namespace Sys2Proof.Machine

variable {s : State} {b : BedId}

/-! ## A command to an ABSENT bed (R65) -/

/-- The bed's presence is judged before the command's parameters and before the command itself. -/
theorem bedCommand_absent {code : Nat} {slot : Line} {used : List (Nat × Nat)} {f : State → BedId → State}
    (hdue : commandDue s code (bedNum b)) (habsent : (runOf s b).state = .absent) :
    bedCommand used (slotRead s) slot f = deny (slotRead s) oSTATE 1 0 := by
  obtain ⟨-, htarget, -⟩ := hdue
  have hpresent : present (slotRead s) b = false := by simp [present, habsent]
  simp [bedCommand, htarget, bedOf?_bedNum, hpresent]

theorem exec_bedRelease_absent {slot : Line} (hdue : commandDue s 0x24 (bedNum b)) (habsent : (runOf s b).state = .absent) :
    exec (.bedRelease slot) s = .next (settle s (deny (slotRead s) oSTATE 1 0)) :=
  (commandRow_due hdue).trans (by rw [bedCommand_absent hdue habsent])

theorem exec_bedRecover_absent {slot : Line} (hdue : commandDue s 0x25 (bedNum b)) (habsent : (runOf s b).state = .absent) :
    exec (.bedRecover slot) s = .next (settle s (deny (slotRead s) oSTATE 1 0)) :=
  (commandRow_due hdue).trans (by rw [bedCommand_absent hdue habsent])

/-! ## Posting the unloading requests (R61) -/

/-- What REMNANT_OUT adds to the postings of a bed: nothing where the remnant has no record of its own. -/
def remnantPosts (h : Hand) : List Post :=
  match h.remnant with
  | .none | .notRegistered => []
  | _ => [.post ⟨.remnantOut, h.remRec, remnantId h, h.remDest, false, false⟩]

/-- What SKELETON_OUT adds: nothing where the record of the plate looked up is no SKELETON, or no longer that plate's. -/
def skeletonPosts (s : State) (h : Hand) : List Post :=
  let i := (h.look.map (·.ix)).getD 0
  if holds s i (ordPlate h.order) = true ∧ (plateAt s i).st = .skeleton then
    [.post ⟨.skeletonOut, i, ordPlate h.order, .scrap, false, false⟩]
  else []

/-- The part of `postUnload` that posts REMNANT_OUT. -/
def postRemnant (s : State) (b : BedId) (h : Hand) : State :=
  match h.remnant with
  | .rack _ | .overflow | .scrapped => postRequest s b .remnantOut h.remRec (remnantId h) h.remDest
  | _ => s

/-- The part of `postUnload` that posts SKELETON_OUT. -/
def postSkeleton (s : State) (b : BedId) (h : Hand) : State :=
  let i := (h.look.map (·.ix)).getD 0
  if holds s i (ordPlate h.order) && (plateAt s i).st == .skeleton then postRequest s b .skeletonOut i (ordPlate h.order) .scrap
  else s

theorem postUnload_eq (s : State) (b : BedId) (h : Hand) :
    postUnload s b h = postSkeleton (postRemnant (setRun s b { runOf s b with unl := .posted }) b h) b h := by
  cases hr : h.remnant <;> simp only [postUnload, postSkeleton, postRemnant, hr]

/-- A posting joins the tail of its bed's inbox at the crane controller. -/
theorem inbox_postRequest (s : State) (b : BedId) (k : ReqKind) (i p : Nat) (l : Loc) :
    (postRequest s b k i p l).crane.inbox.get b = s.crane.inbox.get b ++ [.post ⟨k, i, p, l, false, false⟩] := by
  simp [postRequest]

theorem inbox_postRemnant (s : State) (b : BedId) (h : Hand) :
    (postRemnant s b h).crane.inbox.get b = s.crane.inbox.get b ++ remnantPosts h := by
  cases hr : h.remnant <;> simp [postRemnant, remnantPosts, hr, inbox_postRequest]

theorem inbox_postSkeleton (s : State) (b : BedId) (h : Hand) :
    (postSkeleton s b h).crane.inbox.get b = s.crane.inbox.get b ++ skeletonPosts s h := by
  by_cases hs : holds s ((h.look.map (·.ix)).getD 0) (ordPlate h.order) = true ∧
    (plateAt s ((h.look.map (·.ix)).getD 0)).st = .skeleton
  · simp [postSkeleton, skeletonPosts, hs, inbox_postRequest]
  · simp [postSkeleton, skeletonPosts, hs]

@[simp] theorem postRemnant_stock (s : State) (b : BedId) (h : Hand) : (postRemnant s b h).stock = s.stock := by
  unfold postRemnant; split <;> simp
@[simp] theorem runOf_postRemnant (s : State) (b c : BedId) (h : Hand) : runOf (postRemnant s b h) c = runOf s c := by
  unfold postRemnant; split <;> simp
@[simp] theorem runOf_postSkeleton (s : State) (b c : BedId) (h : Hand) : runOf (postSkeleton s b h) c = runOf s c := by
  unfold postSkeleton; dsimp only; split <;> simp

theorem skeletonPosts_congr {s t : State} (hstock : t.stock = s.stock) (h : Hand) : skeletonPosts t h = skeletonPosts s h := by
  unfold skeletonPosts holds plateAt
  rw [hstock]

/-- The bed's postings are the remnant's and then the skeleton's, the latter judged by the plate table as it stood before. -/
theorem inbox_postUnload (s : State) (b : BedId) (h : Hand) :
    (postUnload s b h).crane.inbox.get b = s.crane.inbox.get b ++ (remnantPosts h ++ skeletonPosts s h) := by
  have hstock : (postRemnant (setRun s b { runOf s b with unl := .posted }) b h).stock = s.stock := by simp
  rw [postUnload_eq, inbox_postSkeleton, inbox_postRemnant, setRun_crane, List.append_assoc, skeletonPosts_congr hstock]

@[simp] theorem runOf_postUnload (s : State) (b : BedId) (h : Hand) :
    runOf (postUnload s b h) b = { runOf s b with unl := .posted } := by
  simp [postUnload_eq]

/-! ## BED_RELEASE by its outcomes (R62) -/

theorem bedRelease_waiting {h : Hand} (hhand : (runOf s b).hand = some h) (hstate : (runOf s b).state = .unloading)
    (hwait : (runOf s b).unl = .release) : bedRelease s b = give (postUnload s b h) oDONE 0 0 0 [wbBed b] := by
  simp [bedRelease, hhand, hstate, hwait]

/-- With an order in hand or without one, a bed that does not wait for the release is told alike. -/
theorem bedRelease_notWaiting (hnot : (runOf s b).state ≠ .unloading ∨ (runOf s b).unl ≠ .release) :
    bedRelease s b = deny s oSTATE 0 0 := by
  have hwait : ((runOf s b).state == .unloading && (runOf s b).unl == .release) = false := by
    simpa [Decidable.imp_iff_not_or] using hnot
  cases hhand : (runOf s b).hand <;> simp [bedRelease, hhand, hwait]

/-! ## BED_RECOVER by its outcomes (R68) -/

theorem bedRecover_live (hstate : (runOf s b).state = .faulted) (hlive : isLive s b = true) :
    bedRecover s b = give (enter s b .stopped) oDONE 0 0 0 [wbBed b] := by
  simp [bedRecover, hstate, hlive]

theorem bedRecover_down (hstate : (runOf s b).state = .faulted) (hdown : isLive s b = false) :
    bedRecover s b = deny s oSTATE 2 0 := by
  simp [bedRecover, hstate, hdown]

theorem bedRecover_notFaulted (hstate : (runOf s b).state ≠ .faulted) : bedRecover s b = deny s oSTATE 1 0 := by
  simp [bedRecover, hstate]

end Sys2Proof.Machine

namespace Sys2Proof.Proofs
open Sys2Proof.Machine

/-- Settles O22: the outcomes of BED_RELEASE one by one. In the DONE case what the rest of the taking starts from is the bed with
its unloading requests posted and the result given. -/
theorem bedRelease : Obligations.BedRelease := by
  unfold Obligations.BedRelease
  refine ⟨fun s slot b hdue habsent _ => exec_bedRelease_absent hdue habsent, fun s slot b hdue => ?_⟩
  rw [exec_bedRelease hdue]
  refine ⟨fun h hhand hstate hwait => ?_, fun hnot => ?_⟩
  · refine ⟨_, by rw [bedRelease_waiting (h := h) (by simpa using hhand) (by simpa using hstate) (by simpa using hwait)],
      ?_, ?_, gives_give .., ?_⟩
    · simp
    · simp [hstate]
    · have hposts := inbox_postUnload (slotRead s) b h
      rw [slotRead_crane, skeletonPosts_congr (slotRead_stock s)] at hposts
      exact hposts
  · rw [bedRelease_notWaiting (by simpa using hnot)]

/-- Settles O23: the outcomes of BED_RECOVER one by one. The entry into STOPPED is what empties the pause cause set (R89), and it
leaves every fault flag alone. -/
theorem bedRecover : Obligations.BedRecover := by
  unfold Obligations.BedRecover
  refine ⟨fun s slot b hdue habsent _ => exec_bedRecover_absent hdue habsent, fun s slot b hdue => ?_⟩
  rw [exec_bedRecover hdue]
  refine ⟨fun hstate hlive => ?_, fun hstate hdown => ?_, fun hstate => ?_⟩
  · refine ⟨_, by rw [bedRecover_live (by simpa using hstate) (by simpa using hlive)], ?_, ?_, gives_give .., ?_⟩
    · simp
    · simp
    · simp
  · rw [bedRecover_down (by simpa using hstate) (by simpa using hdown)]
  · rw [bedRecover_notFaulted (by simpa using hstate)]

end Sys2Proof.Proofs
end

/-! # What every step keeps, and what each command leaves alone (R12, R52, R112, R129, R140, R181, R188, R191; log 8) -/

section
namespace Sys2Proof.Machine

-- A default argument `by exact …` below is evaluated only when every earlier proof is done; elaborated in order, no thread waits.
set_option Elab.async false

/-! ## The invariants that a later state keeps from an earlier one, and the rest of the state -/

/-- What a command may change of the parts that most commands leave alone: `outer` is the memory path, the loader, the attention mask
and the token counter; the others are the plate table, the pending attention causes, the crane link, and the link, ring and fault
group of a bed. -/
structure May where
  outer : Prop
  table : Prop
  attention : Prop
  craneLink : Prop
  bed : BedId → Prop

/-- A bed's link, ring and fault group are the same in `t` as in `s`. -/
def BedSame (b : BedId) (s t : State) : Prop :=
  bedKept (t.beds.get b) = bedKept (s.beds.get b) ∧ t.faults.beds.get b = s.faults.beds.get b

/-- From `s` to `t` nothing changed but what `M` allows, and neither the queue of commands, nor the clock, nor the anchor's base. -/
def Rest (M : May) (s t : State) : Prop :=
  t.pending = s.pending ∧ t.clock = s.clock ∧ t.loader.base = s.loader.base ∧
  (¬M.outer → t.path = s.path ∧ t.loader = s.loader ∧ t.faults.mask = s.faults.mask ∧ t.stock.tokenCtr = s.stock.tokenCtr) ∧
  (¬M.table → t.stock.table = s.stock.table) ∧ (¬M.attention → t.faults.pending = s.faults.pending) ∧
  (¬M.craneLink → t.crane.lk = s.crane.lk) ∧ ∀ b, ¬M.bed b → BedSame b s t

/-- `t` has each invariant that `s` has, and differs from it in nothing else than `M` allows. A chain of updates is followed by a chain
of the lemmas below, one per operation; each asks for the permissions that its operation needs. -/
structure Keeps (M : May) (s t : State) : Prop where
  path : PathBounds s → PathBounds t
  bank : StockBankOk s → StockBankOk t
  counters : CountersOk s → CountersOk t
  locks : LocksOk s → LocksOk t
  permits : PermitsOk s → PermitsOk t
  rest : Rest M s t

variable {M : May} {s₀ s t : State} {b : BedId}

theorem Rest.refl (s : State) : Rest M s s :=
  ⟨rfl, rfl, rfl, fun _ => ⟨rfl, rfl, rfl, rfl⟩, fun _ => rfl, fun _ => rfl, fun _ => rfl, fun _ _ => ⟨rfl, rfl⟩⟩
theorem Rest.trans {u : State} (h : Rest M s t) (g : Rest M t u) : Rest M s u := by
  obtain ⟨hpending, hclock, hbase, houter, htable, hattention, hlink, hbed⟩ := h
  obtain ⟨gpending, gclock, gbase, gouter, gtable, gattention, glink, gbed⟩ := g
  refine ⟨gpending.trans hpending, gclock.trans hclock, gbase.trans hbase, fun n => ?_, fun n => (gtable n).trans (htable n),
    fun n => (gattention n).trans (hattention n), fun n => (glink n).trans (hlink n),
    fun b n => ⟨(gbed b n).1.trans (hbed b n).1, (gbed b n).2.trans (hbed b n).2⟩⟩
  obtain ⟨hpath, hloader, hmask, hcounter⟩ := houter n
  obtain ⟨gpath, gloader, gmask, gcounter⟩ := gouter n
  exact ⟨gpath.trans hpath, gloader.trans hloader, gmask.trans hmask, gcounter.trans hcounter⟩
/-- What leaves `quiet` alone changes none of these parts. -/
theorem Rest.of_quiet (h : quiet t = quiet s) : Rest M s t := by
  have hbeds : ∀ b, bedKept (t.beds.get b) = bedKept (s.beds.get b) := fun b => by
    cases b
    · exact congrArg (·.beds.b0) h
    · exact congrArg (·.beds.b1) h
    · exact congrArg (·.beds.b2) h
    · exact congrArg (·.beds.b3) h
  exact ⟨congrArg (·.pending) h, congrArg (·.clock) h, congrArg (·.loader.base) h,
    fun _ => ⟨congrArg (·.path) h, congrArg (·.loader) h, congrArg (·.attention.2) h, congrArg (·.stock.tokenCtr) h⟩,
    fun _ => congrArg (·.stock.table) h, fun _ => congrArg (·.attention.1) h, fun _ => congrArg (·.crane.lk) h,
    fun b _ => ⟨hbeds b, congrArg (·.groups.1.get b) h⟩⟩

protected theorem Keeps.refl (s : State) : Keeps M s s := ⟨id, id, id, id, id, .refl s⟩
protected theorem Keeps.trans (h : Keeps M s₀ s) (g : Keeps M s t) : Keeps M s₀ t :=
  ⟨g.path ∘ h.path, g.bank ∘ h.bank, g.counters ∘ h.counters, g.locks ∘ h.locks, g.permits ∘ h.permits, h.rest.trans g.rest⟩
protected theorem Keeps.ite {p : Prop} [Decidable p] (hs : Keeps M s₀ s) (ht : Keeps M s₀ t) : Keeps M s₀ (if p then s else t) := by
  split
  · exact hs
  · exact ht
protected theorem Keeps.foldl {α : Type} {f : State → α → State} (hf : ∀ s x, Keeps M s₀ s → Keeps M s₀ (f s x)) (l : List α)
    (h : Keeps M s₀ s) : Keeps M s₀ (l.foldl f s) := by
  induction l generalizing s with
  | nil => exact h
  | cons x l ih => exact ih (hf s x h)

/-! ## Fields replaced whole -/

/-- The STOCK bank within its bounds (R129). -/
def BankOk (l : List StockOrder) : Prop := l.length ≤ Config.stockBank ∧ ∀ o ∈ l, o.age ≤ Config.agingMax

theorem stockBankOk_iff : StockBankOk s ↔ BankOk s.crane.stock := Iff.rfl

theorem BankOk.map {l : List StockOrder} {f : StockOrder → StockOrder} (hf : ∀ o, o.age ≤ Config.agingMax → (f o).age ≤ Config.agingMax)
    (h : BankOk l) : BankOk (l.map f) := by
  refine ⟨by simpa using h.1, fun o ho => ?_⟩
  obtain ⟨o', ho', rfl⟩ := List.mem_map.1 ho
  exact hf o' (h.2 o' ho')
theorem BankOk.filter {l : List StockOrder} (p : StockOrder → Bool) (h : BankOk l) : BankOk (l.filter p) :=
  ⟨(List.length_filter_le ..).trans h.1, fun o ho => h.2 o (List.mem_of_mem_filter ho)⟩
theorem BankOk.append_new {l : List StockOrder} {o : StockOrder} (hroom : l.length < Config.stockBank) (ho : o.age = 0) (h : BankOk l) :
    BankOk (l ++ [o]) := by
  refine ⟨by simpa using hroom, fun x hx => ?_⟩
  rcases List.mem_append.1 hx with hx | hx
  · exact h.2 x hx
  · obtain rfl : x = o := by simpa using hx
    simp [ho]

protected theorem Keeps.fresh (h : Keeps M s₀ s) : Keeps M s₀ (fresh s) := ⟨h.path, h.bank, h.counters, h.locks, h.permits, h.rest⟩
protected theorem Keeps.emit {o : Output} (h : Keeps M s₀ s) : Keeps M s₀ (emit s o) :=
  ⟨h.path, h.bank, h.counters, h.locks, h.permits, h.rest⟩
protected theorem Keeps.setPath {p : Path} (h : Keeps M s₀ s) (mo : M.outer)
    (hp : PathBounds s → PathBounds (setPath s p) := by exact id) : Keeps M s₀ (setPath s p) :=
  ⟨hp ∘ h.path, h.bank, h.counters, h.locks, h.permits, h.rest.trans
    ⟨rfl, rfl, rfl, (absurd mo ·), fun _ => rfl, fun _ => rfl, fun _ => rfl, fun _ _ => ⟨rfl, rfl⟩⟩⟩
protected theorem Keeps.setEngine {e : Engine} (h : Keeps M s₀ s) : Keeps M s₀ (setEngine s e) :=
  ⟨h.path, h.bank, h.counters, h.locks, h.permits, h.rest⟩
protected theorem Keeps.setLoader {l : Loader} (h : Keeps M s₀ s) (mo : M.outer)
    (hl : l.base = s.loader.base := by exact rfl) : Keeps M s₀ (setLoader s l) :=
  ⟨h.path, h.bank, h.counters, h.locks, h.permits, h.rest.trans
    ⟨rfl, rfl, hl, (absurd mo ·), fun _ => rfl, fun _ => rfl, fun _ => rfl, fun _ _ => ⟨rfl, rfl⟩⟩⟩
protected theorem Keeps.setCmd {k : CmdEngine} (h : Keeps M s₀ s) : Keeps M s₀ (setCmd s k) :=
  ⟨h.path, h.bank, h.counters, h.locks, h.permits, h.rest⟩
protected theorem Keeps.setFaults {f : Faults} (h : Keeps M s₀ s)
    (hf : ¬M.attention → f.pending = s.faults.pending := by exact fun _ => rfl)
    (hm : ¬M.outer → f.mask = s.faults.mask := by exact fun _ => rfl)
    (hb : ∀ b, ¬M.bed b → f.beds.get b = s.faults.beds.get b := by exact fun _ _ => rfl) : Keeps M s₀ (setFaults s f) :=
  ⟨h.path, h.bank, h.counters, h.locks, h.permits, h.rest.trans
    ⟨rfl, rfl, rfl, fun n => ⟨rfl, rfl, hm n, rfl⟩, fun _ => rfl, hf, fun _ => rfl, fun b n => ⟨rfl, hb b n⟩⟩⟩
protected theorem Keeps.setStock {k : Stock} (h : Keeps M s₀ s)
    (hc : k.tokenCtr = s.stock.tokenCtr ∨ M.outer ∧ k.tokenCtr ≠ 0 := by exact .inl rfl)
    (ht : ¬M.table → k.table = s.stock.table := by exact fun _ => rfl) : Keeps M s₀ (setStock s k) := by
  refine ⟨h.path, h.bank, fun hs => ⟨?_, (h.counters hs).2⟩, h.locks, h.permits, h.rest.trans
    ⟨rfl, rfl, rfl, fun n => ⟨rfl, rfl, rfl, ?_⟩, ht, fun _ => rfl, fun _ => rfl, fun _ _ => ⟨rfl, rfl⟩⟩⟩
  · rcases hc with hc | hc
    · exact hc.trans_ne (h.counters hs).1
    · exact hc.2
  · exact hc.resolve_right fun hc => n hc.1
protected theorem Keeps.setLocks {l : Locks} (h : Keeps M s₀ s) (hl : LocksOk s → LocksOk (setLocks s l)) :
    Keeps M s₀ (setLocks s l) :=
  ⟨h.path, h.bank, h.counters, hl ∘ h.locks, h.permits, h.rest⟩
protected theorem Keeps.setArb {a : Arbiter} (h : Keeps M s₀ s) (ha : PermitsOk s → PermitsOk (setArb s a) := by exact id) :
    Keeps M s₀ (setArb s a) := ⟨h.path, h.bank, h.counters, h.locks, ha ∘ h.permits, h.rest⟩
protected theorem Keeps.setCrane {c : Crane} (h : Keeps M s₀ s) (hb : BankOk s.crane.stock → BankOk c.stock := by exact id)
    (hn : CountersOk s → CountersOk (setCrane s c) := by exact id)
    (hl : ¬M.craneLink → c.lk = s.crane.lk := by exact fun _ => rfl) : Keeps M s₀ (setCrane s c) :=
  ⟨h.path, fun x => hb (h.bank x), hn ∘ h.counters, h.locks, h.permits, h.rest.trans
    ⟨rfl, rfl, rfl, fun _ => ⟨rfl, rfl, rfl, rfl⟩, fun _ => rfl, fun _ => rfl, hl, fun _ _ => ⟨rfl, rfl⟩⟩⟩
protected theorem Keeps.setRun {r : BedRun} (h : Keeps M s₀ s) : Keeps M s₀ (setRun s b r) :=
  ⟨h.path, h.bank, h.counters, h.locks, h.permits, h.rest.trans (.of_quiet (quiet_setRun s b r))⟩
theorem rest_setBed {d : Bed} (mb : M.bed b) : Rest M s { s with beds := s.beds.set b d } :=
  ⟨rfl, rfl, rfl, fun _ => ⟨rfl, rfl, rfl, rfl⟩, fun _ => rfl, fun _ => rfl, fun _ => rfl, fun c n =>
    ⟨congrArg bedKept (PerBed.get_set_ne _ _ fun e => n (e ▸ mb : M.bed c)), rfl⟩⟩
protected theorem Keeps.setLink {l : BedLink} (h : Keeps M s₀ s) (mb : M.bed b) : Keeps M s₀ (setLink s b l) :=
  ⟨h.path, h.bank, h.counters, h.locks, h.permits, h.rest.trans (rest_setBed mb)⟩
protected theorem Keeps.setRing {r : Ring} (h : Keeps M s₀ s) (mb : M.bed b) : Keeps M s₀ (setRing s b r) :=
  ⟨h.path, h.bank, h.counters, h.locks, h.permits, h.rest.trans (rest_setBed mb)⟩
protected theorem Keeps.setZone {z : Zone} (h : Keeps M s₀ s) : Keeps M s₀ (setZone s b z) :=
  ⟨h.path, h.bank, h.counters, h.locks, h.permits, h.rest⟩

/-! ## Shared operations -/

protected theorem Keeps.setGroup {g : Group} {v : FaultGroup} (h : Keeps M s₀ s) (hg : ∀ b, g = .bed b → M.bed b) :
    Keeps M s₀ (setGroup s g v) := by
  obtain ⟨hpending, hmask, -⟩ := Faults.set_fields s.faults g v
  exact h.setFaults (fun _ => hpending) (fun _ => hmask) fun b n => Faults.get_set_ne (g' := .bed b) _ v fun e => n (hg b e.symm)
protected theorem Keeps.setFlag {g : Group} {i : Nat} (h : Keeps M s₀ s) (hg : ∀ b, g = .bed b → M.bed b := by exact nofun) :
    Keeps M s₀ (setFlag s g i) := by
  obtain ⟨hpending, hmask, -⟩ := Faults.raise_fields s.faults g i
  exact h.setFaults (fun _ => hpending) (fun _ => hmask) fun b n => Faults.raise_get_ne (g' := .bed b) _ i fun e => n (hg b e.symm)
protected theorem Keeps.bedFlag {i : Nat} (h : Keeps M s₀ s) (mb : M.bed b) : Keeps M s₀ (bedFlag s b i) :=
  h.setFlag fun _ e => Group.bed.inj e ▸ mb
protected theorem Keeps.addCause {i : Nat} (h : Keeps M s₀ s) (ma : M.attention) : Keeps M s₀ (addCause s i) :=
  h.setFaults (absurd ma ·)
protected theorem Keeps.watchEvent (h : Keeps M s₀ s) : Keeps M s₀ (watchEvent s) := h.setFaults
protected theorem Keeps.watchStart (h : Keeps M s₀ s) : Keeps M s₀ (watchStart s) := h.setFaults
protected theorem Keeps.push {w : ReqOf} {a : Nat} {d : Line} {e : BitVec 64} (h : Keeps M s₀ s) : Keeps M s₀ (push s w a d e) :=
  h.setEngine
protected theorem Keeps.pushRead {w : ReqOf} {a : Nat} (h : Keeps M s₀ s) : Keeps M s₀ (pushRead s w a) := h.setEngine
protected theorem Keeps.pushWb {r : RecId} (h : Keeps M s₀ s) : Keeps M s₀ (pushWb s r) := .ite h h.push
protected theorem Keeps.pushControl {r : RecId} (h : Keeps M s₀ s) : Keeps M s₀ (pushControl s r) := .ite h.pushWb h
protected theorem Keeps.defer {l : List Nat} {a : Act} (h : Keeps M s₀ s) : Keeps M s₀ (defer s l a) := h.setEngine
protected theorem Keeps.setStage {g : CmdStage} (h : Keeps M s₀ s) : Keeps M s₀ (setStage s g) := h.setCmd
protected theorem Keeps.giveWith {o : Byte} {x y z : Nat} {l k : List ReqOf} {a : Option BedId} (h : Keeps M s₀ s) :
    Keeps M s₀ (giveWith s o x y z l k a) := h.setStage.setCmd
protected theorem Keeps.give {o : Byte} {x y z : Nat} {l : List ReqOf} (h : Keeps M s₀ s) : Keeps M s₀ (give s o x y z l) :=
  h.giveWith
protected theorem Keeps.deny {o : Byte} {x y : Nat} (h : Keeps M s₀ s) : Keeps M s₀ (deny s o x y) := h.giveWith
protected theorem Keeps.setMode {m : Mode} {o : Origin} (h : Keeps M s₀ s) : Keeps M s₀ (setMode s m o) := h.setCmd
protected theorem Keeps.setStream {t : Stream} (h : Keeps M s₀ s) : Keeps M s₀ (setStream s b t) := h.setRun
protected theorem Keeps.sendBed {o : Output} (h : Keeps M s₀ s) : Keeps M s₀ (sendBed s b o) := .ite h.emit h
protected theorem Keeps.sendCrane {o : Output} (h : Keeps M s₀ s) : Keeps M s₀ (sendCrane s o) := .ite h.emit h
protected theorem Keeps.pushResultAs {w : ReqOf} {c : BitVec 16} {t : Byte} {g : Word} {o : Byte} {x y z : Word} (h : Keeps M s₀ s) :
    Keeps M s₀ (pushResultAs s w c t g o x y z) := h.setCmd.push
protected theorem Keeps.pushResult {c : BitVec 16} {t : Byte} {g : Word} {o : Byte} {x y z : Word} (h : Keeps M s₀ s) :
    Keeps M s₀ (pushResult s c t g o x y z) := h.pushResultAs
protected theorem Keeps.finishReq (h : Keeps M s₀ s) (mo : M.outer) : Keeps M s₀ (finishReq s) := h.setEngine.setPath mo
protected theorem Keeps.freeMsp (h : Keeps M s₀ s) (mo : M.outer) : Keeps M s₀ (freeMsp s) := h.setPath mo
protected theorem Keeps.requeue {r : Req} {k : Bool} (h : Keeps M s₀ s) : Keeps M s₀ (requeue s r k) := h.setEngine
protected theorem Keeps.writeBackFlag (h : Keeps M s₀ s) : Keeps M s₀ (writeBackFlag s) := h.setFlag
protected theorem Keeps.setPlate {i : Nat} {p : Plate} (h : Keeps M s₀ s) (mt : M.table) : Keeps M s₀ (setPlate s i p) :=
  (h.setStock (ht := (absurd mt ·))).pushWb
protected theorem Keeps.releaseRes {q : ReqId} (h : Keeps M s₀ s) : Keeps M s₀ (releaseRes s q) := h.setStock

/-! ## Permits and token (R112 to R121) -/

theorem Arbiter.grant_le (n : Nat) (a : Arbiter) (h : a.holders.length ≤ a.pool.getD 0) :
    (a.grant n).holders.length ≤ (a.grant n).pool.getD 0 := by
  induction n generalizing a with
  | zero => exact h
  | succ n ih =>
    unfold Arbiter.grant
    split
    · split
      case isTrue hroom =>
        refine ih _ ?_
        have hfree : 0 < freePermits a := by simpa using (Bool.and_eq_true_iff.1 hroom).2
        simp only [freePermits] at hfree
        simp only [List.length_append, List.length_singleton]
        omega
      · exact h
    · exact h
protected theorem Keeps.arbGrant (h : Keeps M s₀ s) : Keeps M s₀ (arbGrant s) := .ite (h.setArb (Arbiter.grant_le 4 s.arb)) h
protected theorem Keeps.arbOffer (h : Keeps M s₀ s) : Keeps M s₀ (arbOffer s) := by
  unfold Machine.arbOffer
  split
  · exact .ite h.setArb h
  · exact h
protected theorem Keeps.releaseToken (h : Keeps M s₀ s) : Keeps M s₀ (releaseToken s b) := .ite h.setRun.setArb.arbOffer h.setRun
protected theorem Keeps.leaveTokenList (h : Keeps M s₀ s) : Keeps M s₀ (leaveTokenList s b) :=
  .ite h.setRun.setArb.arbOffer h.setRun.setArb
protected theorem Keeps.leavePermitList (h : Keeps M s₀ s) : Keeps M s₀ (leavePermitList s b) := h.setRun.setArb.arbGrant
/-- A permit given back keeps the permits held within their number (R112). -/
protected theorem Keeps.dropHolder (h : Keeps M s₀ s) :
    Keeps M s₀ (setArb s { s.arb with holders := s.arb.holders.filter (· != b) }) :=
  h.setArb ((List.length_filter_le ..).trans ·)
protected theorem Keeps.releasePermit (h : Keeps M s₀ s) : Keeps M s₀ (releasePermit s b) :=
  .ite h.releaseToken.setArb.setRun.dropHolder.arbGrant h.releaseToken.setArb

/-! ## Lock table (R52 to R54) -/

/-- A lock table of up to 6 entries, none without an owner. -/
def EntriesOk (es : List LockEntry) : Prop := es.length ≤ Config.lockEntries ∧ ∀ e ∈ es, e.owners ≠ []

theorem EntriesOk.grantLocks {es : List LockEntry} {rs : List (Nat × Nat)} (hroom : lockRoom es rs = true) (h : EntriesOk es) :
    EntriesOk (grantLocks es b rs) := by
  refine ⟨by simpa [Machine.grantLocks, lockRoom] using hroom, fun e he => ?_⟩
  rcases List.mem_append.1 he with he | he
  · obtain ⟨e', he', rfl⟩ := List.mem_map.1 he
    split
    · simp
    · exact h.2 e' he'
  · obtain ⟨r, -, rfl⟩ := List.mem_map.1 he
    simp
theorem EntriesOk.examine (n : Nat) (l : Locks) (h : EntriesOk l.entries) : EntriesOk (l.examine n).entries := by
  induction n generalizing l with
  | zero => exact h
  | succ n ih =>
    unfold Locks.examine
    split
    · split
      case isTrue hroom => exact ih _ (h.grantLocks hroom)
      · exact h
    · exact h
theorem EntriesOk.request (l : Locks) (rs : List (Nat × Nat)) (h : EntriesOk l.entries) : EntriesOk (l.request b rs).entries := by
  unfold Locks.request
  split
  case isTrue hroom => exact h.grantLocks (Bool.and_eq_true_iff.1 hroom).2
  · exact h
theorem EntriesOk.release (l : Locks) (h : EntriesOk l.entries) : EntriesOk (l.release b).entries := by
  refine EntriesOk.examine 4 _ ⟨(List.length_filter_le ..).trans (by simpa using h.1), fun e he => ?_⟩
  simpa using List.of_mem_filter he
protected theorem Keeps.releaseLocks (h : Keeps M s₀ s) : Keeps M s₀ (releaseLocks s b) := h.setLocks (EntriesOk.release s.locks)

/-! ## Beds -/

protected theorem Keeps.sendPause (h : Keeps M s₀ s) : Keeps M s₀ (sendPause s b) := h.setStream.sendBed
protected theorem Keeps.addPause {i : Nat} (h : Keeps M s₀ s) : Keeps M s₀ (addPause s b i) :=
  .ite h (.ite h.setRun.sendPause h.setRun)
protected theorem Keeps.enter {t : BedState} (h : Keeps M s₀ s) : Keeps M s₀ (enter s b t) := h.setRun
protected theorem Keeps.withdrawAll (h : Keeps M s₀ s) : Keeps M s₀ (withdrawAll s b) := h.setCrane
protected theorem Keeps.giveUp (h : Keeps M s₀ s) : Keeps M s₀ (giveUp s b) :=
  .ite h.setStock.leavePermitList.leaveTokenList.releasePermit.releaseLocks.setZone
    h.setStock.leavePermitList.leaveTokenList.releasePermit.releaseLocks
protected theorem Keeps.dropUnposted (h : Keeps M s₀ s) : Keeps M s₀ (dropUnposted s b) := by
  unfold Machine.dropUnposted
  dsimp only
  split
  · exact .ite h.releaseRes h
  · exact h
protected theorem Keeps.returnOrder {o : Outcome} {c : Nat} {p : Option (Nat × Nat)} {k : Bool} (h : Keeps M s₀ s) :
    Keeps M s₀ (returnOrder s b o c p k) := by
  unfold Machine.returnOrder
  dsimp only
  split
  · exact h
  · exact Keeps.setRun (.ite h.dropUnposted.withdrawAll.giveUp.setStock.push.setCmd h.dropUnposted.withdrawAll.giveUp.setStock.push)
protected theorem Keeps.rejectOrder {c : Nat} (h : Keeps M s₀ s) : Keeps M s₀ (rejectOrder s b c) := h.returnOrder.enter
protected theorem Keeps.enterStopping {o : Outcome} (h : Keeps M s₀ s) : Keeps M s₀ (enterStopping s b o) :=
  h.sendBed.leavePermitList.leaveTokenList.enter.setRun
protected theorem Keeps.bedResetEnd {e : ResetEnd} (h : Keeps M s₀ s) : Keeps M s₀ (bedResetEnd s b e) :=
  h.giveUp.enter.setRun.setCrane.setCmd
protected theorem Keeps.endStopping {o : Outcome} {e : ResetEnd} (h : Keeps M s₀ s) : Keeps M s₀ (endStopping s b o e) :=
  .ite h.returnOrder.enter.bedResetEnd h.returnOrder.enter
protected theorem Keeps.enterFaulted {o : Outcome} {c : Nat} {p : Option (Nat × Nat)} (h : Keeps M s₀ s) (mb : M.bed b) :
    Keeps M s₀ (enterFaulted s b o c p) := by
  have habort : Keeps M s₀ (if cuttingState (runOf s b).state || (runOf s b).state == .stopping then sendBed s b (.abort b) else s) :=
    .ite h.sendBed h
  exact Keeps.enter (Keeps.setRun (.ite (habort.setLink mb).setRun.returnOrder (habort.setLink mb).setRun.withdrawAll.giveUp))
protected theorem Keeps.faultBed {i d : Nat} (h : Keeps M s₀ s) (mb : M.bed b) : Keeps M s₀ (faultBed s b i d) :=
  (h.bedFlag mb).enterFaulted mb
protected theorem Keeps.gantryFault (h : Keeps M s₀ s) (mb : M.bed b) : Keeps M s₀ (gantryFault s b) := h.faultBed mb
protected theorem Keeps.memoryFault (h : Keeps M s₀ s) (mb : M.bed b) : Keeps M s₀ (memoryFault s b) := h.faultBed mb
protected theorem Keeps.takeOrder (h : Keeps M s₀ s) (mb : M.bed b) : Keeps M s₀ (takeOrder s b) :=
  (h.setRing mb).enter.setRun.pushRead
protected theorem Keeps.readOwner (h : Keeps M s₀ s) : Keeps M s₀ (readOwner s b) := h.pushRead
protected theorem Keeps.startRead (h : Keeps M s₀ s) : Keeps M s₀ (startRead s b) := .ite h.readOwner h

/-! ## What the beds do by themselves in a taking -/

protected theorem Keeps.sendStep {e : Entry} (h : Keeps M s₀ s) : Keeps M s₀ (sendStep s b e) := h.setStream.sendBed
protected theorem Keeps.sendJudged {e : Entry} {x y : Stream → Stream} (h : Keeps M s₀ s) :
    Keeps M s₀ (sendJudged s b e x y).1 := by
  unfold Machine.sendJudged
  split
  · exact h.setStream.addPause
  · exact h.setRun.setStream.sendStep
  · exact h.setStream.sendStep
protected theorem Keeps.pumpOnce (h : Keeps M s₀ s) : Keeps M s₀ (pumpOnce s b).1 := by
  unfold Machine.pumpOnce
  dsimp only
  split
  · exact h
  split
  · exact h
  split
  · split
    · exact h
    · exact h.setStream
  split
  · exact h.sendJudged
  · exact h.sendJudged
  split
  · exact h
  split
  · exact h
  split
  · exact h.setStream
  · exact h.setStream
  · exact h.setStream.setStream.sendPause
  · split
    · exact h.setStream.setStream
    · exact h.setStream.sendJudged
protected theorem Keeps.pump (n : Nat) (h : Keeps M s₀ s) : Keeps M s₀ (pump n s b) := by
  induction n generalizing s with
  | zero => exact h
  | succ n ih => exact .ite (ih h.pumpOnce) h.pumpOnce
protected theorem Keeps.resume (h : Keeps M s₀ s) : Keeps M s₀ (resume s b) := h.sendBed.enter.setStream
protected theorem Keeps.leaveAccepting {d : Hand} (h : Keeps M s₀ s) : Keeps M s₀ (leaveAccepting s b d) :=
  .ite h.enter.setRun h.enter
protected theorem Keeps.postRequest {k : ReqKind} {i p : Nat} {l : Loc} (h : Keeps M s₀ s) : Keeps M s₀ (postRequest s b k i p l) :=
  h.setCrane
protected theorem Keeps.stagingStep (h : Keeps M s₀ s) : Keeps M s₀ (stagingStep s b) := by
  unfold Machine.stagingStep
  dsimp only
  split
  · exact h
  · exact .ite h.setZone.enter.setRun (.ite h.postRequest h)
protected theorem Keeps.askFetch (h : Keeps M s₀ s) : Keeps M s₀ (askFetch s b) := by
  unfold Machine.askFetch
  dsimp only
  split
  · exact h.setRun
  · exact h
protected theorem Keeps.askArbiter (h : Keeps M s₀ s) : Keeps M s₀ (askArbiter s b) := h.setRun
protected theorem Keeps.sendMark {i : Nat} {x : Option (List Nat)} (h : Keeps M s₀ s) : Keeps M s₀ (sendMark s b i x) :=
  h.setRun.sendBed
protected theorem Keeps.markingStep (h : Keeps M s₀ s) : Keeps M s₀ (markingStep s b) := by
  unfold Machine.markingStep
  dsimp only
  split
  · split
    · exact .ite h.setRun.enter h.setRun
    · exact .ite h.setRun.sendMark.enter h.setRun.sendMark
  · exact .ite h.setRun.enter h.setRun
protected theorem Keeps.unloadEnd (h : Keeps M s₀ s) : Keeps M s₀ (unloadEnd s b) := .ite h.returnOrder.enter h
protected theorem Keeps.claimTold (h : Keeps M s₀ s) : Keeps M s₀ (claimTold s b) := .ite h.setRun h
protected theorem Keeps.locksTold (h : Keeps M s₀ s) : Keeps M s₀ (locksTold s b) := by
  unfold Machine.locksTold
  dsimp only
  split
  · exact .ite h.leaveAccepting h
  · exact h
protected theorem Keeps.stagingDue (h : Keeps M s₀ s) : Keeps M s₀ (stagingDue s b) := .ite h.stagingStep h
protected theorem Keeps.markingDue (h : Keeps M s₀ s) : Keeps M s₀ (markingDue s b) := .ite h.markingStep h
protected theorem Keeps.resumeDue (h : Keeps M s₀ s) : Keeps M s₀ (resumeDue s b) := .ite h.resume h
protected theorem Keeps.markingAgain (h : Keeps M s₀ s) : Keeps M s₀ (markingAgain s b) := .ite h.markingStep h
protected theorem Keeps.bedSettle (h : Keeps M s₀ s) : Keeps M s₀ (bedSettle s b) :=
  (h.claimTold.locksTold.stagingDue.markingDue.resumeDue.markingAgain.pump 80).askFetch.askArbiter
protected theorem Keeps.settleBeds (h : Keeps M s₀ s) : Keeps M s₀ (settleBeds s) := h.bedSettle.bedSettle.bedSettle.bedSettle
protected theorem Keeps.settleUnload (h : Keeps M s₀ s) : Keeps M s₀ (settleUnload s) := h.unloadEnd.unloadEnd.unloadEnd.unloadEnd

/-! ## The crane (R14, R26 to R33, R129 to R155) -/

protected theorem Keeps.reserve {q : ReqId} {p : Nat} {l : Loc} (h : Keeps M s₀ s) : Keeps M s₀ (reserve s q p l) := by
  unfold Machine.reserve
  split
  case h_4 => exact h
  all_goals exact h.setStock
protected theorem Keeps.convertRes {q : ReqId} {l : Loc} (h : Keeps M s₀ s) : Keeps M s₀ (convertRes s q l) := by
  unfold Machine.convertRes
  split
  case h_4 => exact h
  all_goals exact h.setStock
protected theorem Keeps.tellWaiters {i : Nat} (h : Keeps M s₀ s) : Keeps M s₀ (tellWaiters s i) := h.setStock
protected theorem Keeps.stockLift {i p : Nat} (h : Keeps M s₀ s) (mt : M.table) : Keeps M s₀ (stockLift s i p) :=
  .ite (h.setPlate mt) h
protected theorem Keeps.stockSet {i p : Nat} {l : Loc} (h : Keeps M s₀ s) (mt : M.table) : Keeps M s₀ (stockSet s i p l) := by
  unfold Machine.stockSet
  split
  · exact h
  split
  · exact (h.setPlate mt).tellWaiters
  all_goals exact h.setPlate mt
protected theorem Keeps.makeLost {i p : Nat} (h : Keeps M s₀ s) (mt : M.table) : Keeps M s₀ (makeLost s i p) :=
  .ite (h.setPlate mt).tellWaiters h
protected theorem Keeps.setSuspect {i p : Nat} (h : Keeps M s₀ s) (mt : M.table) : Keeps M s₀ (setSuspect s i p) :=
  .ite (h.setPlate mt) h
protected theorem Keeps.stockTurnBack {m : Move} (h : Keeps M s₀ s) (mt : M.table) : Keeps M s₀ (stockTurnBack s m) := by
  unfold Machine.stockTurnBack
  dsimp only
  exact Keeps.reserve (.ite (h.stockLift mt) (h.stockLift mt).releaseRes)
protected theorem Keeps.releaseClaim {r : Release} (h : Keeps M s₀ s) : Keeps M s₀ (releaseClaim s r) := h.setStock
protected theorem Keeps.craneTo {x : CraneState} (h : Keeps M s₀ s) : Keeps M s₀ (craneTo s x) := h.setCrane
protected theorem Keeps.setMove {m : Move} (h : Keeps M s₀ s) : Keeps M s₀ (setMove s m) := h.setCrane
protected theorem Keeps.setLoad {l : Load} (h : Keeps M s₀ s) (ml : M.craneLink) : Keeps M s₀ (setLoad s l) :=
  h.setCrane (hl := (absurd ml ·))
protected theorem Keeps.craneHeard (h : Keeps M s₀ s) (ml : M.craneLink) : Keeps M s₀ (craneHeard s) :=
  h.setCrane (hl := (absurd ml ·))
protected theorem Keeps.craneFlag {i : Nat} (h : Keeps M s₀ s) : Keeps M s₀ (craneFlag s i) := h.setFlag
protected theorem Keeps.takeZones {zs : List BedId} (h : Keeps M s₀ s) : Keeps M s₀ (takeZones s zs) :=
  .foldl (fun _ _ h => h.setZone) zs h
protected theorem Keeps.freeZones {zs : List BedId} (h : Keeps M s₀ s) : Keeps M s₀ (freeZones s zs) :=
  .foldl (fun _ _ h => .ite h.setZone h) zs h
protected theorem Keeps.reserveInfeed {q : ReqId} {p : Nat} {l : Loc} (h : Keeps M s₀ s) : Keeps M s₀ (reserveInfeed s q p l) := by
  unfold Machine.reserveInfeed
  split
  · exact h.reserve
  · exact h
/-- The next move ID is never 0 (R140). -/
theorem nextMoveId_ne_zero (n : Byte) : (if n == 255 then 1 else n + 1) ≠ 0 := by
  split
  · decide
  case isFalse hn =>
    have hn : n ≠ 255 := by simpa using hn
    bv_omega
protected theorem Keeps.dispatch {q : ReqId} {k : ReqKind} {i p : Nat} {l : Loc} (h : Keeps M s₀ s) :
    Keeps M s₀ (dispatch s q k i p l) :=
  Keeps.sendCrane (Keeps.craneTo (Keeps.setCrane h.takeZones.reserveInfeed (hn := fun hc => ⟨hc.1, nextMoveId_ne_zero _⟩)))
protected theorem Keeps.setOrder {i : Nat} {g : OrderStage} (h : Keeps M s₀ s) : Keeps M s₀ (setOrder s i g) :=
  h.setCrane (hb := .map fun o ho => by split <;> exact ho)
protected theorem Keeps.dispatchHost {o : StockOrder} (h : Keeps M s₀ s) : Keeps M s₀ (dispatchHost s o) := h.dispatch.setOrder
protected theorem Keeps.dispatchBed {q : BedReq} (h : Keeps M s₀ s) : Keeps M s₀ (dispatchBed s b q) :=
  (h.setCrane (hb := .map fun o ho => by
    split
    · exact Nat.min_le_right ..
    · exact ho)).dispatch
protected theorem Keeps.craneSelect (h : Keeps M s₀ s) : Keeps M s₀ (craneSelect s) := by
  unfold Machine.craneSelect
  dsimp only
  split
  · exact h
  split
  · exact h.dispatchHost
  split
  · exact h.dispatchBed
  split
  · exact h.dispatchHost
  · exact h
protected theorem Keeps.returnHost {i o : Nat} {l : Loc} {m : Nat} {k : Bool} (h : Keeps M s₀ s) :
    Keeps M s₀ (returnHost s i o l m k) := by
  unfold Machine.returnHost
  dsimp only
  split
  · exact h
  case h_2 x _ =>
    have hrel : Keeps M s₀ (if k then releaseClaim (releaseRes s (.host i)) ⟨x.ix, crPlate x.order, .lift i⟩ else s) :=
      .ite h.releaseRes.releaseClaim h
    have hsent := hrel.setOrder (i := i) (g := .returning) |>.push (w := .craneReturn i) (a := x.addr)
      (d := lineOf (put 0 4 RETURNED + put 0x14 1 o + put 0x15 1 l.num.1 + put 0x16 1 l.num.2 + put 0x18 4 m))
      (e := enable 0 4 ||| enable 0x14 12)
    exact .ite (Keeps.setCrane (.ite hsent.setCmd hsent)) (.ite hsent.setCmd hsent)
protected theorem Keeps.acceptOrder {i : Nat} {r : Raw} (h : Keeps M s₀ s) (mt : M.table) : Keeps M s₀ (acceptOrder s i r) := by
  unfold Machine.acceptOrder
  dsimp only
  split
  · exact h.returnHost
  split
  · exact h.returnHost
  split
  · exact h.returnHost
  split
  · exact h.returnHost
  · have hstage : ∀ (s : State) (j : Nat) (l : Loc), Keeps M s₀ s → Keeps M s₀ (setCrane s { s.crane with
        stock := s.crane.stock.map fun o => if o.idx == i then { o with ix := j, dest := l, stage := .queued } else o }) :=
      fun s j l h => h.setCrane (hb := .map fun o ho => by split <;> exact ho)
    apply hstage
    split
    · exact h.setPlate mt
    · exact (h.setPlate mt).reserve
protected theorem Keeps.readCraneOwner (h : Keeps M s₀ s) : Keeps M s₀ (readCraneOwner s) := .ite h h.setCrane.pushRead
/-- A take where there is room for the order (R129, R132). -/
protected theorem Keeps.takeCrane (h : Keeps M s₀ s) (hroom : s.crane.stock.length < Config.stockBank) : Keeps M s₀ (takeCrane s) :=
  (h.setCrane (hb := .append_new hroom rfl)).pushRead.readCraneOwner
theorem room_of_mayTake (h : mayTake s = true) : s.crane.stock.length < Config.stockBank := by
  simpa using (Bool.and_eq_true_iff.1 h).2
protected theorem Keeps.dropBedReq (h : Keeps M s₀ s) : Keeps M s₀ (dropBedReq s b).1 := by
  unfold Machine.dropBedReq
  dsimp only
  split
  · split
    · exact h.setCrane
    · exact h
  · exact h
protected theorem Keeps.endRes {m : Move} (h : Keeps M s₀ s) : Keeps M s₀ (endRes s m) := .ite h.releaseRes h
protected theorem Keeps.craneRest {m : Move} (h : Keeps M s₀ s) : Keeps M s₀ (craneRest s m) := h.freeZones.setCrane
protected theorem Keeps.reportDone {m : Move} (h : Keeps M s₀ s) : Keeps M s₀ (reportDone s m) := by
  unfold Machine.reportDone
  split
  · exact .ite h.dropBedReq h
  · exact h
protected theorem Keeps.reportBack {m : Move} {k : Bool} (h : Keeps M s₀ s) : Keeps M s₀ (reportBack s m k) := by
  unfold Machine.reportBack
  dsimp only
  split
  · exact h
  · exact .ite h.endRes (.ite h.dropBedReq.endRes (.ite (.ite h.dropBedReq.rejectOrder h.dropBedReq) h.dropBedReq.postRequest))
protected theorem Keeps.reportLost {m : Move} (h : Keeps M s₀ s) : Keeps M s₀ (reportLost s m) := by
  unfold Machine.reportLost
  dsimp only
  split
  · exact h
  · exact .ite h (.ite h.dropBedReq.returnOrder.enter h.dropBedReq)
protected theorem Keeps.endHost {m : Move} {o : Nat} {l : Loc} {x : Nat} (h : Keeps M s₀ s) : Keeps M s₀ (endHost s m o l x) := by
  unfold Machine.endHost
  split
  · exact .ite h.returnHost h
  · exact h
protected theorem Keeps.craneFaulted (h : Keeps M s₀ s) : Keeps M s₀ (craneFaulted s) := by
  unfold Machine.craneFaulted
  dsimp only
  split
  · exact h
  split
  · split
    · exact h.setCrane.setOrder
    · exact h.setCrane
  · exact h.setCrane
protected theorem Keeps.loadDrop (h : Keeps M s₀ s) (mt : M.table) : Keeps M s₀ (loadDrop s) := by
  unfold Machine.loadDrop
  dsimp only
  split
  · split
    · exact .ite (h.makeLost mt).reportLost.setCrane (h.makeLost mt)
    · exact h.makeLost mt
  · exact h
protected theorem Keeps.craneResetEnd (h : Keeps M s₀ s) : Keeps M s₀ (craneResetEnd s) := by
  unfold Machine.craneResetEnd
  dsimp only
  split
  · have hend : ∀ {m : Move} {k : Bool}, Keeps M s₀ (if k then endHost s m cABORTED_RESET (whereIs s m) (measuredOf m)
        else freeZones (endHost s m cABORTED_RESET (whereIs s m) (measuredOf m)) m.zones) := .ite h.endHost h.endHost.freeZones
    exact .ite hend.setCrane.craneFlag (.ite hend.setCrane hend.setCrane.craneFlag)
  · exact .ite h.setCrane.craneFlag (.ite h.setCrane h.setCrane.craneFlag)
/-- The host orders that a hall reset returns at once (R155): those queued, held by a failed move or not read yet. -/
def resetOrders (s : State) : State :=
  s.crane.stock.foldl (fun s o =>
    if o.stage == .queued || o.stage == .failed then returnHost s o.idx cABORTED_RESET (orderLoc s o) (heldMass s o) true
    else if o.stage == .reading then returnHost s o.idx cABORTED_RESET .none 0 false else s) s
/-- The failed move loses its request (R155). -/
def dropFailedMove (s : State) : State :=
  if s.crane.state == .faulted then
    setCrane s { s.crane with move := s.crane.move.map (fun (m : Move) => { m with live := false } ) } else s
/-- ABORT goes out for a move in flight, else the crane's part ends (R155). -/
def resetMove (s : State) : State :=
  match s.crane.move with
  | some m =>
    if s.crane.state != .faulted && s.crane.lk.live then
      let s := if m.abort then s else sendCrane s (.craneAbort m.id)
      setCrane s { s.crane with move := some { m with abort := true }, resetAt := some s.clock }
    else craneResetEnd s
  | none => craneResetEnd s
theorem craneResetStart_eq (s : State) : craneResetStart s = resetMove (dropFailedMove (resetOrders s)) := rfl
protected theorem Keeps.resetOrders (h : Keeps M s₀ s) : Keeps M s₀ (resetOrders s) :=
  .foldl (fun _ _ h => .ite h.returnHost (.ite h.returnHost h)) _ h
protected theorem Keeps.dropFailedMove (h : Keeps M s₀ s) : Keeps M s₀ (dropFailedMove s) := .ite h.setCrane h
protected theorem Keeps.resetMove (h : Keeps M s₀ s) : Keeps M s₀ (resetMove s) := by
  unfold Machine.resetMove
  dsimp only
  split
  · exact .ite (Keeps.setCrane (.ite h h.sendCrane)) h.craneResetEnd
  · exact h.craneResetEnd
protected theorem Keeps.craneResetStart (h : Keeps M s₀ s) : Keeps M s₀ (craneResetStart s) :=
  h.resetOrders.dropFailedMove.resetMove

/-! ## Completions, write-backs and results -/

protected theorem Keeps.clearRing (h : Keeps M s₀ s) (mb : M.bed b) : Keeps M s₀ (clearRing s b) := h.setRing mb
protected theorem Keeps.clearCounters (h : Keeps M s₀ s) (mo : M.outer) (mb : ∀ b, M.bed b) : Keeps M s₀ (clearCounters s) :=
  (((((h.clearRing (mb _)).clearRing (mb _)).clearRing (mb _)).clearRing (mb _)).setCrane.setPath mo).setStock
protected theorem Keeps.settleTorch (h : Keeps M s₀ s) : Keeps M s₀ (settleTorch s) := h.setCmd
protected theorem Keeps.holdDone (h : Keeps M s₀ s) : Keeps M s₀ (holdDone s) := by
  unfold Machine.holdDone
  split
  · exact .ite h.give h
  · exact h
protected theorem Keeps.haltDone (h : Keeps M s₀ s) : Keeps M s₀ (haltDone s) := .ite h.setCmd.give h
protected theorem Keeps.clearReset (h : Keeps M s₀ s) : Keeps M s₀ (clearReset s b) := h.setRun
protected theorem Keeps.resetDone (h : Keeps M s₀ s) : Keeps M s₀ (resetDone s) :=
  .ite h.setCmd.setCrane.watchStart.clearReset.clearReset.clearReset.clearReset.give h
protected theorem Keeps.stopDone (h : Keeps M s₀ s) : Keeps M s₀ (stopDone s) := by
  unfold Machine.stopDone
  split
  · exact .ite h.give h
  · exact h
protected theorem Keeps.remarkDone (h : Keeps M s₀ s) : Keeps M s₀ (remarkDone s) := by
  unfold Machine.remarkDone
  split
  · split
    · exact h.give
    · exact h.give
    · exact h
  · exact h
protected theorem Keeps.clearRemark (h : Keeps M s₀ s) : Keeps M s₀ (clearRemark s b) := h.setRun
protected theorem Keeps.settleCommands (h : Keeps M s₀ s) : Keeps M s₀ (settleCommands s) :=
  h.settleTorch.holdDone.haltDone.resetDone.stopDone.remarkDone.clearRemark.clearRemark.clearRemark.clearRemark
protected theorem Keeps.settleRecords {x : State} (h : Keeps M s₀ s) : Keeps M s₀ (settleRecords x s) :=
  .foldl (fun _ _ h => .ite h h.pushControl) _ h
protected theorem Keeps.settleFault (h : Keeps M s₀ s) : Keeps M s₀ (settleFault s) := .ite h.setFaults.pushWb.defer h
protected theorem Keeps.settleResult {x : State} (h : Keeps M s₀ s) : Keeps M s₀ (settleResult x s) := by
  unfold Machine.settleResult
  dsimp only
  split
  · split
    · split
      · exact h.setCmd.pushResult.startRead
      · exact h.setCmd.pushResult
    · split
      · exact h.setCmd.defer.defer
      · exact h.setCmd.defer
  · exact h
/-- What follows by itself in a taking keeps every invariant. -/
protected theorem Keeps.settle {x : State} (h : Keeps M s₀ s) : Keeps M s₀ (settle x s) :=
  h.settleUnload.settleBeds.craneSelect.settleCommands.settleRecords.settleFault.settleResult

/-! ## Memory path (R181 to R197) -/

/-- The violation log keeps its last 8 records (R188). -/
theorem logViolation_length (p : Path) (v : Violation) : (logViolation p v).log.length ≤ Config.violationLog := by
  simp only [logViolation, List.length_drop]
  omega
theorem countViolation_eq (p : Path) (c : VCause) : (countViolation p c).ssp = p.ssp ∧ (countViolation p c).brackets = p.brackets := by
  cases c <;> exact ⟨rfl, rfl⟩
protected theorem Keeps.dropWrite {t : Transaction} {c : VCause} (h : Keeps M s₀ s) (mo : M.outer) :
    Keeps M s₀ (dropWrite s t c) := by
  refine Keeps.emit (Keeps.pushControl (Keeps.setFlag (h.setPath mo fun hp => ⟨?_, ?_, logViolation_length ..⟩)))
  · exact (congrArg List.length (countViolation_eq s.path c).1).trans_le hp.1
  · exact (congrArg List.length (countViolation_eq s.path c).2).trans_le hp.2.1
protected theorem Keeps.offer {t : Transaction} (h : Keeps M s₀ s) (mo : M.outer) : Keeps M s₀ (offer s t) := by
  unfold Machine.offer
  split
  · exact h.emit
  split
  · exact h.emit
  split
  case isTrue hroom => exact h.setPath mo fun hp => ⟨by simpa using hroom, hp.2⟩
  · exact h.setPath mo
/-- The queue takes in one transaction for the one that leaves it. -/
theorem sspPop_length (p : Path) (h : p.ssp.length ≤ Config.sspQueue) : (sspPop p).ssp.length ≤ Config.sspQueue := by
  unfold sspPop
  split
  · simp only [List.length_append, List.length_tail, List.length_singleton]
    simp only [Config.sspQueue] at h ⊢
    omega
  · simp only [List.length_tail]
    omega
theorem sspPop_eq (p : Path) : (sspPop p).brackets = p.brackets ∧ (sspPop p).log = p.log := by
  unfold sspPop
  split <;> exact ⟨rfl, rfl⟩
protected theorem Keeps.sspPop (h : Keeps M s₀ s) (mo : M.outer) : Keeps M s₀ (setPath s (sspPop s.path)) :=
  h.setPath mo fun hp => ⟨sspPop_length _ hp.1, (congrArg List.length (sspPop_eq s.path).1).trans_le hp.2.1,
    (congrArg List.length (sspPop_eq s.path).2).trans_le hp.2.2⟩
protected theorem Keeps.bracketRead {t : Transaction} (h : Keeps M s₀ s) (mo : M.outer) : Keeps M s₀ (bracketRead s t) := by
  unfold Machine.bracketRead
  dsimp only
  split
  · split
    · exact h.setPath mo fun hp => ⟨hp.1, by simpa using hp.2.1, hp.2.2⟩
    split
    case isTrue hroom => exact h.setPath mo fun hp => ⟨hp.1, by simpa using hroom, hp.2.2⟩
    · exact h
  · exact h
protected theorem Keeps.answerRetry (h : Keeps M s₀ s) (mo : M.outer) : Keeps M s₀ (answerRetry s) := (h.setPath mo).emit
protected theorem Keeps.classify {t : Transaction} (h : Keeps M s₀ s) (mo : M.outer) : Keeps M s₀ (classify s t) := by
  unfold Machine.classify
  dsimp only
  split
  · exact (h.sspPop mo).answerRetry mo
  split
  · split
    · exact (h.sspPop mo).dropWrite mo
    · exact (h.sspPop mo).setPath mo
  · exact (((h.sspPop mo).bracketRead mo).setPath mo)
protected theorem Keeps.grantMsp {u : MspUse} {t : Transaction} (h : Keeps M s₀ s) (mo : M.outer) : Keeps M s₀ (grantMsp s u t) :=
  (h.setPath mo).emit
protected theorem Keeps.grantEngine {r : Req} (h : Keeps M s₀ s) (mo : M.outer) : Keeps M s₀ (grantEngine s r) := by
  unfold Machine.grantEngine
  dsimp only
  split
  · exact h.setEngine.grantMsp mo
  · exact h.setEngine.grantMsp mo
protected theorem Keeps.grantNextLine {c : Current} {l : Line} (h : Keeps M s₀ s) (mo : M.outer) :
    Keeps M s₀ (grantNextLine s c l) :=
  h.setEngine.grantMsp mo
protected theorem Keeps.grantFetch (h : Keeps M s₀ s) (mo : M.outer) : Keeps M s₀ (grantFetch s b) := by
  unfold Machine.grantFetch
  dsimp only
  split
  · exact h.setRun.grantMsp mo
  · exact h
protected theorem Keeps.grantEngineSide (h : Keeps M s₀ s) (mo : M.outer) : Keeps M s₀ (grantEngineSide s) := by
  unfold Machine.grantEngineSide
  split
  · exact h.grantEngine mo
  split
  · exact (h.setPath mo).grantFetch mo
  · exact h
protected theorem Keeps.setSide {d : Side} (h : Keeps M s₀ s) (mo : M.outer) : Keeps M s₀ (setSide s d) := h.setPath mo
protected theorem Keeps.grantHost {f : Forward} {k : Bool} (h : Keeps M s₀ s) (mo : M.outer) : Keeps M s₀ (grantHost s f k) := by
  unfold Machine.grantHost
  dsimp only
  split
  · exact (((h.setPath mo).dropWrite mo).grantEngineSide mo)
  · split
    · exact (((h.setSide mo).setPath mo).grantMsp mo)
    · exact (h.setPath mo).grantMsp mo
protected theorem Keeps.grantSides (h : Keeps M s₀ s) (mo : M.outer) : Keeps M s₀ (grantSides s) := by
  unfold Machine.grantSides
  split
  · exact .ite (h.grantEngineSide mo) (.ite (h.grantHost mo) (.ite ((h.setSide mo).grantEngineSide mo) (h.grantHost mo)))
  · exact h.grantEngineSide mo
protected theorem Keeps.grant (h : Keeps M s₀ s) (mo : M.outer) : Keeps M s₀ (grant s) := by
  unfold Machine.grant
  split
  · exact h.grantNextLine mo
  split
  · exact (h.setPath mo).grantFetch mo
  · exact h.grantSides mo
protected theorem Keeps.endForward {o : Output} (h : Keeps M s₀ s) (mo : M.outer) : Keeps M s₀ (endForward s o) :=
  (h.setPath mo).emit
protected theorem Keeps.hostWriteAnswer {t : Transaction} {a : Ack} (h : Keeps M s₀ s) (mo : M.outer) :
    Keeps M s₀ (hostWriteAnswer s t a) := by
  unfold Machine.hostWriteAnswer
  split
  · exact h.endForward mo
  · exact .ite (h.endForward mo).watchEvent.pushResultAs (h.endForward mo)
protected theorem Keeps.beginVerification {v : Word} (h : Keeps M s₀ s) (mo : M.outer) : Keeps M s₀ (beginVerification s v) :=
  Keeps.pushRead (Keeps.setPath (h.setLoader mo) mo fun hp => ⟨hp.1, Nat.zero_le _, hp.2.2⟩)
protected theorem Keeps.commit {t : Transaction} (h : Keeps M s₀ s) (mo : M.outer) : Keeps M s₀ (commit s t) :=
  .ite ((h.endForward mo).setLoader mo) ((h.endForward mo).beginVerification mo)
theorem closeBracket_bounds (r : RecId) (h : PathBounds s) : PathBounds (setPath s (closeBracket s.path r)) :=
  ⟨h.1, (List.length_filter_le ..).trans h.2.1, h.2.2⟩
protected theorem Keeps.trigger {t : Transaction} (h : Keeps M s₀ s) (mo : M.outer) : Keeps M s₀ (trigger s t) :=
  (h.endForward mo).watchEvent.setCmd.pushRead
protected theorem Keeps.acknowledge {t : Transaction} (h : Keeps M s₀ s) (mo : M.outer) (ma : M.attention) :
    Keeps M s₀ (acknowledge s t) :=
  (h.endForward mo).watchEvent.setFaults (absurd ma ·)
protected theorem Keeps.burnWrite {i : Nat} (h : Keeps M s₀ s) (mo : M.outer) (mb : M.bed b) : Keeps M s₀ (burnWrite s b i) :=
  .ite ((h.endForward mo).watchEvent.takeOrder mb) (h.endForward mo).watchEvent
protected theorem Keeps.craneWrite {is : List Nat} (h : Keeps M s₀ s) (mo : M.outer) : Keeps M s₀ (craneWrite s is) := by
  refine .foldl (fun s i h => ?_) is (h.endForward mo).watchEvent
  split
  case isTrue htake => exact h.takeCrane (room_of_mayTake (Bool.and_eq_true_iff.1 htake).1)
  · exact h

/-! ## Answers of the MSP -/

protected theorem Keeps.runAct {a : Act} (h : Keeps M s₀ s) (ma : M.attention) : Keeps M s₀ (runAct s a) := by
  cases a
  · exact h.pushResult
  · exact h.addCause ma
  · exact h.startRead
protected theorem Keeps.fire {n : Nat} (h : Keeps M s₀ s) (ma : M.attention) : Keeps M s₀ (fire s n) :=
  .foldl (fun _ _ h => (h.runAct ma)) _ h.setEngine
protected theorem Keeps.writeBackAnswer {c : Current} {r : RecId} {a : Ack} (h : Keeps M s₀ s) (mo : M.outer) (ma : M.attention) :
    Keeps M s₀ (writeBackAnswer s c r a) := by
  unfold Machine.writeBackAnswer
  dsimp only
  split
  · exact Keeps.freeMsp (Keeps.setEngine (.ite h.writeBackFlag h)) mo
  · exact Keeps.fire (Keeps.setEngine (Keeps.finishReq (.ite h.writeBackFlag h) mo)) ma
protected theorem Keeps.endCommand (h : Keeps M s₀ s) (mo : M.outer) : Keeps M s₀ (endCommand s) := by
  unfold Machine.endCommand
  dsimp only
  split
  · exact .ite (h.setCmd.beginVerification mo) (h.setCmd.setLoader mo)
  · exact h.setCmd
protected theorem Keeps.resultAnswer {r : Req} {a : Ack} (h : Keeps M s₀ s) (mo : M.outer) (ma : M.attention) :
    Keeps M s₀ (resultAnswer s r a) := by
  unfold Machine.resultAnswer
  split
  · exact (h.finishReq mo).writeBackFlag.requeue
  · exact .ite (((h.finishReq mo).addCause ma).endCommand mo) ((h.finishReq mo).addCause ma)
protected theorem Keeps.check11 (h : Keeps M s₀ s) : Keeps M s₀ (check11 s b) := .ite h.rejectOrder h.setRun
protected theorem Keeps.check10 {d : Hand} (h : Keeps M s₀ s) : Keeps M s₀ (check10 s b d) :=
  .ite h.check11 (.ite h.setRun.pushRead h.rejectOrder)
protected theorem Keeps.bedElementAnswer {a : ReadAnswer} (h : Keeps M s₀ s) (mo : M.outer) (mb : M.bed b) :
    Keeps M s₀ (bedElementAnswer s b a) := by
  unfold Machine.bedElementAnswer
  dsimp only
  split
  · exact h.finishReq mo
  split
  · exact h.finishReq mo
  split
  · exact (h.finishReq mo).memoryFault mb
  · exact .ite (h.finishReq mo).setRun.push.rejectOrder (h.finishReq mo).setRun.push
protected theorem Keeps.ownerRefused (h : Keeps M s₀ s) (mb : M.bed b) : Keeps M s₀ (ownerRefused s b) := by
  unfold Machine.ownerRefused
  split
  · exact h
  · exact h.bedFlag mb
  · exact h.bedFlag mb
  · exact .ite (h.bedFlag mb) (h.memoryFault mb)
  · exact h.memoryFault mb
protected theorem Keeps.bedOwnerAnswer {q : Req} {a : ReadAnswer} (h : Keeps M s₀ s) (mo : M.outer) (mb : M.bed b) :
    Keeps M s₀ (bedOwnerAnswer s b q a) := by
  unfold Machine.bedOwnerAnswer
  split
  · exact (h.finishReq mo).ownerRefused mb
  · exact .ite ((h.finishReq mo).takeOrder mb) (h.finishReq mo)
protected theorem Keeps.descriptorAnswer {a : ReadAnswer} (h : Keeps M s₀ s) (mo : M.outer) (mb : M.bed b) :
    Keeps M s₀ (descriptorAnswer s b a) := by
  unfold Machine.descriptorAnswer
  dsimp only
  split
  · exact h.finishReq mo
  split
  · exact h.finishReq mo
  split
  · exact (h.finishReq mo).memoryFault mb
  · exact .ite (h.finishReq mo).setRun (h.finishReq mo).setRun.rejectOrder
protected theorem Keeps.bedReturnAnswer {q : Req} {a : Ack} (h : Keeps M s₀ s) (mo : M.outer) (ma : M.attention) (mb : M.bed b) :
    Keeps M s₀ (bedReturnAnswer s b q a) := by
  unfold Machine.bedReturnAnswer
  dsimp only
  split
  · exact (h.finishReq mo).writeBackFlag.requeue
  split
  · exact h.finishReq mo
  · refine .ite (Keeps.readOwner (Keeps.fire ?_ ma)) (Keeps.fire ?_ ma) <;>
      exact .ite (((h.finishReq mo).setRing mb).setRun.addCause ma) ((h.finishReq mo).setRing mb).setRun
protected theorem Keeps.takenAnswer {a : Ack} (h : Keeps M s₀ s) (mo : M.outer) : Keeps M s₀ (takenAnswer s a) :=
  .ite (h.finishReq mo).writeBackFlag (h.finishReq mo)
protected theorem Keeps.endFetch (h : Keeps M s₀ s) (mo : M.outer) : Keeps M s₀ (endFetch s b).1 := (h.freeMsp mo).setRun
protected theorem Keeps.markListAnswer {a : ReadAnswer} (h : Keeps M s₀ s) (mo : M.outer) (mb : M.bed b) :
    Keeps M s₀ (markListAnswer s b a) := by
  unfold Machine.markListAnswer
  dsimp only
  split
  · exact h.endFetch mo
  split
  · exact h.endFetch mo
  split
  · exact (h.endFetch mo).memoryFault mb
  split
  · exact (h.endFetch mo).setRun
  split
  · exact (h.endFetch mo).setRun.setRun.rejectOrder
  · exact (h.endFetch mo).setRun.check10
protected theorem Keeps.checkAnswer {a : ReadAnswer} (h : Keeps M s₀ s) (mo : M.outer) (mb : M.bed b) :
    Keeps M s₀ (checkAnswer s b a) := by
  unfold Machine.checkAnswer
  dsimp only
  split
  · split
    · exact h.endFetch mo
    split
    · exact (h.endFetch mo).memoryFault mb
    split
    · exact (h.endFetch mo).returnOrder.enter
    · exact .ite (h.endFetch mo).setRun (h.endFetch mo).setRun.setRun.enter
  · exact h.endFetch mo
protected theorem Keeps.streamAnswer {a : ReadAnswer} (h : Keeps M s₀ s) (mo : M.outer) (mb : M.bed b) :
    Keeps M s₀ (streamAnswer s b a) := by
  unfold Machine.streamAnswer
  dsimp only
  split
  · exact h.endFetch mo
  split
  · exact h.endFetch mo
  split
  · exact (h.endFetch mo).memoryFault mb
  · exact (h.endFetch mo).setRun
protected theorem Keeps.craneOwnerAnswer {i : Nat} {a : ReadAnswer} (h : Keeps M s₀ s) (mo : M.outer) :
    Keeps M s₀ (craneOwnerAnswer s i a) := by
  unfold Machine.craneOwnerAnswer
  dsimp only
  split
  · exact (h.finishReq mo).setCrane.writeBackFlag
  split
  · exact (h.finishReq mo).setCrane.readCraneOwner
  split
  case isTrue htake => exact (h.finishReq mo).setCrane.takeCrane (room_of_mayTake (Bool.and_eq_true_iff.1 htake).2)
  · exact (h.finishReq mo).setCrane
protected theorem Keeps.craneElementAnswer {i : Nat} {q : Req} {a : ReadAnswer} (h : Keeps M s₀ s) (mo : M.outer) (mt : M.table) :
    Keeps M s₀ (craneElementAnswer s i q a) := by
  unfold Machine.craneElementAnswer
  dsimp only
  have hread : Keeps M s₀ (if a == .refused then writeBackFlag (finishReq s) else finishReq s) :=
    .ite (h.finishReq mo).writeBackFlag (h.finishReq mo)
  split
  · exact hread
  split
  · exact hread
  split
  · exact hread.requeue
  · exact Keeps.acceptOrder (Keeps.push (hread.setCrane (hb := .map fun o ho => by split <;> exact ho))) mt
protected theorem Keeps.craneReturnAnswer {i : Nat} {q : Req} {a : Ack} (h : Keeps M s₀ s) (mo : M.outer) (ma : M.attention) :
    Keeps M s₀ (craneReturnAnswer s i q a) := by
  unfold Machine.craneReturnAnswer
  dsimp only
  split
  · exact (h.finishReq mo).writeBackFlag.requeue
  · exact Keeps.readCraneOwner (Keeps.fire (.ite (((h.finishReq mo).setCrane (hb := .filter _)).addCause ma)
      ((h.finishReq mo).setCrane (hb := .filter _))) ma)

/-! ## Requests inside the part, and the commands of the stock unit -/

protected theorem Keeps.command {f : State → State} (h : Keeps M s₀ s) (mo : M.outer) (hf : ∀ {s}, Keeps M s₀ s → Keeps M s₀ (f s)) :
    Keeps M s₀ (command s f) := .ite (h.finishReq mo).deny (hf (h.finishReq mo))
protected theorem Keeps.untargeted {f : State → State} (hf : ∀ {s}, Keeps M s₀ s → Keeps M s₀ (f s)) (h : Keeps M s₀ s) :
    Keeps M s₀ (untargeted s f) := .ite (hf h) h.deny
protected theorem Keeps.listChecks {d : Hand} (h : Keeps M s₀ s) : Keeps M s₀ (listChecks s b d) :=
  .ite h.rejectOrder (.ite h.rejectOrder (.ite h.rejectOrder (.ite h.check10 h.setRun)))
protected theorem Keeps.plateLookup {k : Bool} {d : Hand} (h : Keeps M s₀ s) : Keeps M s₀ (plateLookup s b k d) := by
  unfold Machine.plateLookup
  dsimp only
  split
  · exact h.rejectOrder
  · exact .ite h.rejectOrder (.ite h.rejectOrder (.ite h.rejectOrder (.ite h.setRun.check11 h.setRun.listChecks)))
protected theorem Keeps.idReserve {i : Nat} (h : Keeps M s₀ s) : Keeps M s₀ (idReserve s b i) :=
  .ite h.rejectOrder h.setStock.check11
protected theorem Keeps.burnGranted {d : Hand} (h : Keeps M s₀ s) : Keeps M s₀ (burnGranted s b d) := h.setRun
protected theorem Keeps.burnRequest {d : Hand} (h : Keeps M s₀ s) (mt : M.table) : Keeps M s₀ (burnRequest s b d) := by
  unfold Machine.burnRequest
  dsimp only
  split
  · exact h.rejectOrder
  split
  · exact h.rejectOrder
  split
  · exact h.rejectOrder
  split
  · exact (h.setPlate mt).burnGranted
  · exact .ite (h.setPlate mt).burnGranted h.rejectOrder
  · exact .ite h.burnGranted h.rejectOrder
  · exact h.setStock.setRun
protected theorem Keeps.claimRelease {r : Release} (h : Keeps M s₀ s) (mt : M.table) : Keeps M s₀ (claimRelease s r) := by
  unfold Machine.claimRelease
  dsimp only
  split
  · split
    · exact (h.setStock.setPlate mt).tellWaiters
    · exact h.setStock.setPlate mt
  · exact h.setStock
protected theorem Keeps.lockRequest {d : Hand} (h : Keeps M s₀ s) : Keeps M s₀ (lockRequest s b d) :=
  Keeps.setRun (h.setLocks (EntriesOk.request s.locks _))
protected theorem Keeps.placeRemnant {p : Plate} (h : Keeps M s₀ s) : Keeps M s₀ (placeRemnant s b p).1 := by
  unfold Machine.placeRemnant
  dsimp only
  split
  · exact h.reserve.setStock
  split
  · exact h.reserve.setStock
  · exact h.setStock
protected theorem Keeps.createRemnant {d : Hand} {l : Line} (h : Keeps M s₀ s) (mt : M.table) :
    Keeps M s₀ (createRemnant s b d l).1 := by
  unfold Machine.createRemnant
  dsimp only
  split
  · exact h.setStock
  split
  · exact h.setStock.setStock
  · exact (h.setStock.setStock.setPlate mt).placeRemnant
protected theorem Keeps.postUnload {d : Hand} (h : Keeps M s₀ s) : Keeps M s₀ (postUnload s b d) := by
  unfold Machine.postUnload
  dsimp only
  split
  case h_4 => exact .ite h.setRun.postRequest h.setRun
  all_goals exact .ite h.setRun.postRequest.postRequest h.setRun.postRequest
protected theorem Keeps.remnantCreation {d : Hand} (h : Keeps M s₀ s) (mt : M.table) : Keeps M s₀ (remnantCreation s b d) := by
  unfold Machine.remnantCreation
  cases d.desc with
  | none => exact .ite h.setRun.setRun h.setRun.postUnload
  | some l => exact .ite (h.createRemnant mt).setRun.setRun (h.createRemnant mt).setRun.postUnload
protected theorem Keeps.failMark {i : Nat} {c : MarkCause} (h : Keeps M s₀ s) (mb : M.bed b) : Keeps M s₀ (failMark s b i c) :=
  h.setRun.bedFlag mb
protected theorem Keeps.heatNumber {i : Nat} (h : Keeps M s₀ s) (mb : M.bed b) : Keeps M s₀ (heatNumber s b i) :=
  .ite (h.setRun.failMark mb) h.setRun.sendMark
protected theorem Keeps.holdExpiry {i : Nat} (h : Keeps M s₀ s) (mt : M.table) : Keeps M s₀ (holdExpiry s i) :=
  (h.setPlate mt).defer
protected theorem Keeps.plateRegister {q : Line} (h : Keeps M s₀ s) (mt : M.table) : Keeps M s₀ (plateRegister s q) := by
  unfold Machine.plateRegister
  dsimp only
  split
  · exact h.deny
  split
  · exact h.deny
  · exact h.deny
  · exact h.deny
  · exact .ite h.deny (.ite h.deny (h.setPlate mt).give)
protected theorem Keeps.plateAmend {q : Line} (h : Keeps M s₀ s) (mt : M.table) : Keeps M s₀ (plateAmend s q) := by
  unfold Machine.plateAmend
  dsimp only
  split
  · exact h.deny
  split
  · exact h.deny
  split
  · exact h.deny
  · exact (h.setPlate mt).give
protected theorem Keeps.plateRetire {q : Line} (h : Keeps M s₀ s) (mt : M.table) : Keeps M s₀ (plateRetire s q) := by
  unfold Machine.plateRetire
  dsimp only
  split
  · exact h.deny
  split
  · exact h.deny
  · exact .ite h.deny (.ite h.deny (.ite h.deny (.ite h.deny (h.setPlate mt).tellWaiters.give)))
/-- The token after one is never 0 (R12). -/
theorem nextToken_ne_zero (t : BitVec 16) : nextToken t ≠ 0 := by
  unfold nextToken
  split
  · decide
  case isFalse ht =>
    have ht : t ≠ 0xFFFF := by simpa using ht
    bv_omega
protected theorem Keeps.remnantFind {q : Line} (h : Keeps M s₀ s) (mo : M.outer) (mt : M.table) : Keeps M s₀ (remnantFind s q) := by
  unfold Machine.remnantFind
  dsimp only
  split
  · exact h.deny
  split
  · exact h.deny
  · exact Keeps.give ((h.setPlate mt).setStock (.inr ⟨mo, nextToken_ne_zero _⟩))
protected theorem Keeps.holdDrop {q : Line} (h : Keeps M s₀ s) (mt : M.table) : Keeps M s₀ (holdDrop s q) := by
  unfold Machine.holdDrop
  split
  · exact h.deny
  split
  · exact h.deny
  split
  · exact .ite (h.setPlate mt).give h.deny
  · exact h.deny

/-! ## Hall, fault commands, attention, statistics -/

protected theorem Keeps.hallCommandIn {l : List Mode} {q : Line} {f : State → State} (hf : ∀ {s}, Keeps M s₀ s → Keeps M s₀ (f s))
    (h : Keeps M s₀ s) : Keeps M s₀ (hallCommandIn l s q f) := .ite h.deny (.ite h.deny (hf h))
protected theorem Keeps.dropPause {m : Byte} (h : Keeps M s₀ s) : Keeps M s₀ (dropPause s b m) := h.setRun
protected theorem Keeps.dropHolds (h : Keeps M s₀ s) : Keeps M s₀ (dropHolds s) := .foldl (fun _ _ h => h.dropPause) _ h
protected theorem Keeps.hallRun (h : Keeps M s₀ s) : Keeps M s₀ (hallRun s) :=
  Keeps.give (Keeps.arbOffer (Keeps.arbGrant (.ite h.setMode.readCraneOwner h.setMode.dropHolds)))
protected theorem Keeps.enterHold {o : Origin} (h : Keeps M s₀ s) : Keeps M s₀ (enterHold s o) :=
  .foldl (fun _ _ h => h.addPause) _ h.setMode.setCmd
protected theorem Keeps.hallHold (h : Keeps M s₀ s) : Keeps M s₀ (hallHold s) := h.enterHold.setStage
protected theorem Keeps.haltBed (h : Keeps M s₀ s) : Keeps M s₀ (haltBed s b) := by
  unfold Machine.haltBed
  split
  · exact h.enter
  · exact h.returnOrder.enter
  · exact h.returnOrder.enter
  · exact h.returnOrder.enter
  · exact h.enterStopping
  · exact h.enterStopping
  · exact h.enterStopping
  · exact h.returnOrder.enter
  · exact h
protected theorem Keeps.haltCrane (h : Keeps M s₀ s) : Keeps M s₀ (haltCrane s) :=
  .foldl (fun _ _ h => .ite h.returnHost (.ite h.returnHost h)) _ h
protected theorem Keeps.hallHalt (h : Keeps M s₀ s) : Keeps M s₀ (hallHalt s) :=
  .foldl (fun _ _ h => h.haltBed) _ h.setMode.setCmd.setStage.haltCrane
protected theorem Keeps.resetBed (h : Keeps M s₀ s) (mb : M.bed b) : Keeps M s₀ (resetBed s b) :=
  .ite (h.setRun.clearRing mb) (.ite (h.setRun.clearRing mb).enterStopping (h.setRun.clearRing mb).endStopping)
protected theorem Keeps.clearClaims (h : Keeps M s₀ s) (mt : M.table) : Keeps M s₀ (clearClaims s) :=
  .foldl (fun _ _ h => .ite h (h.setPlate mt)) _ h
protected theorem Keeps.dropMoveRes (h : Keeps M s₀ s) : Keeps M s₀ (dropMoveRes s) := h.setCrane
protected theorem Keeps.resetStock (h : Keeps M s₀ s) (mt : M.table) : Keeps M s₀ (resetStock s) :=
  (h.dropMoveRes.clearClaims mt).setStock
protected theorem Keeps.resetPath (h : Keeps M s₀ s) (mo : M.outer) : Keeps M s₀ (setPath s (resetPath s.path)) :=
  h.setPath mo fun hp => ⟨hp.1, Nat.zero_le _, Nat.zero_le _⟩
protected theorem Keeps.hallReset (h : Keeps M s₀ s) (mo : M.outer) (mt : M.table) (mb : ∀ b, M.bed b) : Keeps M s₀ (hallReset s) :=
  .foldl (fun _ _ h => (h.resetBed (mb _))) _ 
    (((h.setMode.setCmd.setStage.setFaults (hb := fun b n => absurd (mb b) n)).resetPath mo).craneResetStart.resetStock mt)
protected theorem Keeps.watchExpiry (h : Keeps M s₀ s) : Keeps M s₀ (watchExpiry s) :=
  .ite h.setFaults (.ite h.setFaults.setFlag.enterHold h.setFaults.setFlag)
protected theorem Keeps.faultMask {q : Line} (h : Keeps M s₀ s) (mb : ∀ b, M.bed b) : Keeps M s₀ (faultMask s q) := by
  unfold Machine.faultMask
  dsimp only
  split
  · exact h.deny
  · exact .ite h.deny (.ite h.deny (Keeps.give (.ite (h.setGroup fun b _ => mb b).setFaults (h.setGroup fun b _ => mb b))))
protected theorem Keeps.faultClear {q : Line} (h : Keeps M s₀ s) (mb : ∀ b, M.bed b) : Keeps M s₀ (faultClear s q) := by
  unfold Machine.faultClear
  dsimp only
  split
  · exact h.deny
  · exact .ite h.deny (.ite h.deny (.ite h.deny (h.setGroup fun b _ => mb b).give))
protected theorem Keeps.attentionMask {q : Line} (h : Keeps M s₀ s) (mo : M.outer) : Keeps M s₀ (attentionMask s q) :=
  .ite h.deny (h.setFaults (hm := (absurd mo ·))).give
protected theorem Keeps.statsSnapshot {q : Line} (h : Keeps M s₀ s) (mo : M.outer) (mb : ∀ b, M.bed b) :
    Keeps M s₀ (statsSnapshot s q) :=
  .ite h.deny (.ite h.deny (Keeps.give (Keeps.pushControl (.ite (h.setCmd.clearCounters mo mb) h.setCmd))))

/-! ## Commands of the beds -/

protected theorem Keeps.bedCommand {l : List (Nat × Nat)} {q : Line} {f : State → BedId → State}
    (hf : ∀ {s b}, Keeps M s₀ s → Keeps M s₀ (f s b)) (h : Keeps M s₀ s) : Keeps M s₀ (bedCommand l s q f) := by
  unfold Machine.bedCommand
  split
  · exact h.deny
  · exact .ite h.deny (.ite h.deny (hf h))
protected theorem Keeps.bedStart (h : Keeps M s₀ s) : Keeps M s₀ (bedStart s b) :=
  .ite h.deny (.ite h.deny (.ite h.deny h.enter.giveWith))
protected theorem Keeps.bedStop (h : Keeps M s₀ s) : Keeps M s₀ (bedStop s b) := by
  unfold Machine.bedStop
  dsimp only
  split
  · exact h.enter.give
  · exact h.returnOrder.enter.give
  · exact h.returnOrder.enter.give
  · exact h.returnOrder.enter.give
  · exact h.enterStopping.setStage
  · exact h.enterStopping.setStage
  · exact h.enterStopping.setStage
  · exact h.returnOrder.enter.give
  · exact h.deny
protected theorem Keeps.bedPause (h : Keeps M s₀ s) : Keeps M s₀ (bedPause s b) := .ite h.addPause.give h.deny
protected theorem Keeps.giveResume (h : Keeps M s₀ s) : Keeps M s₀ (giveResume s b) := h.give
protected theorem Keeps.bedResume {q : Line} (h : Keeps M s₀ s) : Keeps M s₀ (bedResume q s b) :=
  .ite h.deny (.ite h.deny h.dropPause.giveResume)
protected theorem Keeps.bedResumeWaive (h : Keeps M s₀ s) : Keeps M s₀ (bedResumeWaive s b) :=
  .ite h.deny h.dropPause.setRun.giveResume
protected theorem Keeps.bedResumeRemark (h : Keeps M s₀ s) : Keeps M s₀ (bedResumeRemark s b) :=
  .ite h.deny (.ite h.deny h.dropPause.setRun.setStage)
protected theorem Keeps.bedRelease (h : Keeps M s₀ s) : Keeps M s₀ (bedRelease s b) := by
  unfold Machine.bedRelease
  dsimp only
  split
  · exact .ite h.postUnload.give h.deny
  · exact h.deny
protected theorem Keeps.bedRecover (h : Keeps M s₀ s) : Keeps M s₀ (bedRecover s b) := .ite h.deny (.ite h.deny h.enter.give)
protected theorem Keeps.monitorTest {q : Line} (h : Keeps M s₀ s) (mb : M.bed b) : Keeps M s₀ (monitorTest q s b) :=
  .ite h.deny (.ite h.deny (.ite h.deny (h.bedFlag mb).setRun.pushControl.giveWith))

/-! ## Gantries, permits and the token -/

protected theorem Keeps.enterUnloading (h : Keeps M s₀ s) : Keeps M s₀ (enterUnloading s b) :=
  h.releasePermit.releaseLocks.setZone.enter.setRun
protected theorem Keeps.execEntry {e : Entry} (h : Keeps M s₀ s) : Keeps M s₀ (execEntry s b e) :=
  .ite h.setRun (.ite h.setRun.enterUnloading h.setRun.setRun)
protected theorem Keeps.stepDone {n : Byte} (h : Keeps M s₀ s) (mb : M.bed b) : Keeps M s₀ (stepDone s b n) := by
  unfold Machine.stepDone
  dsimp only
  have hentry : ∀ {e : Entry} {rest : List Entry} {p : Bool}, Keeps M s₀ (execEntry (setStream (if p then releaseToken s b else s) b
      { streamOf (if p then releaseToken s b else s) b with window := rest }) b e) :=
    fun {_ _ p} => Keeps.execEntry (Keeps.setStream (.ite h.releaseToken h))
  split
  case h_5 => exact h
  · exact h.gantryFault mb
  all_goals
    split
    · exact .ite hentry (.ite h (h.gantryFault mb))
    · exact .ite h (h.gantryFault mb)
protected theorem Keeps.pierceDone (h : Keeps M s₀ s) : Keeps M s₀ (pierceDone s b) := by
  unfold Machine.pierceDone
  split
  · exact .ite h.releaseToken h
  · exact h.releaseToken
  · exact h
protected theorem Keeps.pierceFails (h : Keeps M s₀ s) (mb : M.bed b) : Keeps M s₀ (pierceFails s b) :=
  (h.releaseToken.bedFlag mb).addPause
protected theorem Keeps.pierceFail (h : Keeps M s₀ s) (mb : M.bed b) : Keeps M s₀ (pierceFail s b) := by
  unfold Machine.pierceFail
  split
  · exact .ite (h.pierceFails mb) h
  · exact h.releaseToken
  · exact h
protected theorem Keeps.arcSample {v : Nat} (h : Keeps M s₀ s) (mb : M.bed b) : Keeps M s₀ (arcSample s b v) :=
  .ite h (.ite (h.bedFlag mb).setRun.addPause (.ite (h.setRun.faultBed mb) h.setRun))
protected theorem Keeps.pausedReply {n : Byte} (h : Keeps M s₀ s) (mb : M.bed b) : Keeps M s₀ (pausedReply s b n) := by
  unfold Machine.pausedReply
  dsimp only
  split
  · exact h
  split
  · exact h.gantryFault mb
  split
  · exact h.releaseToken.leaveTokenList.setStream.enterUnloading
  split
  · exact (h.releaseToken.leaveTokenList.setStream.enter.setRun.bedFlag mb).enterFaulted mb
  · exact h.releaseToken.leaveTokenList.setStream.enter.setRun
protected theorem Keeps.stoppedReply (h : Keeps M s₀ s) (mb : M.bed b) : Keeps M s₀ (stoppedReply s b) := by
  unfold Machine.stoppedReply
  dsimp only
  split
  · exact h.gantryFault mb
  · exact h.gantryFault mb
  · exact h.gantryFault mb
  · exact h.endStopping
  · exact h
protected theorem Keeps.markDone (h : Keeps M s₀ s) : Keeps M s₀ (markDone s b) := by
  unfold Machine.markDone
  dsimp only
  split
  · exact h.setRun
  · exact h
protected theorem Keeps.markAttemptFails {c : MarkCause} (h : Keeps M s₀ s) (mb : M.bed b) :
    Keeps M s₀ (markAttemptFails s b c) := by
  unfold Machine.markAttemptFails
  dsimp only
  split
  · exact .ite h.setRun (h.failMark mb)
  · exact h
protected theorem Keeps.gantryFaultMessage {c : Byte} (h : Keeps M s₀ s) (mb : M.bed b) :
    Keeps M s₀ (gantryFaultMessage s b c) := by
  unfold Machine.gantryFaultMessage
  dsimp only
  split
  · exact (h.setLink mb).bedFlag mb
  · exact (h.setLink mb).bedFlag mb
  · exact (h.setLink mb).bedFlag mb
  · exact h.setLink mb
  · exact (h.setLink mb).gantryFault mb
protected theorem Keeps.linkLost (h : Keeps M s₀ s) (mb : M.bed b) : Keeps M s₀ (linkLost s b) := by
  unfold Machine.linkLost
  dsimp only
  have hform : ∀ {p : Bool}, Keeps M s₀ (if p then bedFlag (setLink s b { (bedOf s b).lk with live := false, hold := false }) b fSTEP_FORM
      else setLink s b { (bedOf s b).lk with live := false, hold := false }) := .ite ((h.setLink mb).bedFlag mb) (h.setLink mb)
  split
  · exact hform.bedFlag mb
  · exact hform.bedFlag mb
  · exact hform
  · exact (hform.bedFlag mb).endStopping
  · exact hform.faultBed mb
protected theorem Keeps.stopLimit (h : Keeps M s₀ s) (mb : M.bed b) : Keeps M s₀ (stopLimit s b) :=
  .ite (h.bedFlag mb).sendBed.endStopping (h.gantryFault mb)
protected theorem Keeps.setHold {k : Bool} (h : Keeps M s₀ s) (mb : M.bed b) : Keeps M s₀ (setHold s b k) := .ite h (h.setLink mb)
protected theorem Keeps.permitRequest (h : Keeps M s₀ s) : Keeps M s₀ (permitRequest s b) := h.setRun.setArb.arbGrant
protected theorem Keeps.permitGrant (h : Keeps M s₀ s) : Keeps M s₀ (permitGrant s b) :=
  .ite h.setArb.setRun h.setArb.dropHolder.arbGrant
protected theorem Keeps.tokenRequest (h : Keeps M s₀ s) : Keeps M s₀ (tokenRequest s b) :=
  .ite h.setRun.setArb.arbOffer h.setRun.setArb
protected theorem Keeps.readyReport (h : Keeps M s₀ s) : Keeps M s₀ (readyReport s b) := .ite h.setRun.arbOffer h.setRun
protected theorem Keeps.firstPierce (h : Keeps M s₀ s) (mt : M.table) : Keeps M s₀ (firstPierce s b) := by
  unfold Machine.firstPierce
  dsimp only
  split
  · exact .ite (h.setRun.setPlate mt) h.setRun
  · exact h.setRun
protected theorem Keeps.acceptToken {e : Entry} (h : Keeps M s₀ s) (mt : M.table) : Keeps M s₀ (acceptToken s b e) :=
  .ite h.setArb.setStream.sendStep.setRun (h.setArb.setStream.sendStep.setRun.firstPierce mt)
protected theorem Keeps.tokenOffer (h : Keeps M s₀ s) (mt : M.table) : Keeps M s₀ (tokenOffer s b) := by
  unfold Machine.tokenOffer
  dsimp only
  split
  · exact h.setArb.arbOffer
  split
  · exact .ite (h.setArb.acceptToken mt) h.setArb
  · exact h.setArb

/-! ## Messages and commands of the crane -/

protected theorem Keeps.disobeyed (h : Keeps M s₀ s) : Keeps M s₀ (disobeyed s) := h.craneFlag.craneFaulted
protected theorem Keeps.craneAccept (h : Keeps M s₀ s) : Keeps M s₀ (craneAccept s) := .ite h.craneTo.setCrane h
protected theorem Keeps.backToBank {m : Move} (h : Keeps M s₀ s) : Keeps M s₀ (backToBank s m) := by
  unfold Machine.backToBank
  dsimp only
  split
  · exact h.setOrder
  split
  · exact .ite h.setCrane h
  · exact h
protected theorem Keeps.refused {m : Move} (h : Keeps M s₀ s) : Keeps M s₀ (refused s m) := by
  unfold Machine.refused
  dsimp only
  have hrest := h.craneFlag (i := fcREFUSED) |>.backToBank (m := m) |>.convertRes (q := m.req) (l := infeedOnly m.dst) |>.craneRest (m := m)
  exact .ite (Keeps.haltCrane (.ite hrest.setCrane.craneFaulted hrest.setCrane)) (.ite hrest.setCrane.craneFaulted hrest.setCrane)
protected theorem Keeps.cancelDropped {m : Move} (h : Keeps M s₀ s) : Keeps M s₀ (cancelDropped s m) := h.endHost.craneRest
protected theorem Keeps.craneDropped {m : Move} (h : Keeps M s₀ s) (ml : M.craneLink) : Keeps M s₀ (craneDropped s m) :=
  .ite (.ite (h.setLoad ml).craneResetEnd (h.setLoad ml).cancelDropped) h
protected theorem Keeps.craneRefuse {m : Move} (h : Keeps M s₀ s) (ml : M.craneLink) : Keeps M s₀ (craneRefuse s m) := by
  unfold Machine.craneRefuse
  split
  · exact .ite (h.craneDropped ml) (.ite h.craneResetEnd h.refused)
  · exact .ite h h.disobeyed
  · exact h
protected theorem Keeps.craneLifted {m : Move} {x : Nat} (h : Keeps M s₀ s) (mt : M.table) (ml : M.craneLink) :
    Keeps M s₀ (craneLifted s m x) := by
  unfold Machine.craneLifted
  dsimp only
  split
  · exact h
  split
  · exact ((h.setLoad ml).stockLift mt).setMove.craneTo
  split
  · exact ((h.setLoad ml).stockLift mt).setMove.craneTo
  · refine Keeps.craneTo (Keeps.setMove ?_)
    split
    · exact (Keeps.stockTurnBack (.ite (h.setLoad ml) (h.setLoad ml).sendCrane) mt).craneFlag.setCrane
    · exact Keeps.stockTurnBack (.ite (h.setLoad ml) (h.setLoad ml).sendCrane) mt
protected theorem Keeps.craneArrived (h : Keeps M s₀ s) : Keeps M s₀ (craneArrived s) := .ite h.craneTo h
protected theorem Keeps.setAtDestination {m : Move} (h : Keeps M s₀ s) (mt : M.table) : Keeps M s₀ (setAtDestination s m) :=
  .ite (h.stockSet mt).convertRes.craneResetEnd (h.stockSet mt).convertRes.setCrane.endHost.reportDone.craneRest
protected theorem Keeps.setAtSource {m : Move} (h : Keeps M s₀ s) (mt : M.table) : Keeps M s₀ (setAtSource s m) := by
  unfold Machine.setAtSource
  dsimp only
  have hset : Keeps M s₀ (if m.massBad then setSuspect (convertRes (stockSet s m.ix m.plate m.src) m.req m.src) m.ix m.plate
      else convertRes (stockSet s m.ix m.plate m.src) m.req m.src) := .ite ((h.stockSet mt).convertRes.setSuspect mt) (h.stockSet mt).convertRes
  exact .ite hset.craneResetEnd hset.endHost.craneRest.reportBack
protected theorem Keeps.craneSet {m : Move} (h : Keeps M s₀ s) (mt : M.table) (ml : M.craneLink) : Keeps M s₀ (craneSet s m) := by
  unfold Machine.craneSet
  split
  · exact (h.setLoad ml).setAtDestination mt
  · exact (h.setLoad ml).setAtDestination mt
  · exact .ite ((h.setLoad ml).setAtSource mt) (.ite h (h.setLoad ml).disobeyed)
  · exact h
protected theorem Keeps.craneReturning {m : Move} (h : Keeps M s₀ s) (mt : M.table) (ml : M.craneLink) :
    Keeps M s₀ (craneReturning s m) := by
  unfold Machine.craneReturning
  split
  · exact .ite h.setMove h
  split
  · exact ((h.setLoad ml).stockLift mt).setMove.craneTo.craneResetEnd
  · exact ((h.setLoad ml).stockLift mt).setMove.craneTo.craneResetEnd
  · exact h.setMove.craneResetEnd
  · exact .ite h h.setMove.craneResetEnd
  · exact h
protected theorem Keeps.craneFaultMessage {i : Byte} {c : CraneCause} (h : Keeps M s₀ s) (mt : M.table) (ml : M.craneLink) :
    Keeps M s₀ (craneFaultMessage s i c) := by
  unfold Machine.craneFaultMessage
  dsimp only
  split
  · exact h.craneHeard ml
  · split
    · exact .ite ((h.craneHeard ml).setCrane.craneFlag.loadDrop mt) ((h.craneHeard ml).setCrane.craneFlag.loadDrop mt).craneFaulted
    · exact .ite (h.craneHeard ml).setCrane (h.craneHeard ml).setCrane.craneFaulted
protected theorem Keeps.craneReady {k : Bool} (h : Keeps M s₀ s) (ml : M.craneLink) : Keeps M s₀ (craneReady s k) :=
  have hup := h.setCrane (hl := (absurd ml ·))
  .ite hup.setCrane.craneFlag hup
protected theorem Keeps.craneLinkLost (h : Keeps M s₀ s) (ml : M.craneLink) : Keeps M s₀ (craneLinkLost s) :=
  have hdown := h.setCrane (hl := (absurd ml ·))
  .ite hdown.craneFlag.craneResetEnd hdown.craneFlag.craneFaulted
protected theorem Keeps.phaseOver (h : Keeps M s₀ s) : Keeps M s₀ (phaseOver s) := .ite h.craneFlag h.craneFlag.craneFaulted
protected theorem Keeps.takePost {q : BedReq} (h : Keeps M s₀ s) : Keeps M s₀ (takePost s b q) := h.setCrane
protected theorem Keeps.takeWithdraw (h : Keeps M s₀ s) : Keeps M s₀ (takeWithdraw s b) :=
  .foldl (fun _ _ h => h.releaseRes) _ h.setCrane
protected theorem Keeps.cancelFlight {o : StockOrder} {m : Move} (h : Keeps M s₀ s) : Keeps M s₀ (cancelFlight s o m) := by
  unfold Machine.cancelFlight
  dsimp only
  split
  · exact h.deny
  split
  · exact h.sendCrane.setMove.give
  · exact h.sendCrane.setMove.give
  · exact .ite h.deny h.releaseRes.reserve.setMove.sendCrane.craneTo.give
  · exact h.deny
protected theorem Keeps.cancelOrder {o : StockOrder} (h : Keeps M s₀ s) : Keeps M s₀ (cancelOrder s o) := by
  unfold Machine.cancelOrder
  split
  · exact h.deny
  · exact h.deny
  · exact h.returnHost.give
  · exact h.returnHost.give
  split
  · exact h.cancelFlight
  · exact h.deny
protected theorem Keeps.craneCancel {q : Line} (h : Keeps M s₀ s) : Keeps M s₀ (craneCancel s q) := by
  unfold Machine.craneCancel
  dsimp only
  split
  · exact h.deny
  split
  · exact h.deny
  split
  · exact h.deny
  · exact h.deny
  split
  · exact h.deny
  · exact h.cancelOrder
protected theorem Keeps.recovered {zs : List BedId} (h : Keeps M s₀ s) : Keeps M s₀ (recovered s zs) := h.freeZones.setCrane.give
protected theorem Keeps.placeAt {m : Move} {l : Loc} (h : Keeps M s₀ s) (mt : M.table) (ht : placeAt s m l = some t) :
    Keeps M s₀ t := by
  unfold Machine.placeAt at ht
  split at ht
  · exact Option.some.inj ht ▸ h
  split at ht
  · exact Option.some.inj ht ▸ (h.stockSet mt).convertRes
  split at ht
  · exact Option.some.inj ht ▸ (h.stockSet mt)
  · cases ht
protected theorem Keeps.recoverAt {m : Move} {l : Loc} {f : State → State} (hf : ∀ {s}, Keeps M s₀ s → Keeps M s₀ (f s)) (h : Keeps M s₀ s) (mt : M.table) :
    Keeps M s₀ (recoverAt s m l f) := by
  unfold Machine.recoverAt
  split
  · exact h.deny
  case h_2 hplace => exact (hf ((h.placeAt mt) hplace)).recovered
protected theorem Keeps.recoverSource {m : Move} (h : Keeps M s₀ s) (mt : M.table) : Keeps M s₀ (recoverSource s m) := by
  unfold Machine.recoverSource
  dsimp only
  have hreport : ∀ {s : State}, Keeps M s₀ s → Keeps M s₀ (reportBack (endHost
      (if m.kind == .remnantOut && m.live then if m.massBad then setSuspect s m.ix m.plate else s
        else endRes (if m.massBad then setSuspect s m.ix m.plate else s) m) m cFAULT_ABORT
      (recoveredLoc (if m.kind == .remnantOut && m.live then if m.massBad then setSuspect s m.ix m.plate else s
        else endRes (if m.massBad then setSuspect s m.ix m.plate else s) m) m m.src) (measuredOf m)) m m.massBad) := by
    intro s h
    have hmass : Keeps M s₀ (if m.massBad then setSuspect s m.ix m.plate else s) := .ite (h.setSuspect mt) h
    exact Keeps.reportBack (Keeps.endHost (.ite hmass hmass.endRes))
  exact .ite (Keeps.recoverAt hreport h mt) (hreport h).recovered
protected theorem Keeps.recoverDestination {m : Move} (h : Keeps M s₀ s) (mt : M.table) : Keeps M s₀ (recoverDestination s m) := by
  unfold Machine.recoverDestination
  dsimp only
  split
  · exact h.deny
  case h_2 hplace => exact (Keeps.placeAt (.ite h (h.stockLift mt)) mt hplace).endRes.endHost.reportDone.recovered
protected theorem Keeps.recoverLost {m : Move} (h : Keeps M s₀ s) (mt : M.table) : Keeps M s₀ (recoverLost s m) :=
  (h.makeLost mt).endRes.endHost.reportLost.recovered
protected theorem Keeps.craneRecover {q : Line} {f : State → Move → State} (hf : ∀ {s m}, Keeps M s₀ s → Keeps M s₀ (f s m))
    (h : Keeps M s₀ s) : Keeps M s₀ (craneRecover s q f) := by
  unfold Machine.craneRecover
  split
  · exact h.deny
  split
  · exact hf h
  · exact h.recovered

/-! ## Verification (R199 to R207) -/

protected theorem Keeps.setVer {v : Verif} (h : Keeps M s₀ s) (mo : M.outer) : Keeps M s₀ (setVer s v) := h.setLoader mo
protected theorem Keeps.giveVerdict {v : Verif} {c x y : Nat} (h : Keeps M s₀ s) (mo : M.outer) :
    Keeps M s₀ (giveVerdict s v c x y) := (h.setVer mo).pushWb
protected theorem Keeps.failVerdict {v : Verif} {f : Fail} (h : Keeps M s₀ s) (mo : M.outer) : Keeps M s₀ (failVerdict s v f) :=
  h.giveVerdict mo
protected theorem Keeps.anchorLine {v : Verif} {q : Nat} {d : Line} (h : Keeps M s₀ s) (mo : M.outer) :
    Keeps M s₀ (anchorLine s v q d) := by
  unfold Machine.anchorLine
  dsimp only
  split
  · exact (h.setVer mo).failVerdict mo
  split
  · exact (h.setVer mo).pushRead
  split
  · exact (h.setVer mo).failVerdict mo
  split
  · exact (h.setVer mo).failVerdict mo
  · exact ((h.setVer mo).setVer mo).pushRead
protected theorem Keeps.returnHeld (h : Keeps M s₀ s) : Keeps M s₀ (returnHeld s) :=
  Keeps.setCrane (.foldl (fun _ _ h => h.returnHost) _ h)
protected theorem Keeps.scanEnd {v : Verif} {a : Anchor} (h : Keeps M s₀ s) (mo : M.outer) : Keeps M s₀ (scanEnd s v a) := by
  unfold Machine.scanEnd
  dsimp only
  split
  · exact h.failVerdict mo
  · exact Keeps.giveVerdict (.foldl (fun _ _ h => h.pushWb) _ (.ite h.returnHeld h)) mo
protected theorem Keeps.scanSecond {v : Verif} {a : Anchor} {i : Nat} {x y : Line} (h : Keeps M s₀ s) (mo : M.outer) :
    Keeps M s₀ (scanSecond s v a i x y) := by
  unfold Machine.scanSecond
  dsimp only
  split
  · exact h.failVerdict mo
  · exact .ite (h.setVer mo).pushRead ((h.setVer mo).scanEnd mo)
protected theorem Keeps.scanLine {v : Verif} {a : Anchor} {i : Nat} {k : Bool} {d : Line} (h : Keeps M s₀ s) (mo : M.outer) :
    Keeps M s₀ (scanLine s v a i k d) := .ite (h.scanSecond mo) (h.setVer mo).pushRead
protected theorem Keeps.takeBeds {a : Anchor} (h : Keeps M s₀ s) (mb : ∀ b, M.bed b) : Keeps M s₀ (takeBeds s a) :=
  ⟨h.path, h.bank, h.counters, h.locks, h.permits, h.rest.trans
    ⟨rfl, rfl, rfl, fun _ => ⟨rfl, rfl, rfl, rfl⟩, fun _ => rfl, fun _ => rfl, fun _ => rfl, fun b n => absurd (mb b) n⟩⟩
protected theorem Keeps.takeCraneCfg {a : Anchor} (h : Keeps M s₀ s) : Keeps M s₀ (takeCraneCfg s a) :=
  Keeps.setCrane (.ite h.setCrane h)
protected theorem Keeps.putInForce {a : Anchor} {l : List Plate} (h : Keeps M s₀ s) (mo : M.outer) (mt : M.table) (mb : ∀ b, M.bed b) :
    Keeps M s₀ (putInForce s a l) :=
  .foldl (fun _ _ h => h.pushControl) _
    (Keeps.watchStart (Keeps.setArb
      (((h.takeCraneCfg.takeBeds mb).dropMoveRes.setLoader mo).setStock (ht := (absurd mt ·))).setEngine fun _ => Nat.zero_le _))
protected theorem Keeps.endVerification {v : Verif} (h : Keeps M s₀ s) (mo : M.outer) (mt : M.table) (mb : ∀ b, M.bed b) :
    Keeps M s₀ (endVerification s v) := by
  unfold Machine.endVerification
  dsimp only
  have hmode : ∀ {s : State} {p : Bool}, Keeps M s₀ s → Keeps M s₀ (pushControl (if p then setMode s .halt .none else s) .hall) :=
    fun h => Keeps.pushControl (.ite h.setMode h)
  split
  · split
    · exact hmode ((h.putInForce mo mt mb).setLoader mo)
    · exact hmode (h.setLoader mo)
  · exact hmode (h.setLoader mo)
protected theorem Keeps.verdictAnswer {v : Verif} {a : Ack} (h : Keeps M s₀ s) (mo : M.outer) (mt : M.table) (mb : ∀ b, M.bed b) :
    Keeps M s₀ (verdictAnswer s v a) :=
  Keeps.endVerification (.ite (h.finishReq mo).setEngine.writeBackFlag (h.finishReq mo).setEngine) mo mt mb

end Sys2Proof.Machine
end

section
namespace Sys2Proof.Machine

variable {M : May} {s t u : State} {c : Instr}

/-! ## What each command can do -/

/-- A message about the move of this ID; one about another is discarded (R142). -/
def onMove (s : State) (id : Byte) (f : State → Move → State) : State :=
  match s.crane.move with
  | some m => if m.id == id then f s m else s
  | none => s

/-- The states that a command's own effect can give, before what follows by itself in the taking. HARD_RESET has none: it is no
taking. -/
inductive Effect (s : State) : Instr → State → Prop
  | memoryReady : Effect s (.memoryReady) (beginVerification (setPath (fresh s) { s.path with memReady := true }) 0)
  | sspTransaction {t : Transaction} : Effect s (.sspTransaction t) (offer (fresh s) t)
  | hostClassify {t : Transaction} : Effect s (.hostClassify) (classify (fresh s) t)
  | mspGrant : Effect s (.mspGrant) (grant (fresh s))
  | hostWriteAnswer {t : Transaction} {a : Ack} : Effect s (.hostWriteAnswer a) (hostWriteAnswer (fresh s) t a)
  | bracketClose {r : RecId} {a : ReadAnswer} :
      Effect s (.bracketClose a) (endForward (setPath (fresh s) (closeBracket s.path r)) (readReply a))
  | bracketExpiry {r : RecId} : Effect s (.bracketExpiry r) (setPath (fresh s) { closeBracket s.path r with expired := s.path.expired + 1 })
  | burnRingIssuedWrite {b : BedId} {i : Nat} : Effect s (.burnRingIssuedWrite) (burnWrite (fresh s) b i)
  | craneRingIssuedWrite {l : List Nat} : Effect s (.craneRingIssuedWrite) (craneWrite (fresh s) l)
  | acknowledgeWrite {t : Transaction} : Effect s (.acknowledgeWrite) (acknowledge (fresh s) t)
  | commit {t : Transaction} : Effect s (.commit) (commit (fresh s) t)
  | commandSlotReadRefused : Effect s (.commandSlotReadRefused) (deny (writeBackFlag (finishReq (fresh s))) oPARAM 0 1)
  | hallRun {q : Line} : Effect s (.hallRun q) (command (fresh s) fun s => hallCommandIn [.halt, .hold] s q hallRun)
  | hallHold {q : Line} : Effect s (.hallHold q) (command (fresh s) fun s => hallCommandIn [.run] s q hallHold)
  | hallHalt {q : Line} : Effect s (.hallHalt q) (command (fresh s) fun s => hallCommandIn [.run, .hold] s q hallHalt)
  | hallReset {q : Line} : Effect s (.hallReset q) (command (fresh s) fun s => hallCommandIn [.halt, .run, .hold] s q hallReset)
  | faultClear {q : Line} : Effect s (.faultClear q) (command (fresh s) fun s => untargeted s fun s => faultClear s q)
  | faultMask {q : Line} : Effect s (.faultMask q) (command (fresh s) fun s => untargeted s fun s => faultMask s q)
  | monitorTest {q : Line} : Effect s (.monitorTest q) (command (fresh s) fun s => bedCommand [(0, 1)] s q (monitorTest q))
  | bedStart {q : Line} : Effect s (.bedStart q) (command (fresh s) fun s => bedCommand [] s q bedStart)
  | bedStop {q : Line} : Effect s (.bedStop q) (command (fresh s) fun s => bedCommand [] s q bedStop)
  | bedPause {q : Line} : Effect s (.bedPause q) (command (fresh s) fun s => bedCommand [] s q bedPause)
  | bedResume {q : Line} : Effect s (.bedResume q) (command (fresh s) fun s => bedCommand [(0, 1)] s q (bedResume q))
  | bedResumeWaive {q : Line} : Effect s (.bedResumeWaive q) (command (fresh s) fun s => bedCommand [(0, 1)] s q bedResumeWaive)
  | bedResumeRemark {q : Line} : Effect s (.bedResumeRemark q) (command (fresh s) fun s => bedCommand [(0, 1)] s q bedResumeRemark)
  | bedRelease {q : Line} : Effect s (.bedRelease q) (command (fresh s) fun s => bedCommand [] s q bedRelease)
  | bedRecover {q : Line} : Effect s (.bedRecover q) (command (fresh s) fun s => bedCommand [] s q bedRecover)
  | craneCancel {q : Line} : Effect s (.craneCancel q) (command (fresh s) fun s => untargeted s fun s => craneCancel s q)
  | craneRecoverNone {q : Line} :
      Effect s (.craneRecoverNone q) (command (fresh s) fun s => untargeted s fun s => craneRecover s q fun s _ => s)
  | craneRecoverAtSource {q : Line} :
      Effect s (.craneRecoverAtSource q) (command (fresh s) fun s => untargeted s fun s => craneRecover s q recoverSource)
  | craneRecoverAtDestination {q : Line} :
      Effect s (.craneRecoverAtDestination q) (command (fresh s) fun s => untargeted s fun s => craneRecover s q recoverDestination)
  | craneRecoverLost {q : Line} :
      Effect s (.craneRecoverLost q) (command (fresh s) fun s => untargeted s fun s => craneRecover s q recoverLost)
  | plateRegister {q : Line} : Effect s (.plateRegister q) (command (fresh s) fun s => untargeted s fun s => plateRegister s q)
  | plateAmend {q : Line} : Effect s (.plateAmend q) (command (fresh s) fun s => untargeted s fun s => plateAmend s q)
  | plateRetire {q : Line} : Effect s (.plateRetire q) (command (fresh s) fun s => untargeted s fun s => plateRetire s q)
  | remnantFind {q : Line} : Effect s (.remnantFind q) (command (fresh s) fun s => untargeted s fun s => remnantFind s q)
  | holdDrop {q : Line} : Effect s (.holdDrop q) (command (fresh s) fun s => untargeted s fun s => holdDrop s q)
  | statsSnapshot {q : Line} : Effect s (.statsSnapshot q) (command (fresh s) fun s => untargeted s fun s => statsSnapshot s q)
  | attentionMask {q : Line} : Effect s (.attentionMask q) (command (fresh s) fun s => untargeted s fun s => attentionMask s q)
  | resultWriteAnswer {q : Req} {a : Ack} : Effect s (.resultWriteAnswer a) (resultAnswer (fresh s) q a)
  | writeBackAnswer {k : Current} {r : RecId} {a : Ack} : Effect s (.writeBackAnswer a) (writeBackAnswer (fresh s) k r a)
  | takenWriteAnswer {a : Ack} : Effect s (.takenWriteAnswer a) (takenAnswer (fresh s) a)
  | bedElementReadAnswer {b : BedId} {a : ReadAnswer} : Effect s (.bedElementReadAnswer a) (bedElementAnswer (fresh s) b a)
  | bedOwnershipReadAnswer {b : BedId} {q : Req} {a : ReadAnswer} : Effect s (.bedOwnershipReadAnswer a) (bedOwnerAnswer (fresh s) b q a)
  | markListReadAnswer {b : BedId} {a : ReadAnswer} : Effect s (.markListReadAnswer a) (markListAnswer (fresh s) b a)
  | descriptorReadAnswer {b : BedId} {a : ReadAnswer} : Effect s (.descriptorReadAnswer a) (descriptorAnswer (fresh s) b a)
  | plateLookup {b : BedId} {k : Bool} {d : Hand} : Effect s (.plateLookup b) (plateLookup (fresh s) b k d)
  | remnantIdReserve {b : BedId} {i : Nat} : Effect s (.remnantIdReserve b) (idReserve (fresh s) b i)
  | burnRequest {b : BedId} {d : Hand} : Effect s (.burnRequest b) (burnRequest (fresh s) b d)
  | claimRelease {r : Release} : Effect s (.claimRelease) (claimRelease (fresh s) r)
  | lockRequest {b : BedId} {d : Hand} : Effect s (.lockRequest b) (lockRequest (fresh s) b d)
  | checkReadAnswer {b : BedId} {a : ReadAnswer} : Effect s (.checkReadAnswer a) (checkAnswer (fresh s) b a)
  | streamFetchAnswer {b : BedId} {a : ReadAnswer} : Effect s (.streamFetchAnswer a) (streamAnswer (fresh s) b a)
  | permitRequest {b : BedId} : Effect s (.permitRequest b) (permitRequest (fresh s) b)
  | permitGrant {b : BedId} : Effect s (.permitGrant b) (permitGrant (fresh s) b)
  | tokenRequest {b : BedId} : Effect s (.tokenRequest b) (tokenRequest (fresh s) b)
  | tokenOffer {b : BedId} : Effect s (.tokenOffer) (tokenOffer (fresh s) b)
  | readyReport {b : BedId} : Effect s (.readyReport b) (readyReport (fresh s) b)
  | gantryStepDone {b : BedId} {n : Byte} : Effect s (.gantryStepDone b n) (stepDone (heard s b) b n)
  | gantryPierceDone {b : BedId} : Effect s (.gantryPierceDone b) (pierceDone (heard s b) b)
  | gantryPierceFail {b : BedId} : Effect s (.gantryPierceFail b) (pierceFail (heard s b) b)
  | gantryArc {b : BedId} {v : Byte} : Effect s (.gantryArc b v) (arcSample (heard s b) b v.toNat)
  | gantryHold {b : BedId} : Effect s (.gantryHold b) (setHold (heard s b) b true)
  | gantryGo {b : BedId} : Effect s (.gantryGo b) (setHold (heard s b) b false)
  | gantryPaused {b : BedId} {n : Byte} : Effect s (.gantryPaused b n) (pausedReply (heard s b) b n)
  | gantryStopped {b : BedId} : Effect s (.gantryStopped b) (stoppedReply (heard s b) b)
  | gantryMarkDone {b : BedId} : Effect s (.gantryMarkDone b) (markDone (heard s b) b)
  | gantryMarkFail {b : BedId} : Effect s (.gantryMarkFail b) (markAttemptFails (heard s b) b .replyFail)
  | gantryFault {b : BedId} {x : Byte} : Effect s (.gantryFault b x) (gantryFaultMessage (heard s b) b x)
  | gantryAlive {b : BedId} : Effect s (.gantryAlive b) (setLink (fresh s) b { (bedOf s b).lk with live := true, since := s.clock })
  | bedLinkTimeout {b : BedId} : Effect s (.bedLinkTimeout b) (linkLost (fresh s) b)
  | stopLimit {b : BedId} : Effect s (.stopLimit b) (stopLimit (fresh s) b)
  | pierceTimeout {b : BedId} :
      Effect s (.pierceTimeout b) (if (runOf s b).state == .burning then pierceFails (fresh s) b else releaseToken (fresh s) b)
  | markReplyLimit {b : BedId} : Effect s (.markReplyLimit b) (markAttemptFails (fresh s) b .timeout)
  | heatNumberRequest {b : BedId} {i : Nat} : Effect s (.heatNumberRequest b) (heatNumber (fresh s) b i)
  | remnantCreation {b : BedId} {d : Hand} : Effect s (.remnantCreation b) (remnantCreation (fresh s) b d)
  | craneRequestPost {b : BedId} {q : BedReq} : Effect s (.craneRequestPost b) (takePost (fresh s) b q)
  | craneRequestWithdraw {b : BedId} : Effect s (.craneRequestWithdraw b) (takeWithdraw (fresh s) b)
  | bedReturnAnswer {b : BedId} {q : Req} {a : Ack} : Effect s (.bedReturnAnswer a) (bedReturnAnswer (fresh s) b q a)
  | craneOwnershipReadAnswer {i : Nat} {a : ReadAnswer} : Effect s (.craneOwnershipReadAnswer a) (craneOwnerAnswer (fresh s) i a)
  | craneElementReadAnswer {i : Nat} {q : Req} {a : ReadAnswer} : Effect s (.craneElementReadAnswer a) (craneElementAnswer (fresh s) i q a)
  | craneReturnAnswer {i : Nat} {q : Req} {a : Ack} : Effect s (.craneReturnAnswer a) (craneReturnAnswer (fresh s) i q a)
  | craneAccept {i : Byte} : Effect s (.craneAccept i) (onMove (craneHeard (fresh s)) i fun s _ => craneAccept s)
  | craneRefuse {i : Byte} : Effect s (.craneRefuse i) (onMove (craneHeard (fresh s)) i fun s m => craneRefuse s m)
  | craneLifted {i : Byte} {x : Word} : Effect s (.craneLifted i x) (onMove (craneHeard (fresh s)) i fun s m => craneLifted s m x.toNat)
  | craneArrived {i : Byte} : Effect s (.craneArrived i) (onMove (craneHeard (fresh s)) i fun s _ => craneArrived s)
  | craneSet {i : Byte} : Effect s (.craneSet i) (onMove (craneHeard (fresh s)) i fun s m => craneSet s m)
  | craneDropped {i : Byte} : Effect s (.craneDropped i) (onMove (craneHeard (fresh s)) i fun s m => craneDropped s m)
  | craneReturning {i : Byte} : Effect s (.craneReturning i) (onMove (craneHeard (fresh s)) i fun s m => craneReturning s m)
  | craneFault {i : Byte} {x : CraneCause} : Effect s (.craneFault i x) (craneFaultMessage (fresh s) i x)
  | craneReady {k : Bool} : Effect s (.craneReady k) (craneReady (fresh s) k)
  | craneLinkTimeout : Effect s (.craneLinkTimeout) (craneLinkLost (fresh s))
  | phaseLimit : Effect s (.phaseLimit) (phaseOver (fresh s))
  | craneResetLimit : Effect s (.craneResetLimit) (craneResetEnd (fresh s))
  | hostWatchExpiry : Effect s (.hostWatchExpiry) (watchExpiry (fresh s))
  | holdExpiry {i : Nat} : Effect s (.holdExpiry i) (holdExpiry (fresh s) i)
  | anchorReadAnswer {v : Verif} {n : Nat} {d : Line} : Effect s (.anchorReadAnswer (.done d)) (anchorLine (finishReq (fresh s)) v n d)
  | anchorReadRefused {v : Verif} {f : Fail} : Effect s (.anchorReadAnswer .refused) (failVerdict (finishReq (fresh s)) v f)
  | tableScanReadAnswer {v : Verif} {x : Anchor} {i : Nat} {k : Bool} {d : Line} :
      Effect s (.tableScanReadAnswer (.done d)) (scanLine (finishReq (fresh s)) v x i k d)
  | tableScanReadRefused {v : Verif} {f : Fail} : Effect s (.tableScanReadAnswer .refused) (failVerdict (finishReq (fresh s)) v f)
  | verdictWriteAnswer {v : Verif} {a : Ack} : Effect s (.verdictWriteAnswer a) (verdictAnswer (fresh s) v a)
  | commandTrigger {t : Transaction} : Effect s (.commandTrigger) (trigger (fresh s) t)
  | unknownCommand {q : Line} : Effect s (.unknownCommand q) (deny (finishReq (fresh s)) oUNKNOWN 0 0)
  | hostReadAnswer {a : ReadAnswer} : Effect s (.hostReadAnswer a) (endForward (fresh s) (readReply a))

/-- The answer is that of a command for which nothing stands to be taken, or of a taking that begins with its effect. -/
def Answered (s : State) (c : Instr) (o : Host.Outcome State Fault Refusal) : Prop :=
  o = idle s ∨ ∃ u, Effect s c u ∧ o = .next (settle s u)

theorem answered_idle : Answered s c (idle s) := .inl rfl
theorem answered_taking {f : State → State} (h : Effect s c (f (fresh s))) : Answered s c (taking s f) := .inr ⟨_, h, rfl⟩
theorem answered_takingIf {ok : Bool} {f : State → State} (h : Effect s c (f (fresh s))) : Answered s c (takingIf ok s f) := by
  unfold takingIf
  split
  · exact answered_taking h
  · exact answered_idle

/-- Every command but HARD_RESET has no effect or begins a taking with one of its effects. -/
theorem exec_answered (s : State) (hc : ∀ a b, c ≠ .hardReset a b) : Answered s c (exec c s) := by
  cases c with
  | hardReset a b => exact absurd rfl (hc a b)
  | memoryReady => exact answered_takingIf .memoryReady
  | sspTransaction _ => exact .inr ⟨_, .sspTransaction, rfl⟩
  | hostClassify =>
    simp only [exec, execHostClassify]
    cases hq : s.path.ssp with
    | nil => exact .inl (takingIf_false (by simp))
    | cons t rest =>
      refine answered_takingIf ?_
      simp only [fresh_path, hq]
      exact .hostClassify
  | mspGrant => exact answered_takingIf .mspGrant
  | hostWriteAnswer _ =>
    simp only [exec, execHostWriteAnswer]
    split
    · exact answered_takingIf .hostWriteAnswer
    · exact answered_idle
  | bracketClose _ =>
    simp only [exec, execBracketClose]
    split
    · exact answered_taking .bracketClose
    · exact answered_idle
  | bracketExpiry _ => exact answered_takingIf .bracketExpiry
  | burnRingIssuedWrite =>
    simp only [exec, execBurnRingIssuedWrite]
    split
    · exact answered_taking .burnRingIssuedWrite
    · exact answered_idle
  | craneRingIssuedWrite =>
    simp only [exec, execCraneRingIssuedWrite]
    split
    · exact answered_taking .craneRingIssuedWrite
    · exact answered_idle
  | acknowledgeWrite =>
    simp only [exec, execAcknowledgeWrite]
    split
    · exact answered_taking .acknowledgeWrite
    · exact answered_idle
  | commit =>
    simp only [exec, execCommit]
    split
    · exact answered_taking .commit
    · exact answered_idle
  | commandSlotReadRefused => exact answered_takingIf .commandSlotReadRefused
  | hallRun _ => exact answered_takingIf .hallRun
  | hallHold _ => exact answered_takingIf .hallHold
  | hallHalt _ => exact answered_takingIf .hallHalt
  | hallReset _ => exact answered_takingIf .hallReset
  | faultClear _ => exact answered_takingIf .faultClear
  | faultMask _ => exact answered_takingIf .faultMask
  | monitorTest _ => exact answered_takingIf .monitorTest
  | bedStart _ => exact answered_takingIf .bedStart
  | bedStop _ => exact answered_takingIf .bedStop
  | bedPause _ => exact answered_takingIf .bedPause
  | bedResume _ =>
    simp only [exec, execBedResume]
    split
    · exact answered_idle
    · exact answered_takingIf .bedResume
  | bedResumeWaive _ =>
    simp only [exec, execBedResumeWaive]
    split
    · exact answered_idle
    · exact answered_takingIf .bedResumeWaive
  | bedResumeRemark _ =>
    simp only [exec, execBedResumeRemark]
    split
    · exact answered_idle
    · exact answered_takingIf .bedResumeRemark
  | bedRelease _ => exact answered_takingIf .bedRelease
  | bedRecover _ => exact answered_takingIf .bedRecover
  | craneCancel _ => exact answered_takingIf .craneCancel
  | craneRecoverNone _ =>
    simp only [exec, execCraneRecoverNone]
    split
    · exact answered_idle
    · exact answered_takingIf .craneRecoverNone
  | craneRecoverAtSource _ =>
    simp only [exec, execCraneRecoverAtSource]
    split
    · exact answered_idle
    · exact answered_takingIf .craneRecoverAtSource
  | craneRecoverAtDestination _ =>
    simp only [exec, execCraneRecoverAtDestination]
    split
    · exact answered_idle
    · exact answered_takingIf .craneRecoverAtDestination
  | craneRecoverLost _ =>
    simp only [exec, execCraneRecoverLost]
    split
    · exact answered_idle
    · exact answered_takingIf .craneRecoverLost
  | plateRegister _ => exact answered_takingIf .plateRegister
  | plateAmend _ => exact answered_takingIf .plateAmend
  | plateRetire _ => exact answered_takingIf .plateRetire
  | remnantFind _ => exact answered_takingIf .remnantFind
  | holdDrop _ => exact answered_takingIf .holdDrop
  | statsSnapshot _ => exact answered_takingIf .statsSnapshot
  | attentionMask _ => exact answered_takingIf .attentionMask
  | resultWriteAnswer _ =>
    simp only [exec, execResultWriteAnswer]
    split
    · exact answered_taking .resultWriteAnswer
    · exact answered_idle
  | writeBackAnswer _ =>
    simp only [exec, execWriteBackAnswer]
    split
    · split
      · exact answered_taking .writeBackAnswer
      · exact answered_idle
    · exact answered_idle
  | takenWriteAnswer _ =>
    simp only [exec, execTakenWriteAnswer]
    split
    · exact answered_taking .takenWriteAnswer
    · exact answered_idle
  | bedElementReadAnswer _ =>
    simp only [exec, execBedElementReadAnswer]
    split
    · exact answered_taking .bedElementReadAnswer
    · exact answered_idle
  | bedOwnershipReadAnswer _ =>
    simp only [exec, execBedOwnershipReadAnswer]
    split
    · exact answered_taking .bedOwnershipReadAnswer
    · exact answered_idle
  | markListReadAnswer _ =>
    simp only [exec, execMarkListReadAnswer]
    split
    · exact answered_taking .markListReadAnswer
    · exact answered_idle
  | descriptorReadAnswer _ =>
    simp only [exec, execDescriptorReadAnswer]
    split
    · exact answered_taking .descriptorReadAnswer
    · exact answered_idle
  | plateLookup _ =>
    simp only [exec, execPlateLookup]
    split
    · exact answered_takingIf .plateLookup
    · exact answered_idle
  | remnantIdReserve _ =>
    simp only [exec, execRemnantIdReserve]
    split
    · exact answered_takingIf .remnantIdReserve
    · exact answered_idle
  | burnRequest _ =>
    simp only [exec, execBurnRequest]
    split
    · exact answered_takingIf .burnRequest
    · exact answered_idle
  | claimRelease =>
    simp only [exec, execClaimRelease]
    split
    · exact answered_taking .claimRelease
    · exact answered_idle
  | lockRequest _ =>
    simp only [exec, execLockRequest]
    split
    · exact answered_takingIf .lockRequest
    · exact answered_idle
  | checkReadAnswer _ =>
    simp only [exec, execCheckReadAnswer]
    split
    · exact answered_taking .checkReadAnswer
    · exact answered_idle
  | streamFetchAnswer _ =>
    simp only [exec, execStreamFetchAnswer]
    split
    · exact answered_taking .streamFetchAnswer
    · exact answered_idle
  | permitRequest _ => exact answered_takingIf .permitRequest
  | permitGrant _ => exact answered_takingIf .permitGrant
  | tokenRequest _ => exact answered_takingIf .tokenRequest
  | tokenOffer =>
    simp only [exec, execTokenOffer]
    split
    · exact answered_taking .tokenOffer
    · exact answered_idle
  | readyReport _ => exact answered_takingIf .readyReport
  | gantryStepDone _ _ => exact answered_takingIf .gantryStepDone
  | gantryPierceDone _ => exact answered_takingIf .gantryPierceDone
  | gantryPierceFail _ => exact answered_takingIf .gantryPierceFail
  | gantryArc _ _ => exact answered_takingIf .gantryArc
  | gantryHold _ => exact answered_takingIf .gantryHold
  | gantryGo _ => exact answered_takingIf .gantryGo
  | gantryPaused _ _ => exact answered_takingIf .gantryPaused
  | gantryStopped _ => exact answered_takingIf .gantryStopped
  | gantryMarkDone _ => exact answered_takingIf .gantryMarkDone
  | gantryMarkFail _ => exact answered_takingIf .gantryMarkFail
  | gantryFault _ _ => exact answered_takingIf .gantryFault
  | gantryAlive _ => exact answered_takingIf .gantryAlive
  | bedLinkTimeout _ => exact answered_takingIf .bedLinkTimeout
  | stopLimit _ => exact answered_takingIf .stopLimit
  | pierceTimeout _ => exact answered_takingIf .pierceTimeout
  | markReplyLimit _ => exact answered_takingIf .markReplyLimit
  | heatNumberRequest _ =>
    simp only [exec, execHeatNumberRequest]
    split
    · exact answered_takingIf .heatNumberRequest
    · exact answered_idle
  | remnantCreation _ =>
    simp only [exec, execRemnantCreation]
    split
    · exact answered_takingIf .remnantCreation
    · exact answered_idle
  | craneRequestPost _ =>
    simp only [exec, execCraneRequestPost]
    split
    · exact answered_taking .craneRequestPost
    · exact answered_idle
  | craneRequestWithdraw _ =>
    simp only [exec, execCraneRequestWithdraw]
    split
    · exact answered_taking .craneRequestWithdraw
    · exact answered_idle
  | bedReturnAnswer _ =>
    simp only [exec, execBedReturnAnswer]
    split
    · exact answered_taking .bedReturnAnswer
    · exact answered_idle
  | craneOwnershipReadAnswer _ =>
    simp only [exec, execCraneOwnershipReadAnswer]
    split
    · exact answered_taking .craneOwnershipReadAnswer
    · exact answered_idle
  | craneElementReadAnswer _ =>
    simp only [exec, execCraneElementReadAnswer]
    split
    · exact answered_taking .craneElementReadAnswer
    · exact answered_idle
  | craneReturnAnswer _ =>
    simp only [exec, execCraneReturnAnswer]
    split
    · exact answered_taking .craneReturnAnswer
    · exact answered_idle
  | craneAccept _ => exact answered_takingIf .craneAccept
  | craneRefuse _ => exact answered_takingIf .craneRefuse
  | craneLifted _ _ => exact answered_takingIf .craneLifted
  | craneArrived _ => exact answered_takingIf .craneArrived
  | craneSet _ => exact answered_takingIf .craneSet
  | craneDropped _ => exact answered_takingIf .craneDropped
  | craneReturning _ => exact answered_takingIf .craneReturning
  | craneFault _ _ => exact answered_takingIf .craneFault
  | craneReady _ => exact .inr ⟨_, .craneReady, rfl⟩
  | craneLinkTimeout => exact answered_takingIf .craneLinkTimeout
  | phaseLimit => exact answered_takingIf .phaseLimit
  | craneResetLimit => exact answered_takingIf .craneResetLimit
  | hostWatchExpiry => exact answered_takingIf .hostWatchExpiry
  | holdExpiry _ => exact answered_takingIf .holdExpiry
  | anchorReadAnswer a =>
    simp only [exec, execAnchorReadAnswer]
    split
    · refine answered_taking ?_
      cases a
      · exact .anchorReadAnswer
      · exact .anchorReadRefused
    · exact answered_idle
  | tableScanReadAnswer a =>
    simp only [exec, execTableScanReadAnswer]
    split
    · refine answered_taking ?_
      cases a
      · exact .tableScanReadAnswer
      · exact .tableScanReadRefused
    · exact answered_idle
  | verdictWriteAnswer _ =>
    simp only [exec, execVerdictWriteAnswer]
    split
    · exact answered_taking .verdictWriteAnswer
    · exact answered_idle
  | commandTrigger =>
    simp only [exec, execCommandTrigger]
    split
    · exact answered_taking .commandTrigger
    · exact answered_idle
  | unknownCommand _ => exact answered_takingIf .unknownCommand
  | hostReadAnswer _ =>
    simp only [exec, execHostReadAnswer]
    split
    · exact answered_takingIf .hostReadAnswer
    · exact answered_idle

/-- What a reset leaves has every invariant. -/
theorem execHardReset_invariants (a b : Bool) (s : State) :
    let t : State := { State.hardReset a b with pending := s.pending }
    PathBounds t ∧ StockBankOk t ∧ CountersOk t ∧ LocksOk t ∧ PermitsOk t := by
  refine ⟨⟨Nat.zero_le _, Nat.zero_le _, Nat.zero_le _⟩, ⟨Nat.zero_le _, fun _ h => absurd h List.not_mem_nil⟩, ?_,
    ⟨Nat.zero_le _, fun _ h => absurd h List.not_mem_nil⟩, Nat.zero_le _⟩
  show (1 : BitVec 16) ≠ 0 ∧ (1 : Byte) ≠ 0
  decide

protected theorem Keeps.onMove {s₀ : State} {i : Byte} {f : State → Move → State} (hf : ∀ {s m}, Keeps M s₀ s → Keeps M s₀ (f s m))
    (h : Keeps M s₀ s) : Keeps M s₀ (onMove s i f) := by
  unfold Machine.onMove
  split
  · exact .ite (hf h) h
  · exact h

/-- The bed whose gantry sends the message. -/
def gantryOf : Instr → Option BedId
  | .gantryStepDone b _ | .gantryPierceDone b | .gantryPierceFail b | .gantryArc b _ | .gantryHold b | .gantryGo b | .gantryPaused b _
  | .gantryStopped b | .gantryMarkDone b | .gantryMarkFail b | .gantryFault b _ | .gantryAlive b => some b
  | _ => none

theorem gantryOf_of_mem {b : BedId} {n v x : Byte} (h : c ∈ gantryMessages b n v x) : gantryOf c = some b := by
  simp only [gantryMessages, List.mem_cons, List.not_mem_nil, or_false] at h
  rcases h with rfl | rfl | rfl | rfl | rfl | rfl | rfl | rfl | rfl | rfl | rfl <;> rfl

/-- What each command may change of the parts that most leave alone. -/
def mayOf (c : Instr) : May where
  outer := insideCommand c = false
  table := tableCommand c = true
  attention := attentionCommand c = true
  craneLink := craneLinkCommand c = true
  bed b := gantryOf c = none ∨ gantryOf c = some b

/-- The effect of every command keeps every invariant and changes no more than the command may. -/
theorem Effect.keeps (he : Effect s c u) : Keeps (mayOf c) s u := by
  have h : Keeps (mayOf c) s (fresh s) := (Keeps.refl s).fresh
  cases he with
  | memoryReady => exact (h.setPath rfl).beginVerification rfl
  | sspTransaction => exact h.offer rfl
  | hostClassify => exact h.classify rfl
  | mspGrant => exact h.grant rfl
  | hostWriteAnswer => exact h.hostWriteAnswer rfl
  | bracketClose => exact Keeps.endForward (h.setPath rfl (closeBracket_bounds _)) rfl
  | bracketExpiry => exact h.setPath rfl (closeBracket_bounds _)
  | burnRingIssuedWrite => exact h.burnWrite rfl (.inl rfl)
  | craneRingIssuedWrite => exact h.craneWrite rfl
  | acknowledgeWrite => exact h.acknowledge rfl rfl
  | commit => exact h.commit rfl
  | commandSlotReadRefused => exact (h.finishReq rfl).writeBackFlag.deny
  | hallRun => exact h.command rfl fun h => h.hallCommandIn fun h => h.hallRun
  | hallHold => exact h.command rfl fun h => h.hallCommandIn fun h => h.hallHold
  | hallHalt => exact h.command rfl fun h => h.hallCommandIn fun h => h.hallHalt
  | hallReset => exact h.command rfl fun h => h.hallCommandIn fun h => h.hallReset rfl rfl fun _ => .inl rfl
  | faultClear => exact h.command rfl fun h => h.untargeted fun h => h.faultClear fun _ => .inl rfl
  | faultMask => exact h.command rfl fun h => h.untargeted fun h => h.faultMask fun _ => .inl rfl
  | monitorTest => exact h.command rfl fun h => h.bedCommand fun h => h.monitorTest (.inl rfl)
  | bedStart => exact h.command rfl fun h => h.bedCommand fun h => h.bedStart
  | bedStop => exact h.command rfl fun h => h.bedCommand fun h => h.bedStop
  | bedPause => exact h.command rfl fun h => h.bedCommand fun h => h.bedPause
  | bedResume => exact h.command rfl fun h => h.bedCommand fun h => h.bedResume
  | bedResumeWaive => exact h.command rfl fun h => h.bedCommand fun h => h.bedResumeWaive
  | bedResumeRemark => exact h.command rfl fun h => h.bedCommand fun h => h.bedResumeRemark
  | bedRelease => exact h.command rfl fun h => h.bedCommand fun h => h.bedRelease
  | bedRecover => exact h.command rfl fun h => h.bedCommand fun h => h.bedRecover
  | craneCancel => exact h.command rfl fun h => h.untargeted fun h => h.craneCancel
  | craneRecoverNone => exact h.command rfl fun h => h.untargeted fun h => h.craneRecover fun h => h
  | craneRecoverAtSource => exact h.command rfl fun h => h.untargeted fun h => h.craneRecover fun h => h.recoverSource rfl
  | craneRecoverAtDestination => exact h.command rfl fun h => h.untargeted fun h => h.craneRecover fun h => h.recoverDestination rfl
  | craneRecoverLost => exact h.command rfl fun h => h.untargeted fun h => h.craneRecover fun h => h.recoverLost rfl
  | plateRegister => exact h.command rfl fun h => h.untargeted fun h => h.plateRegister rfl
  | plateAmend => exact h.command rfl fun h => h.untargeted fun h => h.plateAmend rfl
  | plateRetire => exact h.command rfl fun h => h.untargeted fun h => h.plateRetire rfl
  | remnantFind => exact h.command rfl fun h => h.untargeted fun h => h.remnantFind rfl rfl
  | holdDrop => exact h.command rfl fun h => h.untargeted fun h => h.holdDrop rfl
  | statsSnapshot => exact h.command rfl fun h => h.untargeted fun h => h.statsSnapshot rfl fun _ => .inl rfl
  | attentionMask => exact h.command rfl fun h => h.untargeted fun h => h.attentionMask rfl
  | resultWriteAnswer => exact h.resultAnswer rfl rfl
  | writeBackAnswer => exact h.writeBackAnswer rfl rfl
  | takenWriteAnswer => exact h.takenAnswer rfl
  | bedElementReadAnswer => exact h.bedElementAnswer rfl (.inl rfl)
  | bedOwnershipReadAnswer => exact h.bedOwnerAnswer rfl (.inl rfl)
  | markListReadAnswer => exact h.markListAnswer rfl (.inl rfl)
  | descriptorReadAnswer => exact h.descriptorAnswer rfl (.inl rfl)
  | plateLookup => exact h.plateLookup
  | remnantIdReserve => exact h.idReserve
  | burnRequest => exact h.burnRequest rfl
  | claimRelease => exact h.claimRelease rfl
  | lockRequest => exact h.lockRequest
  | checkReadAnswer => exact h.checkAnswer rfl (.inl rfl)
  | streamFetchAnswer => exact h.streamAnswer rfl (.inl rfl)
  | permitRequest => exact h.permitRequest
  | permitGrant => exact h.permitGrant
  | tokenRequest => exact h.tokenRequest
  | tokenOffer => exact h.tokenOffer rfl
  | readyReport => exact h.readyReport
  | gantryStepDone => exact (h.setLink (.inr rfl)).stepDone (.inr rfl)
  | gantryPierceDone => exact (h.setLink (.inr rfl)).pierceDone
  | gantryPierceFail => exact (h.setLink (.inr rfl)).pierceFail (.inr rfl)
  | gantryArc => exact (h.setLink (.inr rfl)).arcSample (.inr rfl)
  | gantryHold => exact (h.setLink (.inr rfl)).setHold (.inr rfl)
  | gantryGo => exact (h.setLink (.inr rfl)).setHold (.inr rfl)
  | gantryPaused => exact (h.setLink (.inr rfl)).pausedReply (.inr rfl)
  | gantryStopped => exact (h.setLink (.inr rfl)).stoppedReply (.inr rfl)
  | gantryMarkDone => exact (h.setLink (.inr rfl)).markDone
  | gantryMarkFail => exact (h.setLink (.inr rfl)).markAttemptFails (.inr rfl)
  | gantryFault => exact (h.setLink (.inr rfl)).gantryFaultMessage (.inr rfl)
  | gantryAlive => exact h.setLink (.inr rfl)
  | bedLinkTimeout => exact h.linkLost (.inl rfl)
  | stopLimit => exact h.stopLimit (.inl rfl)
  | pierceTimeout => exact .ite (h.pierceFails (.inl rfl)) h.releaseToken
  | markReplyLimit => exact h.markAttemptFails (.inl rfl)
  | heatNumberRequest => exact h.heatNumber (.inl rfl)
  | remnantCreation => exact h.remnantCreation rfl
  | craneRequestPost => exact h.takePost
  | craneRequestWithdraw => exact h.takeWithdraw
  | bedReturnAnswer => exact h.bedReturnAnswer rfl rfl (.inl rfl)
  | craneOwnershipReadAnswer => exact h.craneOwnerAnswer rfl
  | craneElementReadAnswer => exact h.craneElementAnswer rfl rfl
  | craneReturnAnswer => exact h.craneReturnAnswer rfl rfl
  | craneAccept => exact (h.craneHeard rfl).onMove fun h => h.craneAccept
  | craneRefuse => exact (h.craneHeard rfl).onMove fun h => h.craneRefuse rfl
  | craneLifted => exact (h.craneHeard rfl).onMove fun h => h.craneLifted rfl rfl
  | craneArrived => exact (h.craneHeard rfl).onMove fun h => h.craneArrived
  | craneSet => exact (h.craneHeard rfl).onMove fun h => h.craneSet rfl rfl
  | craneDropped => exact (h.craneHeard rfl).onMove fun h => h.craneDropped rfl
  | craneReturning => exact (h.craneHeard rfl).onMove fun h => h.craneReturning rfl rfl
  | craneFault => exact h.craneFaultMessage rfl rfl
  | craneReady => exact h.craneReady rfl
  | craneLinkTimeout => exact h.craneLinkLost rfl
  | phaseLimit => exact h.phaseOver
  | craneResetLimit => exact h.craneResetEnd
  | hostWatchExpiry => exact h.watchExpiry
  | holdExpiry => exact h.holdExpiry rfl
  | anchorReadAnswer => exact (h.finishReq rfl).anchorLine rfl
  | anchorReadRefused => exact (h.finishReq rfl).failVerdict rfl
  | tableScanReadAnswer => exact (h.finishReq rfl).scanLine rfl
  | tableScanReadRefused => exact (h.finishReq rfl).failVerdict rfl
  | verdictWriteAnswer => exact h.verdictAnswer rfl rfl fun _ => .inl rfl
  | commandTrigger => exact h.trigger rfl
  | unknownCommand => exact (h.finishReq rfl).deny
  | hostReadAnswer => exact h.endForward rfl

theorem exec_keeps (hc : ∀ a b, c ≠ .hardReset a b) (h : exec c s = .next t) : Keeps (mayOf c) s t := by
  rcases exec_answered s hc with hidle | ⟨u, he, hu⟩
  · obtain rfl : _ = t := Host.Outcome.next.inj (hidle.symm.trans h)
    exact (Keeps.refl s).fresh
  · obtain rfl : _ = t := Host.Outcome.next.inj (hu.symm.trans h)
    exact he.keeps.settle
/-- A step, with a command waiting or none, keeps every invariant. -/
theorem step_invariants (h : step s = .next t) :
    (PathBounds s → PathBounds t) ∧ (StockBankOk s → StockBankOk t) ∧ (CountersOk s → CountersOk t) ∧ (LocksOk s → LocksOk t) ∧
      (PermitsOk s → PermitsOk t) := by
  unfold step at h
  split at h
  · obtain rfl : _ = t := Host.Outcome.next.inj h
    exact ⟨id, id, id, id, id⟩
  case h_2 c rest _ =>
    by_cases hc : ∃ a b, c = .hardReset a b
    · obtain ⟨a, b, rfl⟩ := hc
      obtain rfl : _ = t := Host.Outcome.next.inj h
      obtain ⟨hpath, hbank, hcounters, hlocks, hpermits⟩ := execHardReset_invariants a b { s with pending := rest }
      exact ⟨fun _ => hpath, fun _ => hbank, fun _ => hcounters, fun _ => hlocks, fun _ => hpermits⟩
    · have hkept := exec_keeps (fun a b e => hc ⟨a, b, e⟩) h
      exact ⟨hkept.path, hkept.bank, hkept.counters, hkept.locks, hkept.permits⟩

end Sys2Proof.Machine

namespace Sys2Proof.Proofs
open Sys2Proof.Machine

/-- Settles O59: the queue bounds and the counters are among the invariants that every effect and every automatic act keeps. -/
theorem stepKeepsQueues : Obligations.StepKeepsQueues := by
  unfold Obligations.StepKeepsQueues
  intro s t h
  obtain ⟨hpath, hbank, hcounters, -⟩ := step_invariants h
  exact ⟨hpath, hbank, hcounters⟩

/-- Settles O60: so are the bounds of the lock table and of the permits held. -/
theorem stepKeepsLocksAndPermits : Obligations.StepKeepsLocksAndPermits := by
  unfold Obligations.StepKeepsLocksAndPermits
  intro s t h
  obtain ⟨-, -, -, hlocks, hpermits⟩ := step_invariants h
  exact ⟨hlocks, hpermits⟩

/-- Settles O57: each command changes no more than it may, by the same chain of effects and automatic acts; HARD_RESET may change all
but the queue of commands. -/
theorem frames : Obligations.Frames := by
  unfold Obligations.Frames
  intro c s t h
  by_cases hc : ∃ a b, c = .hardReset a b
  · obtain ⟨a, b, rfl⟩ := hc
    obtain rfl : _ = t := Host.Outcome.next.inj h
    refine ⟨rfl, fun n => absurd rfl (n a b), nofun, nofun, nofun, nofun, fun b' n v k hm => ?_⟩
    simp [gantryMessages] at hm
  · obtain ⟨hpending, hclock, hbase, houter, htable, hattention, hlink, hbeds⟩ := (exec_keeps (fun a b e => hc ⟨a, b, e⟩) h).rest
    refine ⟨hpending, fun _ => ⟨hclock, hbase⟩, fun n => houter (by simp [mayOf, n]), fun n => htable (by simp [mayOf, n]),
      fun n => hattention (by simp [mayOf, n]), fun n => hlink (by simp [mayOf, n]), fun b n v k hm b' hb => hbeds b' ?_⟩
    simp [mayOf, gantryOf_of_mem hm, Ne.symm hb]

end Sys2Proof.Proofs
end

/-! # What follows by itself in a taking (R47, R176, R211; log 8) -/

section
namespace Sys2Proof.Machine

variable {s : State} {r : RecId}

/-! ## Queued write-backs -/

theorem queued_push {s : State} {v w : ReqOf} {a : Nat} {d : Line} {e : BitVec 64} :
    queued (push s v a d e) w = (queued s w || v == w) := by
  simp [queued]
/-- A write-back in the queue is not queued again, another one joins at the tail. -/
theorem queued_pushWb {s : State} {r r' : RecId} : queued (pushWb s r) (.writeBack r') = (queued s (.writeBack r') || decide (r = r')) := by
  unfold pushWb
  split
  case isTrue h =>
    by_cases hr : r = r'
    · subst hr
      simp [h]
    · simp [hr]
  case isFalse => simp only [queued_push, beq_eq_decide, ReqOf.writeBack.injEq]
/-- What waits in the queue has a number that an answer can name. -/
theorem exists_ticketOf {s : State} {w : ReqOf} (h : queued s w = true) : ∃ t, ticketOf s w = some t := by
  obtain ⟨q, hq, hw⟩ := List.any_eq_true.1 h
  have hmem : q ∈ s.engine.queue.filter (·.what == w) := List.mem_filter.2 ⟨hq, hw⟩
  obtain ⟨q', hlast⟩ : ∃ q', (s.engine.queue.filter (·.what == w)).getLast? = some q' :=
    Option.isSome_iff_exists.1 (List.getLast?_isSome.2 (List.ne_nil_of_mem hmem))
  exact ⟨q'.ticket, by simp [ticketOf, hlast]⟩
@[simp] theorem pushControl_of_inForce (h : s.loader.inForce.isSome = true) : pushControl s r = pushWb s r := if_pos h

/-! ## Changed status records (R47, R156, R172, R177) -/

/-- A new request has not been refused yet. -/
theorem writeBackStands_push {w : ReqOf} {a : Nat} {d : Line} {e : BitVec 64} :
    writeBackStands (push s w a d e) = writeBackStands s := by
  simp [writeBackStands]
/-- No content depends on what is queued for the first time. -/
theorem content_pushWb {r' : RecId} : content (pushWb s r) r' = content s r' := by
  unfold pushWb
  split
  · rfl
  · cases r' with
    | fault =>
      have hhall : ∀ g, persisting (push s (.writeBack r) 0 0 0) g = persisting s g
        | .bed _ | .crane => rfl
        | .hall => by simp only [persisting, writeBackStands_push]
      simp only [content, faultImage, groupImage, hhall]
      rfl
    | _ => rfl
theorem pushChanged_same {s0 : State} (h : content s0 r = content s r) : pushChanged s0 s r = s := by simp [pushChanged, h]
theorem pushChanged_changed {s0 : State} (h : content s0 r ≠ content s r) (hanchor : s.loader.inForce.isSome = true) :
    pushChanged s0 s r = pushWb s r := by simp [pushChanged, h, hanchor]
/-- One record after the other, each is queued where its content has changed. -/
theorem queued_foldl_pushChanged {s0 : State} {r : RecId} (l : List RecId) (hanchor : s.loader.inForce.isSome = true) :
    queued (l.foldl (pushChanged s0) s) (.writeBack r) =
      (queued s (.writeBack r) || decide (r ∈ l) && !decide (content s0 r = content s r)) := by
  induction l generalizing s with
  | nil => simp
  | cons r' l ih =>
    rw [List.foldl_cons]
    by_cases hsame : content s0 r' = content s r'
    · rw [pushChanged_same hsame, ih hanchor]
      by_cases hr : r = r' <;> simp [hr, hsame]
    · rw [pushChanged_changed hsame hanchor, ih (by simpa using hanchor), queued_pushWb, content_pushWb]
      by_cases hr : r = r'
      · simp [hr, hsame]
      · simp [hr, Ne.symm hr]
theorem queued_settleRecords {s0 : State} (hr : r ∈ statusRecords) (hanchor : s.loader.inForce.isSome = true) :
    queued (settleRecords s0 s) (.writeBack r) = (queued s (.writeBack r) || !decide (content s0 r = content s r)) := by
  simp [settleRecords, queued_foldl_pushChanged _ hanchor, hr]

/-! ## FAULT and the result given (R176, R211) -/

theorem settleFault_owed (howed : s.faults.owed = true) (hanchor : s.loader.inForce.isSome = true) :
    settleFault s = defer (pushWb (setFaults s { s.faults with owed := false }) .fault)
      (ticketOf (pushWb (setFaults s { s.faults with owed := false }) .fault) (.writeBack .fault)).toList (.cause aFAULT) := by
  simp only [settleFault, howed, hanchor, Bool.and_self, if_true]
theorem settleFault_notOwed (howed : s.faults.owed = false) : settleFault s = s := by simp [settleFault, howed]
/-- A result whose waits are answered already is written at once. -/
theorem settleResult_written {s0 : State} {d : Result} {c : Cmd} (howed : s.cmd.owed = some d) (hcmd : s.cmd.current = some c)
    (hnone : resultWaits s0 s d.waits ++ d.always.filterMap (ticketOf s) = []) (hafter : d.after = none) :
    settleResult s0 s = pushResult (setCmd s { s.cmd with owed := none }) c.code c.target c.tag d.outcome d.d1 d.d2 d.d3 := by
  simp only [settleResult, howed, hcmd, hnone, hafter, List.isEmpty_nil, if_true]
/-- A result that waits is deferred, and with it the ownership read that waits for it. -/
theorem settleResult_waits {s0 : State} {d : Result} {c : Cmd} (howed : s.cmd.owed = some d) (hcmd : s.cmd.current = some c)
    (hsome : resultWaits s0 s d.waits ++ d.always.filterMap (ticketOf s) ≠ []) :
    let ws := resultWaits s0 s d.waits ++ d.always.filterMap (ticketOf s)
    settleResult s0 s = setEngine (setCmd s { s.cmd with owed := none }) { s.engine with
      deferred := s.engine.deferred ++ ⟨ws, .result c.code c.target c.tag d.outcome d.d1 d.d2 d.d3⟩ ::
        (d.after.map fun b => ⟨ws, .ownerRead b⟩).toList } := by
  intro ws
  simp only [settleResult, howed, hcmd]
  rw [if_neg (by simpa using hsome)]
  cases d.after with
  | none => rfl
  | some b => simp [defer, setEngine, setCmd, ws]
theorem settleResult_owed {s0 : State} {d : Result} {c : Cmd} (howed : s.cmd.owed = some d) (hcmd : s.cmd.current = some c) :
    (settleResult s0 s).cmd.owed = none := by
  simp only [settleResult, howed, hcmd]
  cases d.after <;> split <;> simp [pushResult, pushResultAs, startRead, readOwner, defer, apply_ite State.cmd]

end Sys2Proof.Machine

namespace Sys2Proof.Proofs
open Sys2Proof.Machine

/-- Settles O56: the automatic acts leave `quiet` alone one by one, and each of the last three has its own equations. -/
theorem takingKeeps : Obligations.TakingKeeps := by
  unfold Obligations.TakingKeeps
  refine ⟨fun s0 s => ?_, fun _ _ => rfl, fun _ _ => rfl, fun s0 s r => queued_settleRecords, fun s howed hanchor => ?_,
    fun s => settleFault_notOwed, fun s0 s d c howed hcmd => ⟨settleResult_owed howed hcmd, fun hnone hafter => ?_, fun hsome => ?_⟩⟩
  · simp [settle, quiet_settleResult, quiet_settleRecords]
  · rw [settleFault_owed howed hanchor]
    have hqueued : queued (pushWb (setFaults s { s.faults with owed := false }) .fault) (.writeBack .fault) = true :=
      queued_pushWb_self ..
    obtain ⟨t, ht⟩ := exists_ticketOf hqueued
    exact ⟨by simp [defer], hqueued, t, ht, by simp [defer, ht]⟩
  · rw [settleResult_written howed hcmd hnone hafter]
    exact ⟨rfl, rfl, rfl⟩
  · rw [settleResult_waits howed hcmd hsome]
    exact ⟨rfl, rfl, rfl⟩

end Sys2Proof.Proofs
end

/-! # The machine as a whole (R200, R214 to R216, R127) -/

section
namespace Sys2Proof.Machine

/-- No bed has a claim on the hall at reset. -/
theorem reset_bed (b : BedId) :
    let s := State.reset
    (runOf s b).state = .stopped ∧ isLive s b = false ∧ (bedOf s b).lk.hold = false ∧ (bedOf s b).ring = ⟨0, 0, 0, 0⟩ ∧
      (runOf s b).hand = none ∧ (runOf s b).pause = 0 ∧ (runOf s b).stream = .empty ∧ (runOf s b).marks = .empty ∧
      (runOf s b).permit = false ∧ (runOf s b).arc = ⟨0, 0⟩ ∧ zoneOf s b = .free ∧ s.faults.beds.get b = ⟨0, 0, false⟩ := by
  cases b <;> exact ⟨rfl, rfl, rfl, rfl, rfl, rfl, rfl, rfl, rfl, rfl, rfl, rfl⟩

theorem reset_invariants : PathBounds State.reset ∧ LocksOk State.reset ∧ PermitsOk State.reset ∧ StockBankOk State.reset ∧
    CountersOk State.reset := by
  obtain ⟨hpath, hbank, hcounters, hlocks, hpermits⟩ := execHardReset_invariants false false State.reset
  exact ⟨hpath, hlocks, hpermits, hbank, hcounters⟩

/-! ## memory-ready (R200) -/

/-- Before memory-ready first rises the MSP grants nothing. -/
theorem mayGrant_notReady {s : State} (h : s.path.memReady = false) : mayGrant s = false := by simp [mayGrant, h]

/-! ## MONITOR_TEST and ATTENTION_MASK by their outcomes -/

variable {s : State} {q : Line} {b : BedId}

theorem monitorTest_limit (h : par q 0 1 ≠ 1 ∧ par q 0 1 ≠ 2) : monitorTest q s b = deny s oPARAM 0 0 := by
  simp [monitorTest, h]
theorem monitorTest_state (hk : par q 0 1 = 1 ∨ par q 0 1 = 2) (h : (runOf s b).state ≠ .stopped ∧ (runOf s b).state ≠ .waiting) :
    monitorTest q s b = deny s oSTATE (stateNum s b) 0 := by
  rcases hk with hk | hk <;> simp [monitorTest, hk, h]
theorem monitorTest_down (hk : par q 0 1 = 1 ∨ par q 0 1 = 2) (h : (runOf s b).state = .stopped ∨ (runOf s b).state = .waiting)
    (hl : isLive s b = false) : monitorTest q s b = deny s oSTATE (stateNum s b) 1 := by
  rcases hk with hk | hk <;> rcases h with h | h <;> simp [monitorTest, hk, h, hl]
theorem monitorTest_done (hk : par q 0 1 = 1 ∨ par q 0 1 = 2) (h : (runOf s b).state = .stopped ∨ (runOf s b).state = .waiting)
    (hl : isLive s b = true) :
    monitorTest q s b = giveWith
      (pushControl (setRun (bedFlag s b (if par q 0 1 = 1 then fARC_HIGH else fARC_LOW)) b { runOf s b with arc := ⟨0, 0⟩ }) (.bed b))
      oDONE (bedCfg s b).arcN 0 0 [.writeBack .fault] [wbBed b] none := by
  rcases hk with hk | hk <;> rcases h with h | h <;> simp [monitorTest, hk, h, hl] <;> rfl

theorem attentionMask_extra (h : parZeroBut q [(0, 1)] = false) : attentionMask s q = deny s oPARAM 0 0 := by simp [attentionMask, h]

theorem attentionMask_done (h : parZeroBut q [(0, 1)] = true) :
    attentionMask s q = give (setFaults s { s.faults with mask := byte (par q 0 1) }) oDONE (byte (par q 0 1)).toNat
      s.faults.pending.toNat 0 [.writeBack .hall] := by simp [attentionMask, h]
/-- A command whose target must say none gives PARAM to any other (R17, R160, R178). -/
theorem untargeted_target {s : State} {code t : Nat} {f : State → State} (h : commandDue s code t) (ht : t ≠ 0xFF) :
    untargeted (slotRead s) f = deny (slotRead s) oPARAM 0 0 := by
  simp [untargeted, h.2.1, ht]

end Sys2Proof.Machine

namespace Sys2Proof.Proofs
open Sys2Proof.Machine

/-- Settles O1: both are how a step is defined. -/
theorem stepTakesFront : Obligations.StepTakesFront := by
  unfold Obligations.StepTakesFront
  refine ⟨fun _ _ _ => rfl, fun s hs => ?_⟩
  simp only [step, hs]
  rw [tick, hs]

/-- Settles O2: the values of a reset, and the invariants that every reset has. -/
theorem resetValues : Obligations.ResetValues := by
  unfold Obligations.ResetValues
  obtain ⟨hpath, hlocks, hpermits, hbank, hcounters⟩ := reset_invariants
  refine ⟨rfl, rfl, rfl, rfl, rfl, rfl, rfl, rfl, rfl, rfl, rfl, rfl, rfl, rfl, rfl, rfl, rfl, rfl, rfl, rfl, rfl, rfl, rfl, rfl, rfl,
    rfl, rfl, rfl, rfl, rfl, rfl, rfl, rfl, rfl, rfl, reset_bed, rfl, rfl, rfl, rfl, rfl, rfl, rfl, rfl, rfl, rfl, rfl, rfl, rfl, rfl,
    rfl, rfl, rfl, rfl, rfl, rfl, rfl, rfl, rfl, rfl, rfl, rfl, rfl, rfl, rfl, rfl, rfl, hpath, hlocks, hpermits, hbank, hcounters⟩

/-- Settles O3: what the straps give, and memory-ready by whether it has risen. -/
theorem hardResetAndMemoryReady : Obligations.HardResetAndMemoryReady := by
  unfold Obligations.HardResetAndMemoryReady
  refine ⟨fun _ _ _ => rfl, ⟨rfl, rfl, rfl, rfl⟩, fun _ _ => ⟨rfl, rfl, rfl⟩, fun s hs => ?_, fun s hs => ?_, fun s hs => ?_⟩
  · exact takingIf_false (mayGrant_notReady hs)
  · exact ⟨_, exec_memoryReady hs, rfl, rfl, rfl, rfl, rfl⟩
  · exact takingIf_false (by simp [hs])

/-- Settles O16: a mask written whole, or PARAM for a target or a further parameter. -/
theorem attentionMask : Obligations.AttentionMask := by
  unfold Obligations.AttentionMask
  intro s q tgt hdue
  refine ⟨fun ht hz => ?_, fun hbad => ?_⟩
  · subst ht
    rw [exec_attentionMask hdue]
    exact ⟨_, by rw [attentionMask_done hz], rfl, rfl⟩
  · by_cases ht : tgt = 0xFF
    · subst ht
      rw [exec_attentionMask hdue, attentionMask_extra (hbad.resolve_left (by simp))]
    · show commandRow 0x51 s _ = _
      rw [commandRow_due hdue, untargeted_target hdue ht]

/-- Settles O18: the limit is judged first, then the state, then the link. -/
theorem monitorTest : Obligations.MonitorTest := by
  unfold Obligations.MonitorTest
  refine ⟨fun s q b hdue => ⟨fun h1 h2 => ?_, fun hk h1 h2 => ?_, fun hk h hl => ?_⟩, fun s q b hdue h hl hk => ?_⟩
  all_goals rw [exec_monitorTest hdue]
  · rw [monitorTest_limit ⟨h1, h2⟩]
  · rw [monitorTest_state hk (by simpa using ⟨h1, h2⟩)]
    rfl
  · rw [monitorTest_down hk (by simpa using h) (by simpa using hl)]
    rfl
  · refine ⟨_, by rw [monitorTest_done hk (by simpa using h) (by simpa using hl)], ?_, ?_, ?_, fun hanchor => ?_⟩
    · simp [giveWith]
    · rcases hk with hk | hk <;> simp [giveWith, bedFlag, setFlag, hk, fARC_HIGH, fARC_LOW]
    · rfl
    · rw [pushControl_of_inForce (by simpa using hanchor)]
      exact queued_pushWb_self ..

end Sys2Proof.Proofs
end

/-! # The memory path: offers and classification (R181, R185 to R188, R191) -/

section
namespace Sys2Proof.Machine

variable {s : State} {t : Transaction}

/-! ## Offers at the SSP (R181) -/

theorem malformed_iff : malformed t = true ↔ t.beats = 0 ∨ 8 < t.beats ∨ 64 < t.addr.toNat % 64 + 8 * t.beats := by
  simp [malformed, or_assoc]
/-- A write that enables no byte touches nothing. -/
theorem empty_iff : (t.write && (txBytes t).isEmpty) = true ↔
    t.write = true ∧ ∀ k, k < 8 * t.beats → t.enables.getLsbD k = false := by
  cases hw : t.write <;> simp [txBytes, hw]

theorem offer_malformed (h : malformed t = true) : offer s t = emit s .sspRefused := if_pos h
theorem offer_empty (h : malformed t = false) (he : (t.write && (txBytes t).isEmpty) = true) : offer s t = emit s .sspDone := by
  simp only [offer, h, he, if_true, Bool.false_eq_true, if_false]
theorem offer_queued (h : malformed t = false) (he : ¬(t.write && (txBytes t).isEmpty) = true) (hroom : s.path.ssp.length < 8) :
    offer s t = setPath s { s.path with ssp := s.path.ssp ++ [t] } := by
  simp only [offer, h, he, Bool.false_eq_true, if_false, Config.sspQueue, hroom, if_true]
theorem offer_held (h : malformed t = false) (he : ¬(t.write && (txBytes t).isEmpty) = true) (hfull : 8 ≤ s.path.ssp.length) :
    offer s t = setPath s { s.path with held := s.path.held ++ [t] } := by
  simp only [offer, h, he, Bool.false_eq_true, if_false, Config.sspQueue, Nat.not_lt.2 hfull]

/-! ## Drops (R187, R188) -/

@[simp] theorem dropWrite_path {c : VCause} : (dropWrite s t c).path =
    logViolation (countViolation s.path c) ⟨t.addr + word ((txBytes t).headD 0), c, s.clock⟩ := by
  simp [dropWrite]
@[simp] theorem dropWrite_out {c : VCause} :
    (dropWrite s t c).out = s.out ++ [if param s (·.dropDone) false then .sspDone else .sspRefused] := by
  have hparam : ∀ u : State, u.loader = s.loader → param u (·.dropDone) false = param s (·.dropDone) false := fun u h => by
    rw [param, h, param]
  simp [dropWrite, emit, hparam]
theorem dropWrite_flag {c : VCause} : hasBit (dropWrite s t c).faults.hall.flags fhVIOLATION = true := by
  simp [dropWrite, setFlag, fhVIOLATION]
/-- Of a dropped write the path keeps a log record and two counts. -/
theorem logViolation_countViolation {p : Path} {v : Violation} :
    let u := logViolation (countViolation p v.cause) v
    u.ssp = p.ssp ∧ u.held = p.held ∧ u.fwd = p.fwd ∧ u.brackets = p.brackets ∧ u.lastSide = p.lastSide ∧
      u.lastFetch = p.lastFetch ∧ u.logTotal = p.logTotal + 1 ∧ u.log.getLast? = some v ∧
      u.violElement = p.violElement + (if v.cause = .element then 1 else 0) ∧
      u.violRange = p.violRange + (if v.cause = .range then 1 else 0) ∧
      u.violTable = p.violTable + (if v.cause = .table then 1 else 0) ∧
      u.violArea = p.violArea + (if v.cause = .area then 1 else 0) ∧
      u.violAnchor = p.violAnchor + (if v.cause = .anchor then 1 else 0) := by
  have hlast : ∀ l : List Violation, ((l ++ [v]).drop ((l ++ [v]).length - Config.violationLog)).getLast? = some v := fun l => by
    rw [List.getLast?_drop, if_neg (by simp [Config.violationLog])]
    simp
  cases v.cause <;>
    exact ⟨rfl, rfl, rfl, rfl, rfl, rfl, rfl, hlast p.log, by simp [logViolation, countViolation], by simp [logViolation, countViolation],
      by simp [logViolation, countViolation], by simp [logViolation, countViolation], by simp [logViolation, countViolation]⟩

/-! ## The head leaves the queue (R181) -/

theorem sspPop_eq_take (p : Path) : sspPop p = { p with ssp := p.ssp.tail ++ p.held.take 1, held := p.held.tail } := by
  unfold sspPop
  cases hheld : p.held <;> simp

/-! ## Classification (R185 to R191) -/

theorem classify_retry (h : mustRetry s t = true) : classify s t = answerRetry (setPath s (sspPop s.path)) := if_pos h
theorem classify_dropped {c : VCause} (h : mustRetry s t = false) (hw : t.write = true) (hc : protectedCause s t = some c) :
    classify s t = dropWrite (setPath s (sspPop s.path)) t c := by
  have hretry : mustRetry (setPath s (sspPop s.path)) t = false := h
  have hcause : protectedCause (setPath s (sspPop s.path)) t = some c := hc
  simp only [classify, hretry, hw, hcause, Bool.false_eq_true, if_false, if_true]
theorem classify_write (h : mustRetry s t = false) (hw : t.write = true) (hc : protectedCause s t = none) :
    classify s t = setPath s { sspPop s.path with fwd := some ⟨t, false⟩ } := by
  have hretry : mustRetry (setPath s (sspPop s.path)) t = false := h
  have hcause : protectedCause (setPath s (sspPop s.path)) t = none := hc
  simp only [classify, hretry, hw, hcause, Bool.false_eq_true, if_false, if_true]
  rfl
theorem classify_read (h : mustRetry s t = false) (hw : t.write = false) :
    classify s t = setPath (bracketRead (setPath s (sspPop s.path)) t)
      { (bracketRead (setPath s (sspPop s.path)) t).path with fwd := some ⟨t, false⟩ } := by
  have hretry : mustRetry (setPath s (sspPop s.path)) t = false := h
  simp only [classify, hretry, hw, Bool.false_eq_true, if_false]

/-- The brackets after a read: restarted, opened or as they were. -/
def bracketsAfter (s : State) (t : Transaction) : List Bracket :=
  match recordAt s t with
  | some (r, 0, _) =>
    if bracketOpen s.path r then s.path.brackets.map fun x => if x.record = r then ⟨r, s.clock⟩ else x
    else if s.path.brackets.length < 4 then s.path.brackets ++ [⟨r, s.clock⟩]
    else s.path.brackets
  | _ => s.path.brackets
theorem bracketRead_eq : bracketRead s t = setPath s { s.path with brackets := bracketsAfter s t } := by
  have hmap : ∀ (r : RecId) (x : Bracket), (if x.record == r then { x with start := s.clock } else x) =
      if x.record = r then ⟨r, s.clock⟩ else x := fun r x => by
    by_cases hx : x.record = r
    · simp [← hx]
    · simp [hx]
  have hsame : s = setPath s { s.path with brackets := s.path.brackets } := rfl
  rcases hrec : recordAt s t with _ | ⟨r, _ | k, n⟩
  · simpa only [bracketRead, bracketsAfter, hrec] using hsame
  · by_cases ho : bracketOpen s.path r = true
    · simp only [bracketRead, bracketsAfter, hrec, hmap, ho, if_true]
    · by_cases hroom : s.path.brackets.length < 4
      · simp only [bracketRead, bracketsAfter, hrec, Config.brackets, ho, hroom, if_true, Bool.false_eq_true, if_false]
      · simpa only [bracketRead, bracketsAfter, hrec, Config.brackets, ho, hroom, Bool.false_eq_true, if_false] using hsame
  · simpa only [bracketRead, bracketsAfter, hrec] using hsame
theorem bracketsAfter_other (h : ∀ r n, recordAt s t ≠ some (r, 0, n)) : bracketsAfter s t = s.path.brackets := by
  unfold bracketsAfter
  split
  case h_1 r n hrec => exact absurd hrec (h r n)
  · rfl
theorem bracketsAfter_first {r : RecId} {n : Nat} (h : recordAt s t = some (r, 0, n)) :
    bracketsAfter s t = if bracketOpen s.path r then s.path.brackets.map fun x => if x.record = r then ⟨r, s.clock⟩ else x
      else if s.path.brackets.length < 4 then s.path.brackets ++ [⟨r, s.clock⟩] else s.path.brackets := by
  simp only [bracketsAfter, h]
/-- A transaction that goes on to the MSP. -/
theorem classify_forwarded (h : mustRetry s t = false) (hc : t.write = true → protectedCause s t = none) :
    classify s t = setPath s { sspPop s.path with
      fwd := some ⟨t, false⟩, brackets := if t.write then s.path.brackets else bracketsAfter s t } := by
  cases hw : t.write with
  | true =>
    rw [classify_write h hw (hc hw)]
    simp [sspPop_eq_take]
  | false =>
    have hafter : bracketsAfter (setPath s (sspPop s.path)) t = bracketsAfter s t := by
      simp only [sspPop_eq_take]
      rfl
    rw [classify_read h hw, bracketRead_eq, hafter]
    rfl

end Sys2Proof.Machine

namespace Sys2Proof.Proofs
open Sys2Proof.Machine

/-- Settles O4: an offer is judged by its form, then by its enables, then by the room in the queue. -/
theorem sspOffer : Obligations.SspOffer := by
  unfold Obligations.SspOffer
  intro t s
  rw [exec_sspTransaction]
  refine ⟨fun h => ?_, fun h0 h8 h64 => ⟨fun hw he => ?_, fun hsome hroom => ?_, fun hsome hfull => ?_⟩⟩
  · rw [offer_malformed (malformed_iff.2 h)]
    rfl
  all_goals have hform : malformed t = false := Bool.eq_false_iff.2 fun h => by have := malformed_iff.1 h; omega
  · rw [offer_empty hform (empty_iff.2 ⟨hw, he⟩)]
    rfl
  all_goals
    have hbyte : ¬(t.write && (txBytes t).isEmpty) = true := fun h => by
      obtain ⟨hw, hnone⟩ := empty_iff.1 h
      rcases hsome with hread | ⟨k, hk, hset⟩
      · simp [hw] at hread
      · simp [hnone k hk] at hset
  · rw [offer_queued (s := fresh s) hform hbyte hroom]
    rfl
  · rw [offer_held (s := fresh s) hform hbyte hfull]
    rfl

/-- Settles O5: RETRY, drop and forward are told apart by the two judgements of R185, and only a forwarded read touches the
brackets. -/
theorem classification : Obligations.Classification := by
  unfold Obligations.Classification
  intro s t rest hfwd hssp
  rw [exec_hostClassify hfwd hssp]
  have htail : s.path.ssp.tail = rest := by rw [hssp, List.tail_cons]
  refine ⟨fun h => ?_, fun h hw c hc => ?_, fun h hc => ?_⟩
  · rw [classify_retry (s := fresh s) h]
    exact ⟨_, rfl, rfl, by simp [answerRetry, sspPop_eq_take], by simp [answerRetry, sspPop_eq_take, hfwd],
      by simp [answerRetry, sspPop_eq_take, htail], by simp [answerRetry, sspPop_eq_take]⟩
  · rw [classify_dropped (s := fresh s) h hw hc]
    obtain ⟨hssp', -, hfwd', hbrackets, -, -, htotal, hlast, helement, hrange, htable, harea, hanchor⟩ :=
      logViolation_countViolation (p := sspPop s.path) (v := ⟨t.addr + word ((txBytes t).headD 0), c, s.clock⟩)
    simp only [sspPop_eq_take] at hssp' hfwd' hbrackets htotal hlast helement hrange htable harea hanchor
    refine ⟨_, rfl, by simp; rfl, ?_, ?_, ?_, ?_, dropWrite_flag, ?_, ?_, ?_, ?_, ?_, ?_⟩
    all_goals simp only [dropWrite_path, setPath_path, sspPop_eq_take, setPath_clock, fresh_path, fresh_clock]
    · exact hfwd'.trans hfwd
    · rw [hssp', htail]
    · exact htotal
    · exact hlast
    · exact hbrackets
    · exact helement
    · exact hrange
    · exact htable
    · exact harea
    · exact hanchor
  · rw [classify_forwarded (s := fresh s) h hc]
    refine ⟨_, rfl, rfl, rfl, by simp [sspPop_eq_take, htail], rfl, fun hnot => ?_, fun r n hw hrec => ⟨fun ho => ?_, fun ho hroom => ?_,
      fun ho hfull => ?_⟩⟩
    · rcases hnot with hw | hnot
      · simp [hw]
      · simp [bracketsAfter_other (s := fresh s) hnot]
    all_goals simp only [setPath_path, hw, Bool.false_eq_true, if_false, bracketsAfter_first (s := fresh s) hrec]
    · exact if_pos ho
    · simp [ho, hroom]
    · simp [ho, Nat.not_lt.2 hfull]

end Sys2Proof.Proofs
end

/-! # The MSP arbiter (R182, R194, R195) -/

section
namespace Sys2Proof.Machine

variable {s : State} {b : BedId} {r : Req}

/-! ## Claimants -/

theorem mem_bedIds (b : BedId) : b ∈ bedIds := by cases b <;> decide
theorem fetchWaits_of_urgent (h : fetchUrgent s b = true) : fetchWaits s b = true := by
  unfold fetchUrgent at h
  dsimp only at h
  split at h
  case h_1 f _ hf _ =>
    simp only [Bool.and_eq_true] at h
    obtain ⟨⟨⟨⟨hgranted, -⟩, -⟩, -⟩, -⟩ := h
    simpa [fetchWaits, hf] using hgranted
  · cases h
theorem engineWaits_of_fetch (h : fetchWaits s b = true) : engineWaits s = true := by
  simp only [engineWaits, Bool.or_eq_true, List.any_eq_true]
  exact .inr ⟨b, mem_bedIds b, h⟩
theorem engineWaits_of_presents (h : enginePresents s = some r) : engineWaits s = true := by simp [engineWaits, h]
/-- The MSP is free and may be granted to a claimant. -/
theorem mayGrant_of (hready : s.path.memReady = true) (hfree : s.path.msp = none)
    (h : (∃ c l ls, s.engine.cur = some c ∧ c.lines = l :: ls) ∨ hostWaits s = true ∨ engineWaits s = true) : mayGrant s = true := by
  rcases h with ⟨c, l, ls, hcur, hlines⟩ | h | h
  · simp [mayGrant, hready, hfree, hcur, hlines]
  · simp [mayGrant, hready, hfree, h]
  · simp [mayGrant, hready, hfree, h]
/-- The engine presents a request only with none in progress. -/
theorem cur_of_presents (h : enginePresents s = some r) : s.engine.cur = none := by
  unfold enginePresents at h
  split at h
  · cases h
  case isFalse hcur => simpa using hcur

/-! ## The choice among the claimants (R195) -/

theorem grant_nextLine {c : Current} {l : Line} {ls : List Line} (hcur : s.engine.cur = some c) (hlines : c.lines = l :: ls) :
    grant s = grantNextLine s c l := by simp [grant, hcur, hlines]
theorem grant_urgent (hcur : s.engine.cur = none) (h : (bedsAfter s.path.lastUrgent).find? (fetchUrgent s) = some b) :
    grant s = grantFetch (setPath s { s.path with lastUrgent := b }) b := by simp [grant, hcur, h]
theorem grant_sides (hcur : s.engine.cur = none) (h : (bedsAfter s.path.lastUrgent).find? (fetchUrgent s) = none) :
    grant s = grantSides s := by simp [grant, hcur, h]
/-- The host's turn: nothing else waits, or the policy prefers it. -/
theorem grantSides_host {t : Transaction} (hfwd : s.path.fwd = some ⟨t, false⟩)
    (h : engineWaits s = false ∨ param s (·.alternate) false = false ∨ s.path.lastSide = .engine) :
    grantSides s = grantHost s ⟨t, false⟩ (engineWaits s) := by
  have hturn : engineWaits s = true → ¬(param s (·.alternate) false && s.path.lastSide == .host) = true := fun hw => by
    rcases h with h | h | h
    · simp [h] at hw
    · simp [h]
    · simp [h]
  simp only [grantSides, hfwd, Bool.false_eq_true, if_false]
  cases hw : engineWaits s with
  | false => rfl
  | true => simp [hturn hw]
/-- The engine's turn, with what it leaves as the side last served. -/
theorem grantSides_engine (h : s.path.fwd = none ∨
      (∃ t, s.path.fwd = some ⟨t, false⟩) ∧ param s (·.alternate) false = true ∧ s.path.lastSide = .host)
    (hw : engineWaits s = true) : ∃ d, grantSides s = grantEngineSide (setSide s d) := by
  rcases h with hfwd | ⟨⟨t, hfwd⟩, halternate, hside⟩
  · exact ⟨s.path.lastSide, by simp only [grantSides, hfwd]; rfl⟩
  · exact ⟨.engine, by simp [grantSides, hfwd, hw, halternate, hside]⟩
theorem grantHost_granted {t : Transaction} {k : Bool} (h : t.write = true → protectedCause s t = none) :
    grantHost s ⟨t, false⟩ k = grantMsp (setPath s { s.path with
      fwd := some ⟨t, true⟩, lastSide := if k then .host else s.path.lastSide }) .host t := by
  have hcause : (if t.write then protectedCause s t else none) = none := by
    split
    · exact h ‹_›
    · rfl
  simp only [grantHost, hcause]
  cases k <;> rfl
theorem grantHost_dropped {t : Transaction} {k : Bool} {c : VCause} (hw : t.write = true) (hc : protectedCause s t = some c) :
    grantHost s ⟨t, false⟩ k = grantEngineSide (dropWrite (setPath s { s.path with fwd := none }) t c) := by
  simp only [grantHost, hw, if_true, hc]

/-! ## What a grant sends -/

theorem grantFetch_eq {f : Fetch} (h : (runOf s b).fetch = some f) :
    grantFetch s b = grantMsp (setRun s b { runOf s b with fetch := some { f with granted := true } }) (.fetch b) (readOf f.addr 8) := by
  simp only [grantFetch, h]
theorem grantEngineSide_request (h : enginePresents s = some r) : grantEngineSide s = grantEngine s r := by
  simp only [grantEngineSide, h]
theorem grantEngineSide_fetch (h : enginePresents s = none) (hb : (bedsAfter s.path.lastFetch).find? (fetchWaits s) = some b) :
    grantEngineSide s = grantFetch (setPath s { s.path with lastFetch := b }) b := by
  simp only [grantEngineSide, h, hb]
/-- A grant to the engine's side sends something behind what was answered before, and leaves the rest of the path. -/
theorem grantEngineSide_leaves (s : State) :
    let u := grantEngineSide s
    (∃ l, u.out = s.out ++ l) ∧ u.path.fwd = s.path.fwd ∧ u.path.logTotal = s.path.logTotal ∧ u.path.lastSide = s.path.lastSide ∧
      u.faults = s.faults := by
  unfold grantEngineSide
  cases hr : enginePresents s with
  | some r => cases hw : r.what <;> simp [grantEngine, hw, grantMsp, emit]
  | none =>
    cases hb : (bedsAfter s.path.lastFetch).find? (fetchWaits s) with
    | some b => cases hf : (runOf s b).fetch <;> simp [grantFetch, hf, grantMsp, emit]
    | none => simp
/-- What is sent is told by the addresses and images of the records alone. -/
theorem grantsEngine_congr {s' u : State} {outs : List Output} (ha : ∀ w, recAddr s' w = recAddr s w)
    (hl : ∀ w, recLines s' w = recLines s w) (h : grantsEngine s' u r outs) : grantsEngine s u r outs := by
  unfold grantsEngine at h ⊢
  cases hw : r.what with
  | writeBack w => simpa only [hw, ha, hl] using h
  | _ => simpa only [hw] using h
theorem grantsEngine_setSide {u : State} {d : Side} {outs : List Output} (h : grantsEngine (setSide (fresh s) d) u r outs) :
    grantsEngine s u r outs :=
  grantsEngine_congr (fun w => by cases w <;> rfl) (fun w => by cases w <;> rfl) h

/-! ## A dropped write lets the grant pass on (R185) -/

theorem pushControl_fresh {q : RecId} : pushControl (fresh s) q = fresh (pushControl s q) := by
  have hqueued : queued (fresh s) (.writeBack q) = queued s (.writeBack q) := rfl
  simp only [pushControl, pushWb, hqueued, fresh_loader]
  split
  · split <;> rfl
  · rfl
/-- The drop does not depend on what was answered before. -/
theorem dropWrite_fresh {t : Transaction} {c : VCause} {p : Path} :
    ∃ o, dropWrite (setPath (fresh s) p) t c = { dropWrite (setPath s p) t c with out := o } := by
  refine ⟨(dropWrite (setPath (fresh s) p) t c).out, ?_⟩
  have hpush : ∀ q : Path, pushControl (setFlag (setPath (setPath (fresh s) p) q) .hall fhVIOLATION) .violations =
      fresh (pushControl (setFlag (setPath (setPath s p) q) .hall fhVIOLATION) .violations) := fun q =>
    pushControl_fresh (s := setFlag (setPath (setPath s p) q) .hall fhVIOLATION)
  simp only [dropWrite, setPath_path, setPath_clock, fresh_clock, hpush]
  rfl
theorem pushControl_queue {q : RecId} : ∃ l, (pushControl s q).engine.queue = s.engine.queue ++ l := by
  unfold pushControl pushWb
  split
  · split
    · exact ⟨[], (List.append_nil _).symm⟩
    · exact ⟨_, rfl⟩
  · exact ⟨[], (List.append_nil _).symm⟩
theorem pushControl_cur {q : RecId} : (pushControl s q).engine.cur = s.engine.cur := by
  unfold pushControl pushWb
  split
  · split <;> rfl
  · rfl
/-- What the engine presents is still first behind a drop. -/
theorem enginePresents_dropWrite {t : Transaction} {c : VCause} (h : enginePresents s = some r) :
    enginePresents (dropWrite (setPath s { s.path with fwd := none }) t c) = some r := by
  have hcur := cur_of_presents h
  have hfind : s.engine.queue.find? (fun r => !deferredByBracket s.path r) = some r := by simpa [enginePresents, hcur] using h
  have hcur' : (dropWrite (setPath s { s.path with fwd := none }) t c).engine.cur = none := pushControl_cur.trans hcur
  obtain ⟨l, hqueue⟩ : ∃ l, (dropWrite (setPath s { s.path with fwd := none }) t c).engine.queue = s.engine.queue ++ l :=
    pushControl_queue
  have hopen : ∀ q, deferredByBracket (dropWrite (setPath s { s.path with fwd := none }) t c).path q = deferredByBracket s.path q := by
    intro q
    obtain ⟨-, -, -, hbrackets, -⟩ := logViolation_countViolation (p := { s.path with fwd := none })
      (v := ⟨t.addr + word ((txBytes t).headD 0), c, s.clock⟩)
    simp only [dropWrite_path, setPath_path, setPath_clock, deferredByBracket, bracketOpen, hbrackets]
  simp only [enginePresents, hcur', hqueue, hopen, Option.isSome_none, Bool.false_eq_true, if_false, List.find?_append, hfind]
  rfl

end Sys2Proof.Machine

namespace Sys2Proof.Proofs
open Sys2Proof.Machine

/-- Settles O6: the claimants in the order of R195, each with what its grant sends. -/
theorem mspGrant : Obligations.MspGrant := by
  unfold Obligations.MspGrant
  intro s hready hfree
  have hgrants := mayGrant_of hready hfree
  refine ⟨fun c l ls hcur hlines => ?_, fun hcur => ⟨fun b f hurgent hfetch => ?_, fun hnone => ⟨fun t hfwd hok hturn => ?_,
    fun r hr hturn => ?_, fun b f hr hb hfetch hturn => ?_, fun t c hfwd hw hc hturn => ?_⟩⟩,
    fun k a d e f => ⟨fun w hw => ?_, fun w hw => ?_, fun i => rfl, fun w hw => ?_, fun i => rfl, fun w hw => ?_⟩⟩
  · refine ⟨_, exec_mspGrant (hgrants (.inl ⟨c, l, ls, hcur, hlines⟩)), ?_⟩
    rw [grant_nextLine (s := fresh s) hcur hlines]
    exact ⟨rfl, rfl, by simp [grantNextLine, grantMsp, emit, hlines]⟩
  · have hwaits := engineWaits_of_fetch (fetchWaits_of_urgent (List.find?_some hurgent))
    refine ⟨_, exec_mspGrant (hgrants (.inr (.inr hwaits))), ?_⟩
    rw [grant_urgent (s := fresh s) hcur hurgent, grantFetch_eq (s := setPath (fresh s) _) hfetch]
    exact ⟨rfl, rfl, rfl⟩
  · refine ⟨_, exec_mspGrant (hgrants (.inr (.inl (by simp [hostWaits, hfwd])))), ?_⟩
    rw [grant_sides (s := fresh s) hcur hnone, grantSides_host (s := fresh s) hfwd hturn, grantHost_granted (s := fresh s) hok]
    exact ⟨rfl, rfl, rfl, rfl⟩
  · have hwaits := engineWaits_of_presents hr
    refine ⟨_, exec_mspGrant (hgrants (.inr (.inr hwaits))), ?_⟩
    obtain ⟨side, hside⟩ := grantSides_engine (s := fresh s) hturn hwaits
    rw [grant_sides (s := fresh s) hcur hnone, hside, grantEngineSide_request (s := setSide (fresh s) side) hr]
    obtain ⟨hsends, hqueue⟩ := grantEngine_grants (setSide (fresh s) side) r
    refine ⟨grantsEngine_setSide hsends, hqueue, ?_⟩
    rw [← grantEngineSide_request (s := setSide (fresh s) side) hr]
    exact (grantEngineSide_leaves _).2.1
  · have hwaits := engineWaits_of_fetch (List.find?_some hb)
    refine ⟨_, exec_mspGrant (hgrants (.inr (.inr hwaits))), ?_⟩
    obtain ⟨side, hside⟩ := grantSides_engine (s := fresh s) hturn hwaits
    rw [grant_sides (s := fresh s) hcur hnone, hside, grantEngineSide_fetch (s := setSide (fresh s) side) hr hb,
      grantFetch_eq (s := setPath (setSide (fresh s) side) _) hfetch]
    exact ⟨rfl, rfl, rfl, by simp [grantMsp]⟩
  · refine ⟨_, exec_mspGrant (hgrants (.inr (.inl (by simp [hostWaits, hfwd])))), ?_⟩
    rw [grant_sides (s := fresh s) hcur hnone, grantSides_host (s := fresh s) hfwd hturn, grantHost_dropped (s := fresh s) hw hc]
    obtain ⟨⟨l, hout⟩, hleft, htotal, hside, hfaults⟩ := grantEngineSide_leaves
      (dropWrite (setPath (fresh s) { (fresh s).path with fwd := none }) t c)
    obtain ⟨-, -, hfwd', -, hside', -, htotal', -⟩ := logViolation_countViolation (p := { s.path with fwd := none })
      (v := ⟨t.addr + word ((txBytes t).headD 0), c, s.clock⟩)
    refine ⟨?_, ?_, ?_, ?_, ?_, fun r hr => ?_⟩
    · rw [hout]
      simp
      rfl
    · rw [hleft]
      simpa using hfwd'
    · rw [htotal]
      simpa using htotal'
    · rw [hfaults]
      exact dropWrite_flag
    · rw [hside]
      simpa using hside'
    · rw [grantEngineSide_request (enginePresents_dropWrite (s := fresh s) hr)]
      obtain ⟨o, ho⟩ := dropWrite_fresh (s := s) (t := t) (c := c) (p := { s.path with fwd := none })
      have hsends := (grantEngine_grants (dropWrite (setPath (fresh s) { (fresh s).path with fwd := none }) t c) r).1
      rw [dropWrite_out] at hsends
      exact grantsEngine_congr (fun w => (congrArg (recAddr · w) ho).trans (recAddr_out ..))
        (fun w => (congrArg (recLines · w) ho).trans (recLines_out ..)) hsends
  · rcases hw with rfl | ⟨b, rfl | rfl⟩ | ⟨i, j, rfl | rfl⟩ <;> rfl
  · rcases hw with ⟨b, i, rfl | rfl⟩ <;> rfl
  · rcases hw with ⟨b, i, rfl | rfl⟩ <;> rfl
  · rcases hw with rfl | rfl | ⟨b, rfl⟩ <;> rfl

end Sys2Proof.Proofs
end

/-! # The MSP's answers to the host, and its writes with effects (R42, R132, R182, R190 to R193, R208 to R213) -/

section
namespace Sys2Proof.Machine

variable {s : State} {t : Transaction} {b : BedId}

/-! ## Host writes (R182, R208 to R213) -/

theorem hostWriteAnswer_plain (h : isTrigger s t = false) : hostWriteAnswer s t .done = endForward s .sspDone := by
  have hplain : isTrigger (endForward s .sspDone) t = false := h
  simp only [hostWriteAnswer, hplain, Bool.false_eq_true, if_false]
theorem hostWriteAnswer_trigger (h : isTrigger s t = true) :
    hostWriteAnswer s t .done = pushResultAs (watchEvent (endForward s .sspDone)) .busyResult
      (BitVec.ofNat 16 (txField t (param s (·.control) 0) 2)) (byte (txField t (param s (·.control) 0 + 2) 1))
      (word (txField t (param s (·.control) 0 + 4) 4)) oBUSY 0 0 0 := by
  have htrigger : isTrigger (endForward s .sspDone) t = true := h
  simp only [hostWriteAnswer, htrigger, if_true]
  rfl
theorem commit_now (h : s.cmd.current = none) :
    commit s t = beginVerification (endForward s .sspDone) (word (txField t (s.loader.base + 8) 4)) := by
  have hcur : (endForward s .sspDone).cmd.current = none := h
  simp only [commit, hcur, Option.isSome_none, Bool.false_eq_true, if_false]
theorem commit_waits (h : s.cmd.current.isSome = true) :
    commit s t = setLoader (endForward s .sspDone) { s.loader with pendingCommit := some (word (txField t (s.loader.base + 8) 4)) } := by
  have hcur : (endForward s .sspDone).cmd.current.isSome = true := h
  simp only [commit, hcur, if_true]
  rfl
/-- The attention line shows a cause that the mask lets through (R212). -/
theorem attentionLine_iff :
    attentionLine s = true ↔ ∃ i, i < 8 ∧ hasBit s.faults.pending i = true ∧ hasBit s.faults.mask i = false := by
  rw [attentionLine, bne_iff_ne, byte_ne_zero_iff]
  refine exists_congr fun i => and_congr_right fun hi => ?_
  simp [hasBit_clearBits _ _ hi]

/-! ## Takes at the rings (R42, R132) -/

/-- What a take leaves of the bed: the order at its ring position is in hand, its element to be read. -/
theorem takeOrder_takes (s : State) (b : BedId) :
    let u := takeOrder s b
    (runOf u b).state = .accepting ∧ (bedOf u b).ring = { (bedOf s b).ring with taken := (bedOf s b).ring.taken + 1 } ∧
      ((runOf u b).hand.map fun h => (h.addr, h.idx)) = some (ringAddr s b, (bedOf s b).ring.pos) ∧
      u.engine.queue = s.engine.queue ++ [⟨s.engine.nextTicket, .bedElement b, ringAddr s b, 0, 0, false⟩] := by
  simp [takeOrder, enter, pushRead]
theorem burnWrite_takes {i : Nat} (hstate : (runOf s b).state = .waiting) (hret : (runOf s b).ret = none)
    (hpos : (bedOf s b).ring.pos = i) : burnWrite s b i = takeOrder (watchEvent (endForward s .sspDone)) b := by
  have hrun : runOf (watchEvent (endForward s .sspDone)) b = runOf s b := rfl
  have hbed : bedOf (watchEvent (endForward s .sspDone)) b = bedOf s b := rfl
  simp [burnWrite, hrun, hbed, hstate, hret, hpos]
theorem burnWrite_other {i : Nat} (h : (runOf s b).state ≠ .waiting ∨ (bedOf s b).ring.pos ≠ i) :
    burnWrite s b i = watchEvent (endForward s .sspDone) := by
  have hrun : runOf (watchEvent (endForward s .sspDone)) b = runOf s b := rfl
  have hbed : bedOf (watchEvent (endForward s .sspDone)) b = bedOf s b := rfl
  rcases h with h | h <;> simp [burnWrite, hrun, hbed, h]
theorem readCraneOwner_crane (s : State) : ∃ o, (readCraneOwner s).crane = { s.crane with ownRead := o } := by
  unfold readCraneOwner
  split
  · exact ⟨s.crane.ownRead, rfl⟩
  · exact ⟨true, rfl⟩
theorem takeCrane_takes (s : State) :
    let u := takeCrane s
    u.crane.taken = s.crane.taken + 1 ∧
      u.crane.stock = s.crane.stock ++ [⟨s.crane.ringPos, craneAddr s s.crane.ringPos, 0, 0, .none, 0, .reading⟩] ∧
      u.crane.ringPos = if s.crane.ringPos + 1 < param s (·.craneCount) 1 then s.crane.ringPos + 1 else 0 := by
  unfold takeCrane
  dsimp only
  obtain ⟨o, ho⟩ := readCraneOwner_crane (pushRead (setCrane s { s.crane with
    taken := s.crane.taken + 1,
    ringPos := if s.crane.ringPos + 1 < param s (·.craneCount) 1 then s.crane.ringPos + 1 else 0,
    stock := s.crane.stock ++ [⟨s.crane.ringPos, craneAddr s s.crane.ringPos, 0, 0, .none, 0, .reading⟩] })
      (.craneElement s.crane.ringPos) (craneAddr s s.crane.ringPos))
  rw [ho]
  exact ⟨rfl, rfl, rfl⟩
theorem craneWrite_takes {i : Nat} (h : mayTake s = true) (hpos : s.crane.ringPos = i) :
    craneWrite s [i] = takeCrane (watchEvent (endForward s .sspDone)) := by
  have htake : (mayTake (watchEvent (endForward s .sspDone)) && (watchEvent (endForward s .sspDone)).crane.ringPos == i) = true :=
    Bool.and_eq_true_iff.2 ⟨h, beq_iff_eq.2 hpos⟩
  simp only [craneWrite, List.foldl_cons, List.foldl_nil, htake, if_true]
theorem craneWrite_other {i : Nat} (h : mayTake s = false ∨ s.crane.ringPos ≠ i) :
    craneWrite s [i] = watchEvent (endForward s .sspDone) := by
  have hleave : ¬(mayTake (watchEvent (endForward s .sspDone)) && (watchEvent (endForward s .sspDone)).crane.ringPos == i) = true :=
    fun htake => by
      obtain ⟨hmay, hpos⟩ := Bool.and_eq_true_iff.1 htake
      exact h.elim (fun h => by rw [show mayTake s = true from hmay] at h; cases h) fun h => h (beq_iff_eq.1 hpos)
  simp only [craneWrite, List.foldl_cons, List.foldl_nil, hleave, Bool.false_eq_true, if_false]

end Sys2Proof.Machine

namespace Sys2Proof.Proofs
open Sys2Proof.Machine

/-- Settles O7: a write's answer by its kind, and the three ways a bracket or a read ends. -/
theorem hostAnswersAndBrackets : Obligations.HostAnswersAndBrackets := by
  unfold Obligations.HostAnswersAndBrackets
  refine ⟨fun s t hhas hw => ⟨?_, fun hplain => ?_⟩, fun s t a hhas hw => ⟨fun hnone => ?_, fun r hr => ?_⟩, fun s r hopen => ?_⟩
  · exact ⟨_, exec_hostWriteAnswer hhas hw (.inl rfl), rfl, rfl, rfl⟩
  · rw [exec_hostWriteAnswer hhas hw (.inr hplain)]
    cases htrigger : isTrigger s t with
    | false =>
      rw [hostWriteAnswer_plain (s := fresh s) htrigger]
      exact ⟨_, rfl, rfl, rfl, rfl, fun _ => ⟨rfl, rfl, rfl⟩, nofun⟩
    | true =>
      rw [hostWriteAnswer_trigger (s := fresh s) htrigger]
      exact ⟨_, rfl, rfl, rfl, rfl, nofun, fun _ => ⟨rfl, rfl, rfl⟩⟩
  · exact exec_hostReadAnswer hhas hw hnone
  · exact exec_bracketClose hhas hw hr
  · exact exec_bracketExpiry hopen

/-- Settles O8: bit by bit, a cause stays where the word written does not name it. -/
theorem acknowledge : Obligations.Acknowledge := by
  unfold Obligations.Acknowledge
  intro s t hhas hw hack
  refine ⟨_, exec_acknowledgeWrite hhas hw hack, rfl, rfl, rfl, fun i hi => ?_, attentionLine_iff, rfl⟩
  simp only [Machine.acknowledge, setFaults_faults, hasBit_clearBits _ _ hi, hasBit_byte _ hi]
  rw [Bool.and_eq_true, Bool.not_eq_true']
  rfl

/-- Settles O9: a trigger puts the command in execution; a commit begins a verification or waits. -/
theorem triggerAndCommit : Obligations.TriggerAndCommit := by
  unfold Obligations.TriggerAndCommit
  refine ⟨fun s t hhas hw htrigger hcur hver => ?_, fun s t hhas hw hcommit => ⟨fun hcur => ?_, fun hcur => ?_⟩⟩
  · exact ⟨_, exec_commandTrigger hhas hw htrigger hcur hver, rfl, rfl, rfl, rfl⟩
  · rw [exec_commit hhas hw hcommit, commit_now (s := fresh s) hcur]
    exact ⟨_, rfl, rfl, rfl, rfl, rfl, rfl, rfl⟩
  · rw [exec_commit hhas hw hcommit, commit_waits (s := fresh s) hcur]
    exact ⟨_, rfl, rfl⟩

/-- Settles O10: ISSUED at the ring position takes the order, elsewhere it restarts the host watch alone. -/
theorem ringTakes : Obligations.RingTakes := by
  unfold Obligations.RingTakes
  refine ⟨fun s t b i hhas hw hissued => ⟨fun hstate hret hpos => ?_, fun hother => ?_⟩,
    fun s t i hhas hw hissued => ⟨fun hmay hpos => ?_, fun hother => ?_⟩⟩
  · rw [exec_burnRingIssuedWrite hhas hw hissued, burnWrite_takes (s := fresh s) hstate hret hpos]
    obtain ⟨hstate', hring, hhand, hqueue⟩ := takeOrder_takes (watchEvent (endForward (fresh s) .sspDone)) b
    subst hpos
    exact ⟨_, rfl, hstate', hring, hhand, hqueue⟩
  · rw [exec_burnRingIssuedWrite hhas hw hissued, burnWrite_other (s := fresh s) hother]
    exact ⟨_, rfl, rfl, rfl⟩
  · rw [exec_craneRingIssuedWrite hhas hw hissued, craneWrite_takes (s := fresh s) hmay hpos]
    obtain ⟨htaken, hstock, hring⟩ := takeCrane_takes (watchEvent (endForward (fresh s) .sspDone))
    subst hpos
    exact ⟨_, rfl, htaken, hstock, hring⟩
  · rw [exec_craneRingIssuedWrite hhas hw hissued, craneWrite_other (s := fresh s) hother]
    exact ⟨_, rfl, rfl⟩

end Sys2Proof.Proofs
end

/-! # Commands turned away (R17, R65, R160, R178, R209, R210) -/

section
namespace Sys2Proof.Machine

variable {s : State} {slot : Line}

/-! ## What a command's row judges first -/

/-- The row of BED_RESUME is told by its option (log 16). -/
theorem exec_resumeRow (s : State) (slot : Line) : ∃ f, exec (resumeRow slot) s =
    commandRow 0x23 s fun s => bedCommand [(0, 1)] s slot f := by
  unfold resumeRow
  split
  case isTrue h => exact ⟨bedResumeWaive, if_neg (by simp [h])⟩
  split
  case isTrue h => exact ⟨bedResumeRemark, if_neg (by simp [h])⟩
  case isFalse h h' => exact ⟨bedResume slot, if_neg (by simp [h, h'])⟩
/-- The row of CRANE_RECOVER is told by its outcome (log 16). -/
theorem exec_recoverRow (s : State) (slot : Line) : ∃ f, exec (recoverRow slot) s =
    commandRow 0x31 s fun s => untargeted s fun s => craneRecover s slot f := by
  unfold recoverRow
  split
  case isTrue h => exact ⟨_, if_neg (by simp [h])⟩
  split
  case isTrue h => exact ⟨_, if_neg (by simp [h])⟩
  split
  case isTrue h => exact ⟨_, if_neg (by simp [h])⟩
  case isFalse h h' h'' => exact ⟨_, if_neg (by simp [inRange]; omega)⟩
/-- A command to a bed judges its target and its parameters first. -/
theorem exec_bedCommands {p : Instr × Nat × List (Nat × Nat)} (s : State) (h : p ∈ bedCommands slot) :
    ∃ f, exec p.1 s = commandRow p.2.1 s fun s => bedCommand p.2.2 s slot f := by
  simp only [bedCommands, List.mem_cons, List.not_mem_nil, or_false] at h
  rcases h with rfl | rfl | rfl | rfl | rfl | rfl | rfl
  case inr.inr.inr.inr.inr.inr => exact exec_resumeRow s slot
  all_goals exact ⟨_, rfl⟩
/-- A hall command judges its target and its parameters first, then the mode. -/
theorem exec_hallCommands {p : Instr × Nat} (s : State) (h : p ∈ hallCommands slot) :
    ∃ l f, exec p.1 s = commandRow p.2 s fun s => hallCommandIn l s slot f := by
  simp only [hallCommands, List.mem_cons, List.not_mem_nil, or_false] at h
  rcases h with rfl | rfl | rfl | rfl <;> exact ⟨_, _, rfl⟩
theorem hallCommandIn_param {l : List Mode} {f : State → State} (h : cmdTarget s ≠ 0xFF ∨ parZeroBut slot [] = false) :
    hallCommandIn l s slot f = deny s oPARAM 0 0 :=
  if_pos (by rcases h with h | h <;> simp [h])
/-- A command whose target must say none judges that first. -/
theorem exec_untargetedCommands {p : Instr × Nat} (s : State) (h : p ∈ untargetedCommands slot) :
    ∃ f, exec p.1 s = commandRow p.2 s f ∧ (cmdTarget s ≠ 0xFF → f (slotRead s) = deny (slotRead s) oPARAM 0 0) := by
  rcases List.mem_append.1 h with h | h
  · obtain ⟨l, f, hrow⟩ := exec_hallCommands s h
    exact ⟨_, hrow, fun ht => hallCommandIn_param (.inl ht)⟩
  · have hrow : ∃ f, exec p.1 s = commandRow p.2 s fun s => untargeted s f := by
      simp only [List.mem_cons, List.not_mem_nil, or_false] at h
      rcases h with rfl | rfl | rfl | rfl | rfl | rfl | rfl | rfl | rfl | rfl | rfl
      case inr.inr.inr.inl =>
        obtain ⟨f, hf⟩ := exec_recoverRow s slot
        exact ⟨_, hf⟩
      all_goals exact ⟨_, rfl⟩
    obtain ⟨f, hf⟩ := hrow
    exact ⟨_, hf, fun ht => by simp [untargeted, ht]⟩
/-- Every command read is one of its row's code. -/
theorem exec_commandRow {p : Instr × Nat} (s : State) (h : p ∈ oneRowCommands slot ++ optionCommands slot) :
    ∃ f, exec p.1 s = commandRow p.2 s f := by
  rcases List.mem_append.1 h with h | h
  · simp only [oneRowCommands, List.mem_cons, List.not_mem_nil, or_false] at h
    rcases h with rfl | rfl | rfl | rfl | rfl | rfl | rfl | rfl | rfl | rfl | rfl | rfl | rfl | rfl | rfl | rfl | rfl | rfl | rfl | rfl
    all_goals exact ⟨_, rfl⟩
  · simp only [optionCommands, List.mem_cons, List.not_mem_nil, or_false] at h
    rcases h with rfl | rfl
    · obtain ⟨f, hf⟩ := exec_resumeRow s slot
      exact ⟨_, hf⟩
    · obtain ⟨f, hf⟩ := exec_recoverRow s slot
      exact ⟨_, hf⟩

/-! ## The target and the parameters of a bed's command (R65) -/

variable {used : List (Nat × Nat)} {f : State → BedId → State}

theorem bedOf?_none {n : Nat} (h : 3 < n) : bedOf? n = none := by
  match n, h with
  | n + 4, _ => rfl
theorem bedCommand_target (h : 3 < cmdTarget s) : bedCommand used s slot f = deny s oPARAM 0 0 := by
  simp only [bedCommand, bedOf?_none h]
theorem bedCommand_param {b : BedId} (h : cmdTarget s = bedNum b) (hb : present s b = true) (hz : parZeroBut slot used = false) :
    bedCommand used s slot f = deny s oPARAM 0 0 := by
  simp [bedCommand, h, bedOf?_bedNum, hb, hz]

end Sys2Proof.Machine

namespace Sys2Proof.Proofs
open Sys2Proof.Machine

/-- Settles O11: what each row judges before its command. -/
theorem commandTurnedAway : Obligations.CommandTurnedAway := by
  unfold Obligations.CommandTurnedAway
  refine ⟨⟨fun s h => ?_, fun s slot h => ?_⟩, fun s slot p hp h hmode => ?_, fun s slot tgt p hp hdue ht => ?_,
    fun s slot tgt p hp hdue => ?_⟩
  · refine ⟨_, exec_commandSlotReadRefused h, ⟨_, _, _, rfl⟩, ?_, rfl, rfl⟩
    simp [writeBackFlag, setFlag, fhWRITE_BACK]
  · exact ⟨_, exec_unknownCommand h, ⟨_, _, _, rfl⟩, rfl⟩
  · obtain ⟨f, hf⟩ := exec_commandRow s hp
    rw [hf, commandRow_busy h hmode]
  · obtain ⟨f, hf, hturned⟩ := exec_untargetedCommands s hp
    rw [hf, commandRow_due hdue, hturned (hdue.2.1 ▸ ht)]
  · obtain ⟨f, hf⟩ := exec_bedCommands s hp
    rw [hf, commandRow_due hdue]
    have htarget : cmdTarget (slotRead s) = tgt := hdue.2.1
    refine ⟨fun h3 => ?_, fun b hb habsent => ?_, fun b hb hpresent hz => ?_⟩
    · rw [bedCommand_target (htarget ▸ h3)]
    · subst hb
      rw [bedCommand_absent hdue (by simpa [present] using habsent)]
    · rw [bedCommand_param (htarget.trans hb) hpresent hz]

end Sys2Proof.Proofs
end

/-! # The hall: run, hold and halt; fault commands; statistics (R161 to R165, R174, R178, R179, R215) -/

section
namespace Sys2Proof.Machine

variable {s : State} {slot : Line} {code : Nat}

/-! ## An operation over the four beds -/

/-- An operation that does something to each bed in turn and to no other does to bed `b` what it does at its turn. -/
theorem foldl_bedIds {f : State → BedId → State} (Q : State → Prop) (hq : ∀ s b, Q s → Q (f s b))
    (hother : ∀ s b c, c ≠ b → runOf (f s b) c = runOf s c) (h : Q s) (b : BedId) :
    Q (bedIds.foldl f s) ∧ ∃ t, Q t ∧ runOf t b = runOf s b ∧ runOf (bedIds.foldl f s) b = runOf (f t b) b := by
  have h0 := hq s .b0 h
  have h1 := hq _ .b1 h0
  have h2 := hq _ .b2 h1
  refine ⟨hq _ .b3 h2, ?_⟩
  simp only [bedIds, List.foldl_cons, List.foldl_nil]
  cases b
  · exact ⟨s, h, rfl, by simp only [hother, ne_eq, reduceCtorEq, not_false_eq_true]⟩
  · exact ⟨_, h0, by simp only [hother, ne_eq, reduceCtorEq, not_false_eq_true], by simp only [hother, ne_eq, reduceCtorEq, not_false_eq_true]⟩
  · exact ⟨_, h1, by simp only [hother, ne_eq, reduceCtorEq, not_false_eq_true], by simp only [hother, ne_eq, reduceCtorEq, not_false_eq_true]⟩
  · exact ⟨_, h2, by simp only [hother, ne_eq, reduceCtorEq, not_false_eq_true], rfl⟩

/-! ## The mode that a hall command wants (R160) -/

theorem hallCommandIn_due {l : List Mode} {f : State → State} (h : commandDue s code 0xFF) (hz : parZeroBut slot [] = true)
    (hmode : s.cmd.mode ∈ l) : hallCommandIn l (slotRead s) slot f = f (slotRead s) := by
  have htarget : cmdTarget (slotRead s) = 0xFF := h.2.1
  simp [hallCommandIn, htarget, hz, hmode]
theorem hallCommandIn_mode {l : List Mode} {f : State → State} (h : commandDue s code 0xFF) (hz : parZeroBut slot [] = true)
    (hmode : s.cmd.mode ∉ l) : hallCommandIn l (slotRead s) slot f = deny (slotRead s) oMODE 0 0 := by
  have htarget : cmdTarget (slotRead s) = 0xFF := h.2.1
  simp [hallCommandIn, htarget, hz, hmode]

/-- The command whose slot read is answered stands. -/
theorem current_of_slotReadFor {p : Nat → Bool} (h : slotReadFor s p = true) : ∃ c, s.cmd.current = some c := by
  rcases hcur : s.cmd.current with _ | c
  · simp [slotReadFor, hcur] at h
  · exact ⟨c, rfl⟩

/-! ## Run (R89, R161) -/

@[simp] theorem dropHolds_frame : (dropHolds s).cmd = s.cmd ∧ (dropHolds s).crane = s.crane ∧ (dropHolds s).faults = s.faults := by
  simp [dropHolds, bedIds, dropPause]
theorem runOf_dropHolds (b : BedId) :
    runOf (dropHolds s) b = { runOf s b with pause := (runOf s b).pause &&& ~~~ byte (2 ^ pHOLD) } := by
  obtain ⟨-, t, -, hrun, hfold⟩ := foldl_bedIds (s := s) (f := fun s b => dropPause s b (byte (2 ^ pHOLD))) (fun _ => True)
    (fun _ _ _ => trivial) (fun s b c hne => runOf_setRun_ne _ _ hne) trivial b
  rw [dropHolds, hfold]
  simp [dropPause, hrun, clearBits]
theorem hasBit_dropHolds (b : BedId) : hasBit (runOf (dropHolds s) b).pause pHOLD = false := by
  rw [runOf_dropHolds]
  exact (hasBit_clearBits _ _ (by decide)).trans (by simp [hasBit_byte, pHOLD, bit])

theorem hallRun_start (h : s.cmd.mode = .halt) : hallRun s =
    give (arbOffer (arbGrant (readCraneOwner (setMode s .run .none)))) oDONE 0 0 0 [.writeBack .hall] := by
  simp [hallRun, h]
theorem hallRun_fromHold (h : s.cmd.mode = .hold) : hallRun s =
    give (arbOffer (arbGrant (dropHolds (setMode s .run .none)))) oDONE
      (bedIds.filter (fun b => hasBit (runOf s b).pause pHOLD)).length 0 0 [.writeBack .hall] := by
  simp [hallRun, h]

/-- Where the ring runs, the read of its ownership word is under way after asking for it. -/
theorem readCraneOwner_runs (h : ringRuns s = true) : (readCraneOwner s).crane = { s.crane with ownRead := true } := by
  by_cases hread : s.crane.ownRead = true
  · have hsame : readCraneOwner s = s := by simp [readCraneOwner, hread]
    rw [hsame, ← hread]
  · simp [readCraneOwner, h, hread]

/-! ## Hold (R162, R163) -/

theorem enterHold_eq (o : Origin) : enterHold s o = bedIds.foldl (fun s b => addPause s b pHOLD)
    (setCmd (setMode s .hold o) { s.cmd with
      mode := .hold, origin := o,
      torch := bedIds.filter (fun b => (runOf s b).state == .burning || (runOf s b).state == .stopping) }) := by
  unfold enterHold
  simp [torchOff, bne]
/-- Adding the cause HOLD to every bed does so to each at its turn, and changes no command. -/
theorem foldl_addPause (s : State) (b : BedId) :
    (bedIds.foldl (fun s b => addPause s b pHOLD) s).cmd = s.cmd ∧
      ∃ t, runOf t b = runOf s b ∧ runOf (bedIds.foldl (fun s b => addPause s b pHOLD) s) b = runOf (addPause t b pHOLD) b := by
  obtain ⟨hcmd, t, -, hrun, hfold⟩ := foldl_bedIds (f := fun s b => addPause s b pHOLD) (fun t => t.cmd = s.cmd)
    (fun t b h => by simpa using h) (fun t b c hne => addPause_ne _ _ _ hne) rfl b
  exact ⟨hcmd, t, hrun, hfold⟩
theorem enterHold_cmd (o : Origin) : (enterHold s o).cmd = { s.cmd with
    mode := .hold, origin := o,
    torch := bedIds.filter (fun b => (runOf s b).state == .burning || (runOf s b).state == .stopping) } := by
  rw [enterHold_eq]
  exact (foldl_addPause _ .b0).1
theorem runOf_enterHold (o : Origin) (b : BedId) :
    ∃ t, runOf t b = runOf s b ∧ runOf (enterHold s o) b = runOf (addPause t b pHOLD) b := by
  obtain ⟨-, t, hrun, hfold⟩ := foldl_addPause (setCmd (setMode s .hold o) { s.cmd with
    mode := .hold, origin := o,
    torch := bedIds.filter (fun b => (runOf s b).state == .burning || (runOf s b).state == .stopping) }) b
  exact ⟨t, by simpa using hrun, by rw [enterHold_eq, hfold]⟩
theorem enterHold_active (o : Origin) {b : BedId} (h : activeState (runOf s b).state = true) :
    hasBit (runOf (enterHold s o) b).pause pHOLD = true := by
  obtain ⟨t, hrun, hfold⟩ := runOf_enterHold (s := s) o b
  rw [hfold, (addPause_run _ _ _ (hrun ▸ h)).1]
  simp [pHOLD]
theorem enterHold_inactive (o : Origin) {b : BedId} (h : activeState (runOf s b).state = false) :
    runOf (enterHold s o) b = runOf s b := by
  obtain ⟨t, hrun, hfold⟩ := runOf_enterHold (s := s) o b
  rw [hfold, addPause_inactive _ _ _ (hrun ▸ h), hrun]
theorem enterHold_state (o : Origin) (b : BedId) : (runOf (enterHold s o) b).state = (runOf s b).state := by
  obtain ⟨t, hrun, hfold⟩ := runOf_enterHold (s := s) o b
  rw [hfold, addPause_state, hrun]

@[simp] theorem runOf_hallHold (b : BedId) : runOf (hallHold s) b = runOf (enterHold s .command) b := by
  simp [hallHold, setStage]

/-! ## The end of a hold and of a halt (R163, R165) -/

theorem holdDone_waits {n : Nat} (h : stageOf s = .hold n) (ht : s.cmd.torch ≠ []) : holdDone s = s := by
  simp [holdDone, h, ht]
theorem holdDone_ends {n : Nat} (h : stageOf s = .hold n) (ht : s.cmd.torch = []) :
    holdDone s = give s oDONE n 0 0 [.writeBack .hall] := by
  simp [holdDone, h, ht]
theorem settleTorch_hold (h : s.cmd.mode = .hold) : settleTorch s = setCmd s { s.cmd with
    torch := s.cmd.torch.filter (fun b => (runOf s b).state == .burning || (runOf s b).state == .stopping) } := by
  simp [settleTorch, h, torchOff, bne]
theorem allBeds_iff {p : BedId → Bool} : allBeds p = true ↔ ∀ b, p b = true := by
  refine ⟨fun h b => ?_, fun h => by simp [allBeds, h]⟩
  obtain ⟨⟨⟨h0, h1⟩, h2⟩, h3⟩ : ((p .b0 = true ∧ p .b1 = true) ∧ p .b2 = true) ∧ p .b3 = true := by simpa [allBeds] using h
  cases b <;> assumption
theorem haltDone_ends (h : s.cmd.mode = .halting) (hbeds : ∀ b, bedIdle s b = true) (hcrane : craneIdle s = true)
    (hgrants : s.arb.grants = []) :
    haltDone s = give (setCmd s { s.cmd with mode := .halt }) oDONE s.cmd.haltBurn.toNat s.cmd.haltCrane.toNat
      (if s.crane.state = .faulted then 1 else 0) [.writeBack .hall] := by
  simp [haltDone, h, allBeds_iff.2 hbeds, hcrane, hgrants]
theorem haltDone_waits (h : (∃ b, bedIdle s b = false) ∨ craneIdle s = false ∨ s.arb.grants ≠ []) : haltDone s = s := by
  refine if_neg fun hall => ?_
  simp only [Bool.and_eq_true, allBeds_iff, List.isEmpty_iff] at hall
  obtain ⟨⟨⟨-, hbeds⟩, hcrane⟩, hgrants⟩ := hall
  rcases h with ⟨b, hb⟩ | h | h
  · simp [hbeds b] at hb
  · simp [hcrane] at h
  · exact h hgrants

end Sys2Proof.Machine

namespace Sys2Proof.Proofs
open Sys2Proof.Machine

/-- Settles O12: HALL_RUN starts the ring or takes cause HOLD from each bed, HALL_HOLD adds it to the active ones. -/
theorem hallRunAndHold : Obligations.HallRunAndHold := by
  unfold Obligations.HallRunAndHold
  refine ⟨fun s slot tgt p hp hdue hturned => ?_, fun s slot hdue hz => ⟨fun hmode => ?_, fun hmode => ?_, fun hmode => ?_⟩,
    fun s slot hdue hz => ⟨fun hmode => ?_, fun hmode => ?_⟩, fun s n hstage => ⟨holdDone_ends hstage, holdDone_waits hstage⟩,
    fun s => settleTorch_hold⟩
  · obtain ⟨l, f, hf⟩ := exec_hallCommands s hp
    rw [hf, commandRow_due hdue, hallCommandIn_param (hturned.imp_left fun h => hdue.2.1 ▸ h)]
  · rw [exec_hallRun hdue, hallCommandIn_due hdue hz (by simp [hmode]), hallRun_start (s := slotRead s) hmode]
    have hruns : ringRuns (setMode (slotRead s) .run .none) = true := by simp [ringRuns]
    refine ⟨_, rfl, ?_, ?_, gives_give .., ?_, ?_, ?_⟩
    · simp [give, giveWith]
    · simp [give, giveWith]
    · simp [slotRead]
    · exact (give_frame ..).2.2.2.2.2.2.2.2.2.2.2.2.trans (by simpa [slotRead] using readCraneOwner_runs hruns)
    · simp [slotRead]
  · rw [exec_hallRun hdue, hallCommandIn_due hdue hz (by simp [hmode]), hallRun_fromHold (s := slotRead s) hmode]
    refine ⟨_, rfl, ?_, ?_, gives_give .., fun b => ?_, fun b => ?_, ?_, ?_⟩
    · simp [give, giveWith]
    · simp [give, giveWith]
    · simp [runOf_dropHolds, slotRead]
    · simp [hasBit_dropHolds]
    · simp [slotRead]
    · simp [slotRead]
  · rw [exec_hallRun hdue, hallCommandIn_mode hdue hz (by simp [hmode])]
  · rw [exec_hallHold hdue, hallCommandIn_due hdue hz (by simp [hmode])]
    obtain ⟨c, hcur⟩ := current_of_slotReadFor hdue.1
    refine ⟨_, rfl, ?_, ?_, fun b h => ?_, fun b h => ?_, fun b => ?_, ?_, ?_⟩
    · simp [hallHold, setStage, enterHold_cmd]
    · simp [hallHold, setStage, enterHold_cmd]
    · rw [runOf_hallHold]
      exact enterHold_active .command h
    · rw [runOf_hallHold]
      exact enterHold_inactive .command h
    · rw [runOf_hallHold]
      exact enterHold_state .command b
    · simp [hallHold, setStage, enterHold_cmd, slotRead]
    · simp [hallHold, setStage, enterHold_cmd, slotRead, hcur]
  · rw [exec_hallHold hdue, hallCommandIn_mode hdue hz (by rcases hmode with h | h <;> simp [h])]

end Sys2Proof.Proofs
end

/-! # HALL_HALT, fault commands, statistics (R69, R154, R164, R174, R178, R179, R215) -/

section
namespace Sys2Proof.Machine

variable {s : State} {slot : Line} {b : BedId}

/-! ## The host's crane orders at a halt (R154) -/

theorem mem_returnHost {o : StockOrder} {i n m : Nat} {l : Loc} {k : Bool} (h : o ∈ (returnHost s i n l m k).crane.stock) :
    o.stage = .returning ∨ o ∈ s.crane.stock ∧ o.idx ≠ i := by
  have hstock : (returnHost s i n l m k).crane.stock = s.crane.stock ∧ (∀ x ∈ s.crane.stock, x.idx ≠ i) ∨
      (returnHost s i n l m k).crane.stock = s.crane.stock.map fun o => if o.idx == i then { o with stage := .returning } else o := by
    unfold returnHost
    split
    case h_1 hnone => exact .inl ⟨rfl, fun x hx => by simpa using List.find?_eq_none.1 hnone x hx⟩
    case h_2 => right; dsimp only; split <;> split <;> split <;> simp [setOrder]
  rcases hstock with ⟨hsame, hother⟩ | hmap
  · rw [hsame] at h
    exact .inr ⟨h, hother o h⟩
  · rw [hmap] at h
    obtain ⟨x, hx, rfl⟩ := List.mem_map.1 h
    by_cases hi : x.idx = i
    · simp [hi]
    · simp [hi, hx]
theorem returnHost_mode {i n m : Nat} {l : Loc} {k : Bool} : (returnHost s i n l m k).cmd.mode = s.cmd.mode := by
  unfold returnHost
  split
  · rfl
  · dsimp only
    split <;> split <;> split <;> simp

/-- One order's part of a halt. -/
def haltOrder (s : State) (o : StockOrder) : State :=
  if o.stage == .queued then returnHost s o.idx cABORTED_HALT (orderLoc s o) 0 true
  else if o.stage == .reading then returnHost s o.idx cABORTED_HALT .none 0 false else s
theorem haltCrane_eq : haltCrane s = s.crane.stock.foldl haltOrder s := rfl
theorem haltOrder_kept (o : StockOrder) : (haltOrder s o).cmd.mode = s.cmd.mode ∧ (haltOrder s o).beds = s.beds := by
  unfold haltOrder
  split
  · simp [returnHost_mode]
  · split <;> simp [returnHost_mode]
theorem mem_haltOrder {o x : StockOrder} (h : x ∈ (haltOrder s o).crane.stock) (hq : x.stage = .queued) :
    x ∈ s.crane.stock ∧ x ≠ o := by
  unfold haltOrder at h
  split at h
  case isTrue =>
    rcases mem_returnHost h with hr | ⟨hx, hi⟩
    · simp [hq] at hr
    · exact ⟨hx, fun e => hi (e ▸ rfl)⟩
  case isFalse hnot =>
    refine ⟨?_, fun e => hnot (by simp [← e, hq])⟩
    split at h
    · rcases mem_returnHost h with hr | ⟨hx, -⟩
      · simp [hq] at hr
      · exact hx
    · exact h
/-- Of the orders of the bank none is queued once each has had its part of the halt. -/
theorem foldl_haltOrder (l : List StockOrder) (s : State) :
    (l.foldl haltOrder s).cmd.mode = s.cmd.mode ∧ (l.foldl haltOrder s).beds = s.beds ∧
      ∀ x ∈ (l.foldl haltOrder s).crane.stock, x.stage = .queued → x ∈ s.crane.stock ∧ x ∉ l := by
  induction l generalizing s with
  | nil => exact ⟨rfl, rfl, fun x hx _ => ⟨hx, List.not_mem_nil⟩⟩
  | cons o l ih =>
    obtain ⟨hmode, hbeds, hmem⟩ := ih (haltOrder s o)
    obtain ⟨omode, obeds⟩ := haltOrder_kept (s := s) o
    refine ⟨hmode.trans omode, hbeds.trans obeds, fun x hx hq => ?_⟩
    obtain ⟨hin, hl⟩ := hmem x hx hq
    obtain ⟨hs, ho⟩ := mem_haltOrder hin hq
    exact ⟨hs, by simp [ho, hl]⟩
theorem haltCrane_kept : (haltCrane s).cmd.mode = s.cmd.mode ∧ (haltCrane s).beds = s.beds ∧
    ∀ o ∈ (haltCrane s).crane.stock, o.stage ≠ .queued := by
  obtain ⟨hmode, hbeds, hmem⟩ := foldl_haltOrder s.crane.stock s
  exact ⟨hmode, hbeds, fun o ho hq => (hmem o ho hq).2 (hmem o ho hq).1⟩

/-! ## A bed's part of a halt (R64, R69) -/

theorem returnOrder_kept (o : Outcome) (c : Nat) (p : Option (Nat × Nat)) (k : Bool) :
    (returnOrder s b o c p k).cmd.mode = s.cmd.mode ∧ (returnOrder s b o c p k).crane.stock = s.crane.stock := by
  have hwithdraw : ∀ s : State, (withdrawAll s b).crane.stock = s.crane.stock := fun _ => rfl
  unfold returnOrder
  dsimp only
  split
  · exact ⟨rfl, rfl⟩
  · split <;> simp [hwithdraw]
theorem enterStopping_state (o : Outcome) : (runOf (enterStopping s b o) b).state = .stopping := by
  simp [enterStopping, emptyFifo, dropFetch]
theorem runOf_enterStopping_ne {c : BedId} (o : Outcome) (h : c ≠ b) : runOf (enterStopping s b o) c = runOf s c := by
  simp [enterStopping, runOf_setRun_ne _ _ h, runOf_enter_ne _ _ _ h, runOf_leaveTokenList_ne _ _ h, runOf_leavePermitList_ne _ _ h]

theorem haltBed_kept (s : State) (b : BedId) :
    (haltBed s b).cmd.mode = s.cmd.mode ∧ (haltBed s b).crane.stock = s.crane.stock := by
  unfold haltBed
  split <;> simp [returnOrder_kept]
theorem haltBed_state (s : State) (b : BedId) : (runOf (haltBed s b) b).state = match (runOf s b).state with
    | .waiting | .accepting | .checking | .staging | .unloading => .stopped
    | .marking | .burning | .paused => .stopping
    | t => t := by
  unfold haltBed
  cases h : (runOf s b).state <;> simp [enterStopping_state, h]
theorem runOf_haltBed_ne {c : BedId} (h : c ≠ b) : runOf (haltBed s b) c = runOf s c := by
  unfold haltBed
  split <;> simp [runOf_enter_ne _ _ _ h, runOf_returnOrder_ne _ _ _ _ _ _ h, runOf_enterStopping_ne _ h]

theorem hallHalt_kept (s : State) : (hallHalt s).cmd.mode = .halting ∧ ∀ o ∈ (hallHalt s).crane.stock, o.stage ≠ .queued := by
  obtain ⟨hmode, -, hstock⟩ := haltCrane_kept
    (s := setStage (setCmd (setMode s .halting .none) { (setMode s .halting .none).cmd with haltBurn := 0, haltCrane := 0 }) .halting)
  refine (foldl_bedIds (fun t => t.cmd.mode = .halting ∧ ∀ o ∈ t.crane.stock, o.stage ≠ .queued) (fun t b h => ?_)
    (fun _ _ _ => runOf_haltBed_ne) ⟨hmode, hstock⟩ .b0).1
  obtain ⟨tmode, tstock⟩ := haltBed_kept t b
  rwa [tmode, tstock]
theorem hallHalt_state (s : State) (b : BedId) : ∃ t, runOf t b = runOf s b ∧ runOf (hallHalt s) b = runOf (haltBed t b) b := by
  obtain ⟨-, hbeds, -⟩ := haltCrane_kept
    (s := setStage (setCmd (setMode s .halting .none) { (setMode s .halting .none).cmd with haltBurn := 0, haltCrane := 0 }) .halting)
  obtain ⟨-, t, -, hrun, hfold⟩ := foldl_bedIds (fun _ => True) (fun _ _ _ => trivial) (fun _ _ _ => runOf_haltBed_ne)
    (s := haltCrane (setStage (setCmd (setMode s .halting .none)
      { (setMode s .halting .none).cmd with haltBurn := 0, haltCrane := 0 }) .halting)) trivial b
  exact ⟨t, hrun.trans (by rw [runOf, hbeds]; rfl), hfold⟩

/-! ## Fault commands (R174, R178, R179) -/

variable {g : Group}

theorem faultClear_param (h : groupOf? (par slot 0 1) = none ∨ parZeroBut slot [(0, 3)] = false) :
    faultClear s slot = deny s oPARAM 0 0 := by
  unfold faultClear
  dsimp only
  split
  · rfl
  case h_2 g hg =>
    have hz : parZeroBut slot [(0, 3)] = false := h.resolve_left (by simp [hg])
    simp [hz]
theorem faultClear_flags (hg : groupOf? (par slot 0 1) = some g)
    (h : byte (par slot 1 1) &&& ~~~ groupFlags g ≠ 0 ∨ (byte (par slot 1 1) = 0 ∧ par slot 2 1 = 0) ∨ 1 < par slot 2 1) :
    faultClear s slot = deny s oPARAM 0 0 := by
  have hturned : (clearBits (byte (par slot 1 1)) (groupFlags g) != 0 || byte (par slot 1 1) == 0 && par slot 2 1 == 0) = true ∨
      1 < par slot 2 1 := by
    simpa [clearBits, or_assoc] using h
  rcases hturned with h | h
  · simp only [faultClear, hg, h, if_true]
  · simp only [faultClear, hg, h, if_true, ite_self]
theorem faultClear_done (hg : groupOf? (par slot 0 1) = some g) (hz : parZeroBut slot [(0, 3)] = true)
    (hm : byte (par slot 1 1) &&& ~~~ groupFlags g = 0)
    (hopt : (byte (par slot 1 1) ≠ 0 ∧ par slot 2 1 = 0) ∨ par slot 2 1 = 1) :
    let m := byte (par slot 1 1)
    let v := s.faults.get g
    let kept := m &&& v.flags &&& persisting s g
    let flags := v.flags &&& ~~~ (m &&& ~~~ kept)
    let refused := par slot 2 1 == 1 && flags &&& ~~~ v.masks != 0
    let comb := if par slot 2 1 = 1 ∧ refused = false then false else v.comb
    faultClear s slot =
      give (setGroup s g ⟨flags, v.masks, comb⟩) oDONE kept.toNat refused.toNat comb.toNat [.writeBack .fault] := by
  have hsel : (byte (par slot 1 1) &&& ~~~ groupFlags g != 0 || byte (par slot 1 1) == 0 && par slot 2 1 == 0) = false := by
    rcases hopt with ⟨h, -⟩ | h
    · rw [hm, beq_false_of_ne h]
      rfl
    · simp [hm, h]
  have hle : ¬1 < par slot 2 1 := by omega
  have hkept : byte (par slot 1 1) &&& persisting s g &&& (s.faults.get g).flags =
      byte (par slot 1 1) &&& (s.faults.get g).flags &&& persisting s g := by
    rw [BitVec.and_assoc, BitVec.and_comm (persisting s g), ← BitVec.and_assoc]
  simp only [faultClear, hg, hsel, hle, hz, hkept, clearBits, combNum, setGroup, setFaults_faults, Faults.get_set, Bool.false_eq_true,
    if_false, Bool.not_true, Bool.and_eq_true, beq_iff_eq, Bool.not_eq_true']

theorem faultMask_param (h : groupOf? (par slot 0 1) = none ∨ parZeroBut slot [(0, 2)] = false) :
    faultMask s slot = deny s oPARAM 0 0 := by
  unfold faultMask
  dsimp only
  split
  · rfl
  case h_2 g hg =>
    have hz : parZeroBut slot [(0, 2)] = false := h.resolve_left (by simp [hg])
    simp [hz]
theorem faultMask_flags (hg : groupOf? (par slot 0 1) = some g) (h : byte (par slot 1 1) &&& ~~~ groupFlags g ≠ 0) :
    faultMask s slot = deny s oPARAM 0 0 := by
  simp only [faultMask, hg, clearBits, bne_iff_ne.2 h, if_true]
/-- The fault groups once the masks of one are replaced (R178). -/
def masked (f : Faults) (g : Group) (m : Byte) : Faults :=
  let v := f.get g
  let comb := v.comb || (v.flags &&& v.masks &&& ~~~ m != 0)
  { f.set g ⟨v.flags, m, comb⟩ with owed := f.owed || (comb && !v.comb) }
theorem masked_get (f : Faults) (g : Group) (m : Byte) : (masked f g m).get g =
    ⟨(f.get g).flags, m, (f.get g).comb || ((f.get g).flags &&& (f.get g).masks &&& ~~~ m != 0)⟩ :=
  (show (masked f g m).get g = (f.set g _).get g by cases g <;> rfl).trans (Faults.get_set ..)
theorem masked_get_ne (f : Faults) {g g' : Group} (m : Byte) (h : g' ≠ g) : (masked f g m).get g' = f.get g' :=
  (show (masked f g m).get g' = (f.set g _).get g' by cases g' <;> rfl).trans (Faults.get_set_ne _ _ h)
theorem faultMask_done (hg : groupOf? (par slot 0 1) = some g) (hz : parZeroBut slot [(0, 2)] = true)
    (hm : byte (par slot 1 1) &&& ~~~ groupFlags g = 0) :
    let v := s.faults.get g
    faultMask s slot = give (setFaults s (masked s.faults g (byte (par slot 1 1)))) oDONE
      (v.comb || (v.flags &&& v.masks &&& ~~~ byte (par slot 1 1) != 0)).toNat 0 0 [.writeBack .fault] := by
  have hseen : (s.faults.get g).flags &&& ~~~ byte (par slot 1 1) &&& (s.faults.get g).masks =
      (s.faults.get g).flags &&& (s.faults.get g).masks &&& ~~~ byte (par slot 1 1) := by
    rw [BitVec.and_assoc, BitVec.and_comm (~~~ _), ← BitVec.and_assoc]
  have hmasked : ∀ seen : Bool, seen = ((s.faults.get g).flags &&& (s.faults.get g).masks &&& ~~~ byte (par slot 1 1) != 0) →
      (if seen && !(s.faults.get g).comb then
        setFaults (setGroup s g { s.faults.get g with masks := byte (par slot 1 1), comb := (s.faults.get g).comb || seen })
          { (s.faults.set g { s.faults.get g with masks := byte (par slot 1 1), comb := (s.faults.get g).comb || seen }) with owed := true }
      else setGroup s g { s.faults.get g with masks := byte (par slot 1 1), comb := (s.faults.get g).comb || seen }) =
        setFaults s (masked s.faults g (byte (par slot 1 1))) := fun seen hs => by
    simp only [masked, ← hs, setGroup]
    cases seen <;> cases hcomb : (s.faults.get g).comb <;> simp <;> cases g <;> rfl
  have hcomb : combNum (setFaults s (masked s.faults g (byte (par slot 1 1)))) g =
      ((s.faults.get g).comb || ((s.faults.get g).flags &&& (s.faults.get g).masks &&& ~~~ byte (par slot 1 1) != 0)).toNat := by
    simp only [combNum, setFaults_faults, masked_get]
  dsimp only
  rw [← hcomb, ← hmasked _ rfl]
  simp only [faultMask, hg, clearBits, hm, hz, hseen, bne_self_eq_false, Bool.not_true, Bool.false_eq_true, if_false]
  rfl

/-! ## Statistics (R215) -/

theorem statsSnapshot_param (h : 1 < par slot 0 1 ∨ parZeroBut slot [(0, 1)] = false) :
    statsSnapshot s slot = deny s oPARAM 0 0 := by
  unfold statsSnapshot
  split
  · rfl
  · rw [if_pos (by simp [h.resolve_left ‹_›])]
theorem counters_clearCounters : counters (clearCounters s) = List.replicate 31 0 := rfl

theorem clearCounters_kept : (clearCounters s).clock = s.clock ∧ (clearCounters s).cmd = s.cmd := by
  simp [clearCounters, clearRing]
theorem statsSnapshot_done (hz : parZeroBut slot [(0, 1)] = true) (hle : par slot 0 1 ≤ 1) :
    let t := setCmd s { s.cmd with snapNo := s.cmd.snapNo + 1, snapshot := counters s ++ [s.clock, s.cmd.snapNo + 1] }
    statsSnapshot s slot = give (pushControl (if par slot 0 1 = 1 then clearCounters t else t) .stats) oDONE
      (s.cmd.snapNo + 1).toNat s.clock.toNat 0 [.writeBack .stats] := by
  simp only [statsSnapshot, Nat.not_lt.2 hle, if_false, hz, Bool.not_true, Bool.false_eq_true, beq_iff_eq, apply_ite State.clock,
    clearCounters_kept, setCmd_clock, ite_self]
theorem counters_pushControl (r : RecId) : counters (pushControl s r) = counters s := by simp [counters]
theorem counters_give (o : Byte) (x y z : Nat) (l : List ReqOf) : counters (give s o x y z l) = counters s := rfl

end Sys2Proof.Machine

namespace Sys2Proof.Proofs
open Sys2Proof.Machine

/-- Settles O13: HALL_HALT gives each bed and each of the host's crane orders its part; HALTING ends once all report idle. -/
theorem hallHalt : Obligations.HallHalt := by
  unfold Obligations.HallHalt
  refine ⟨fun s slot hdue hz => ⟨fun hmode => ?_, fun hmode => ?_⟩, fun s hmode => ⟨haltDone_ends hmode, haltDone_waits⟩⟩
  · rw [exec_hallHalt hdue, hallCommandIn_due hdue hz (by rcases hmode with h | h <;> simp [h])]
    refine ⟨_, rfl, (hallHalt_kept _).1, fun b => ?_, (hallHalt_kept _).2⟩
    obtain ⟨t, hrun, hhalt⟩ := hallHalt_state (slotRead s) b
    rw [hhalt, haltBed_state, hrun]
    rfl
  · rw [exec_hallHalt hdue, hallCommandIn_mode hdue hz (by simp [hmode])]

/-- Settles O15: FAULT_CLEAR keeps the flags whose condition stands, FAULT_MASK replaces one group's masks. -/
theorem faultClearAndMask : Obligations.FaultClearAndMask := by
  unfold Obligations.FaultClearAndMask
  refine ⟨fun s slot tgt => ⟨fun hdue hturned => ?_, fun hdue hturned => ?_⟩, fun s slot g hdue hg hz => ⟨fun hm hopt => ?_, fun h => ?_⟩,
    fun s slot g hdue hg hz => ⟨fun hm => ?_, fun h => ?_⟩⟩
  · by_cases ht : tgt = 0xFF
    · subst ht
      rw [exec_faultClear hdue, faultClear_param (hturned.resolve_left fun h => h rfl)]
    · exact (commandRow_due hdue).trans (by rw [untargeted_target hdue ht])
  · by_cases ht : tgt = 0xFF
    · subst ht
      rw [exec_faultMask hdue, faultMask_param (hturned.resolve_left fun h => h rfl)]
    · exact (commandRow_due hdue).trans (by rw [untargeted_target hdue ht])
  · rw [exec_faultClear hdue, faultClear_done hg hz hm hopt]
    exact ⟨_, rfl, rfl, gives_give ..⟩
  · rw [exec_faultClear hdue, faultClear_flags hg h]
  · rw [exec_faultMask hdue, faultMask_done hg hz hm]
    exact ⟨_, rfl, masked_get .., fun g' hne => masked_get_ne _ _ hne, rfl, gives_give ..⟩
  · rw [exec_faultMask hdue, faultMask_flags hg h]

/-- Settles O17: STATS_SNAPSHOT copies the counters, and clears them after it if told so. -/
theorem statsSnapshot : Obligations.StatsSnapshot := by
  unfold Obligations.StatsSnapshot
  refine ⟨fun s slot tgt hdue hturned => ?_, fun s slot hdue hz hle => ⟨rfl, ?_⟩⟩
  · by_cases ht : tgt = 0xFF
    · subst ht
      rw [exec_statsSnapshot hdue, statsSnapshot_param (hturned.resolve_left fun h => h rfl)]
    · exact (commandRow_due hdue).trans (by rw [untargeted_target hdue ht])
  · rw [exec_statsSnapshot hdue, statsSnapshot_done hz hle]
    refine ⟨_, rfl, ?_, ?_, gives_give .., ?_⟩
    · simp [give, giveWith, setStage, apply_ite State.cmd, clearCounters_kept, slotRead]
    · simp [give, giveWith, setStage, apply_ite State.cmd, clearCounters_kept]
      rfl
    · rw [counters_give, counters_pushControl]
      by_cases hopt : par slot 0 1 = 1
      · rw [if_pos hopt, if_pos hopt, counters_clearCounters]
      · rw [if_neg hopt, if_neg hopt]
        rfl

end Sys2Proof.Proofs
end

/-! # HALL_RESET (R24, R40, R70, R155, R166, R167) -/

section
namespace Sys2Proof.Machine

variable {s : State} {slot : Line} {b : BedId}

/-! ## The crane's part of a hall reset (R155) -/

/-- What the return of a host order leaves alone, of the crane's link and move, of the hall's mode and of the records. -/
theorem returnHost_kept {i n m : Nat} {l : Loc} {k : Bool} :
    (returnHost s i n l m k).cmd.mode = s.cmd.mode ∧ (returnHost s i n l m k).stock.table = s.stock.table ∧
      (returnHost s i n l m k).stock.tokenCtr = s.stock.tokenCtr ∧ (returnHost s i n l m k).crane.lk = s.crane.lk ∧
      (returnHost s i n l m k).crane.state = s.crane.state ∧ (returnHost s i n l m k).crane.move = s.crane.move := by
  refine ⟨returnHost_mode, ?_⟩
  unfold returnHost
  split
  · exact ⟨rfl, rfl, rfl, rfl, rfl⟩
  · dsimp only
    split <;> split <;> split <;> simp [releaseClaim, releaseRes, setOrder]

/-- From `s` to `t` the crane's part of a reset changed only what is the crane's own, or a request or release of it. -/
structure SameHall (s t : State) : Prop where
  mode : t.cmd.mode = s.cmd.mode
  table : t.stock.table = s.stock.table
  token : t.stock.tokenCtr = s.stock.tokenCtr
  faults : t.faults = s.faults
  path : t.path = s.path
  loader : t.loader = s.loader
  clock : t.clock = s.clock
  beds : t.beds = s.beds

theorem SameHall.refl (s : State) : SameHall s s := ⟨rfl, rfl, rfl, rfl, rfl, rfl, rfl, rfl⟩
theorem SameHall.trans {t u : State} (h : SameHall s t) (g : SameHall t u) : SameHall s u :=
  ⟨g.mode.trans h.mode, g.table.trans h.table, g.token.trans h.token, g.faults.trans h.faults, g.path.trans h.path,
    g.loader.trans h.loader, g.clock.trans h.clock, g.beds.trans h.beds⟩

theorem sameHall_returnHost {i n m : Nat} {l : Loc} {k : Bool} : SameHall s (returnHost s i n l m k) := by
  obtain ⟨hmode, htable, htoken, -⟩ := returnHost_kept (s := s) (i := i) (n := n) (m := m) (l := l) (k := k)
  exact ⟨hmode, htable, htoken, by simp, by simp, by simp, by simp, by simp⟩
/-- One order's part of the start of the crane's reset. -/
def resetOrder (s : State) (o : StockOrder) : State :=
  if o.stage == .queued || o.stage == .failed then returnHost s o.idx cABORTED_RESET (orderLoc s o) (heldMass s o) true
  else if o.stage == .reading then returnHost s o.idx cABORTED_RESET .none 0 false else s
theorem resetOrder_kept (o : StockOrder) : SameHall s (resetOrder s o) ∧ (resetOrder s o).crane.lk = s.crane.lk ∧
    (resetOrder s o).crane.state = s.crane.state ∧ (resetOrder s o).crane.move = s.crane.move := by
  unfold resetOrder
  split
  · obtain ⟨-, -, -, hcrane⟩ := returnHost_kept (s := s) (i := o.idx) (n := cABORTED_RESET) (l := orderLoc s o) (m := heldMass s o) (k := true)
    exact ⟨sameHall_returnHost, hcrane⟩
  · split
    · obtain ⟨-, -, -, hcrane⟩ := returnHost_kept (s := s) (i := o.idx) (n := cABORTED_RESET) (l := .none) (m := 0) (k := false)
      exact ⟨sameHall_returnHost, hcrane⟩
    · exact ⟨.refl s, rfl, rfl, rfl⟩
theorem resetOrders_kept : SameHall s (resetOrders s) ∧ (resetOrders s).crane.lk = s.crane.lk ∧
    (resetOrders s).crane.state = s.crane.state ∧ (resetOrders s).crane.move = s.crane.move := by
  have hfold : ∀ (l : List StockOrder) (s : State), SameHall s (l.foldl resetOrder s) ∧ (l.foldl resetOrder s).crane.lk = s.crane.lk ∧
      (l.foldl resetOrder s).crane.state = s.crane.state ∧ (l.foldl resetOrder s).crane.move = s.crane.move := fun l => by
    induction l with
    | nil => exact fun s => ⟨.refl s, rfl, rfl, rfl⟩
    | cons o l ih =>
      intro s
      obtain ⟨hall, hlk, hstate, hmove⟩ := ih (resetOrder s o)
      obtain ⟨hall', hlk', hstate', hmove'⟩ := resetOrder_kept (s := s) o
      exact ⟨hall'.trans hall, hlk.trans hlk', hstate.trans hstate', hmove.trans hmove'⟩
  exact hfold s.crane.stock s
theorem dropFailedMove_kept : SameHall s (dropFailedMove s) ∧ (dropFailedMove s).crane.lk = s.crane.lk ∧
    (dropFailedMove s).crane.state = s.crane.state ∧ (dropFailedMove s).crane.move.isSome = s.crane.move.isSome := by
  unfold dropFailedMove
  split
  · exact ⟨⟨rfl, rfl, rfl, rfl, rfl, rfl, rfl, rfl⟩, rfl, rfl, by simp⟩
  · exact ⟨.refl s, rfl, rfl, rfl⟩

theorem craneResetEnd_eq : ∃ t, SameHall s t ∧ craneResetEnd s =
    if s.stock.table.any (fun p => p.located && p.loc == .crane) then craneFlag t fcRESET_LOADED
    else if s.crane.lk.live then t else craneFlag t fcLINK_LOST := by
  have hend : ∀ m : Move, SameHall s (endHost s m cABORTED_RESET (whereIs s m) (measuredOf m)) ∧
      (endHost s m cABORTED_RESET (whereIs s m) (measuredOf m)).crane.lk = s.crane.lk := fun m => by
    unfold endHost
    split
    · split
      · exact ⟨sameHall_returnHost, returnHost_kept.2.2.2.1⟩
      · exact ⟨.refl s, rfl⟩
    · exact ⟨.refl s, rfl⟩
  have hset : ∀ (u : State) (c : Crane), SameHall u (setCrane u c) := fun u c => ⟨rfl, rfl, rfl, rfl, rfl, rfl, rfl, rfl⟩
  have hfree : ∀ (k : Bool) (u : State) (l : List BedId), SameHall u (if k then u else freeZones u l) ∧
      (if k then u else freeZones u l).crane = u.crane := fun k u l => by
    obtain ⟨z, hz⟩ := freeZones_frame l u
    rw [hz]
    cases k
    · exact ⟨⟨rfl, rfl, rfl, rfl, rfl, rfl, rfl, rfl⟩, rfl⟩
    · exact ⟨.refl u, rfl⟩
  cases hmove : s.crane.move with
  | none =>
    simp only [craneResetEnd, hmove]
    exact ⟨_, hset s _, rfl⟩
  | some m =>
    obtain ⟨hall, hlk⟩ := hend m
    simp only [craneResetEnd, hmove, hall.table, (hfree _ _ m.zones).2, hlk]
    exact ⟨_, hall.trans ((hfree _ _ m.zones).1.trans (hset _ _)), rfl⟩
/-- With its link live and either a move in flight or no piece at the crane, the start of the crane's reset sets no flag (R155). -/
def QuietReset (s : State) : Prop :=
  s.crane.lk.live = true ∧ ((s.crane.move.isSome = true ∧ s.crane.state ≠ .faulted) ∨
    ∀ p ∈ s.stock.table, p.located = true → p.loc ≠ .crane)
/-- Where the crane's part ends at once, a piece at the crane or a lost link sets a flag (R155). -/
theorem craneResetStart_eq_flag : ∃ t, SameHall s t ∧ (craneResetStart s = t ∨
    ¬QuietReset s ∧
    ∃ i, (i = fcRESET_LOADED ∨ i = fcLINK_LOST) ∧ craneResetStart s = craneFlag t i) := by
  obtain ⟨hall, hlk, hstate, hmove⟩ := resetOrders_kept (s := s)
  obtain ⟨hall', hlk', hstate', hmove'⟩ := dropFailedMove_kept (s := resetOrders s)
  have hkept := hall.trans hall'
  rw [craneResetStart_eq]
  have hmoves : (dropFailedMove (resetOrders s)).crane.move.isSome = s.crane.move.isSome := by rw [hmove', hmove]
  have hlive : (dropFailedMove (resetOrders s)).crane.lk.live = s.crane.lk.live := by rw [hlk', hlk]
  have hat : (dropFailedMove (resetOrders s)).crane.state = s.crane.state := by rw [hstate', hstate]
  have hends : ¬((s.crane.move.isSome = true ∧ s.crane.state ≠ .faulted) ∧ s.crane.lk.live = true) →
      ∃ t, SameHall s t ∧ (craneResetEnd (dropFailedMove (resetOrders s)) = t ∨
        ¬QuietReset s ∧
        ∃ i, (i = fcRESET_LOADED ∨ i = fcLINK_LOST) ∧ craneResetEnd (dropFailedMove (resetOrders s)) = craneFlag t i) := fun hnot => by
    obtain ⟨t, ht, heq⟩ := craneResetEnd_eq (s := dropFailedMove (resetOrders s))
    refine ⟨t, hkept.trans ht, ?_⟩
    rw [hkept.table, hlive] at heq
    split at heq
    case isTrue hpiece =>
      obtain ⟨p, hp, hcrane⟩ := List.any_eq_true.1 hpiece
      obtain ⟨hloc, hcrane⟩ : p.located = true ∧ p.loc = .crane := by simpa using hcrane
      refine .inr ⟨fun ⟨hl, h⟩ => ?_, _, .inl rfl, heq⟩
      rcases h with h | h
      · exact hnot ⟨h, hl⟩
      · exact h p hp hloc hcrane
    case isFalse =>
      split at heq
      · exact .inl heq
      case isFalse hl => exact .inr ⟨fun h => hl h.1, _, .inr rfl, heq⟩
  unfold resetMove
  cases hm : (dropFailedMove (resetOrders s)).crane.move with
  | none => exact hends fun h => by simp [← hmoves, hm] at h
  | some m =>
    dsimp only
    split
    case isTrue =>
      refine ⟨_, hkept.trans ?_, .inl rfl⟩
      split
      · exact ⟨rfl, rfl, rfl, rfl, rfl, rfl, rfl, rfl⟩
      · exact ⟨by simp, by simp, by simp, by simp, by simp, by simp, by simp, by simp⟩
    case isFalse hnot => exact hends fun h => hnot (by simp [hat, hlive, h])

/-! ## The stock unit's part of a hall reset (R24, R37, R40) -/

theorem clearClaims_kept : (clearClaims s).clock = s.clock ∧ (clearClaims s).path = s.path ∧ (clearClaims s).loader = s.loader ∧
    (clearClaims s).cmd = s.cmd ∧ (clearClaims s).faults = s.faults ∧ (clearClaims s).beds = s.beds ∧
    (clearClaims s).stock.tokenCtr = s.stock.tokenCtr := by
  unfold clearClaims
  generalize List.range s.stock.table.length = l
  induction l generalizing s with
  | nil => exact ⟨rfl, rfl, rfl, rfl, rfl, rfl, rfl⟩
  | cons i l ih =>
    simp only [List.foldl_cons, ih]
    split
    · exact ⟨rfl, rfl, rfl, rfl, rfl, rfl, rfl⟩
    · simp
/-- The claims of the records named in `l` are ended one by one. -/
theorem foldl_clearClaim (l : List Nat) (s : State) (i : Nat) (h : i ∈ l ∨ (plateAt s i).claim = .none) :
    (plateAt (l.foldl (fun s i =>
      if (plateAt s i).claim == .none then s else setPlate s i { plateAt s i with claim := .none }) s) i).claim = .none := by
  induction l generalizing s with
  | nil => simpa using h
  | cons j l ih =>
    rw [List.foldl_cons]
    refine ih _ ?_
    by_cases hl : i ∈ l
    · exact .inl hl
    right
    by_cases hij : i = j
    · subst hij
      split
      case isTrue hnone => simpa using hnone
      case isFalse =>
        by_cases hlen : i < s.stock.table.length
        · simp [plateAt, hlen]
        · simp [plateAt, hlen, Plate.blank]
    · have hnone : (plateAt s i).claim = .none := by simpa [hl, hij] using h
      split
      · exact hnone
      · simpa [plateAt, Ne.symm hij] using hnone
theorem clearClaims_claims : ∀ p ∈ (clearClaims s).stock.table, p.claim = .none := by
  intro p hp
  obtain ⟨i, hi, rfl⟩ := List.getElem_of_mem hp
  have hclaim := foldl_clearClaim (List.range s.stock.table.length) s i (by
    by_cases hlen : i < s.stock.table.length
    · exact .inl (List.mem_range.2 hlen)
    · exact .inr (by simp [plateAt, hlen, Plate.blank]))
  have hat : plateAt (clearClaims s) i = (clearClaims s).stock.table[i] := by simp [plateAt, hi]
  exact hat ▸ hclaim

/-- Nothing of the stock is claimed, reserved or waited for. -/
structure Unclaimed (k : Stock) : Prop where
  claims : ∀ p ∈ k.table, p.claim = .none
  ids : k.reservedIds = []
  slots : k.slotRes = []
  bay : k.overRes = []
  infeed : k.infeedRes = none
  waiters : k.waiters = []

theorem resetStock_kept : (resetStock s).clock = s.clock ∧ (resetStock s).path = s.path ∧ (resetStock s).loader = s.loader ∧
    (resetStock s).cmd = s.cmd ∧ (resetStock s).faults = s.faults ∧ (resetStock s).beds = s.beds ∧
    (resetStock s).stock.tokenCtr = s.stock.tokenCtr := clearClaims_kept (s := dropMoveRes s)
theorem resetStock_unclaimed : Unclaimed (resetStock s).stock :=
  ⟨clearClaims_claims (s := dropMoveRes s), rfl, rfl, rfl, rfl, rfl⟩

/-! ## A bed's part of a hall reset (R64, R70) -/

theorem giveUp_stock : (giveUp s b).stock = { s.stock with waiters := s.stock.waiters.filter (fun w => w.2 != b) } := by
  unfold giveUp
  dsimp only
  split <;> simp
theorem Unclaimed.giveUp (h : Unclaimed s.stock) : Unclaimed (giveUp s b).stock := by
  rw [giveUp_stock]
  exact { h with waiters := by simp [h.waiters] }
theorem Unclaimed.dropUnposted (h : Unclaimed s.stock) : Unclaimed (dropUnposted s b).stock := by
  unfold Machine.dropUnposted
  dsimp only
  split
  · split
    · exact { h with slots := by simp [releaseRes, h.slots], bay := by simp [releaseRes, h.bay], infeed := by simp [releaseRes, h.infeed] }
    · exact h
  · exact h
theorem dropUnposted_table : (dropUnposted s b).stock.table = s.stock.table ∧
    (dropUnposted s b).stock.tokenCtr = s.stock.tokenCtr := by
  unfold dropUnposted
  dsimp only
  split
  · split <;> exact ⟨rfl, rfl⟩
  · exact ⟨rfl, rfl⟩
theorem returnOrder_stock {h : Hand} (o : Outcome) (c : Nat) (p : Option (Nat × Nat)) (k : Bool) (e : (runOf s b).hand = some h) :
    ∃ l, (returnOrder s b o c p k).stock = { (giveUp (withdrawAll (dropUnposted s b) b) b).stock with
      reservedIds := (giveUp (withdrawAll (dropUnposted s b) b) b).stock.reservedIds.filter (fun e => e.2 != b), releases := l } := by
  unfold returnOrder
  simp only [e]
  split <;> exact ⟨_, by simp; rfl⟩
theorem Unclaimed.returnOrder {o : Outcome} {c : Nat} {p : Option (Nat × Nat)} {k : Bool} (h : Unclaimed s.stock) :
    Unclaimed (returnOrder s b o c p k).stock := by
  cases e : (runOf s b).hand with
  | none =>
    rw [returnOrder_none _ _ _ _ _ _ e]
    exact h
  | some hand =>
    obtain ⟨l, hl⟩ := returnOrder_stock (s := s) o c p k e
    have hu : Unclaimed (Machine.giveUp (withdrawAll (Machine.dropUnposted s b) b) b).stock :=
      Unclaimed.giveUp (s := withdrawAll (Machine.dropUnposted s b) b) h.dropUnposted
    rw [hl]
    exact { hu with ids := by simp [hu.ids] }

theorem isLive_of_quiet {t : State} (h : quiet t = quiet s) (b : BedId) : isLive t b = isLive s b := by
  have hlk : (t.beds.get b).lk = (s.beds.get b).lk := by
    cases b
    · exact congrArg (·.beds.b0.lk) h
    · exact congrArg (·.beds.b1.lk) h
    · exact congrArg (·.beds.b2.lk) h
    · exact congrArg (·.beds.b3.lk) h
  simp [isLive, bedOf, hlk]
theorem bedResetEnd_kept {how : ResetEnd} : (bedResetEnd s b how).cmd.mode = s.cmd.mode ∧
    (Unclaimed s.stock → Unclaimed (bedResetEnd s b how).stock) ∧ (∀ c, isLive (bedResetEnd s b how) c = isLive s c) ∧
    (∀ c, c ≠ b → runOf (bedResetEnd s b how) c = runOf s c) ∧
    (runOf (bedResetEnd s b how) b).state = .stopped ∧ (runOf (bedResetEnd s b how) b).hand = none := by
  refine ⟨?_, fun h => ?_, fun c => ?_, fun c hne => ?_, ?_, ?_⟩
  · cases how <;> simp [bedResetEnd]
  · simpa [bedResetEnd] using h.giveUp
  · have hq := isLive_of_quiet (quiet_giveUp s b) c
    simpa [bedResetEnd] using hq
  · simp [bedResetEnd, runOf_setRun_ne _ _ hne, runOf_enter_ne _ _ _ hne, runOf_giveUp_ne _ _ hne]
  · simp [bedResetEnd, BedRun.cleared, dropFetch]
  · simp [bedResetEnd, BedRun.cleared, dropFetch]
theorem endStopping_kept {o : Outcome} {how : ResetEnd} (hmode : s.cmd.mode = .resetting) :
    (endStopping s b o how).cmd.mode = .resetting ∧
    (Unclaimed s.stock → Unclaimed (endStopping s b o how).stock) ∧ (∀ c, isLive (endStopping s b o how) c = isLive s c) ∧
    (runOf (endStopping s b o how) b).state = .stopped ∧ (runOf (endStopping s b o how) b).hand = none := by
  have hmode' : ∀ k, (enter (returnOrder s b o 0 none k) b .stopped).cmd.mode = .resetting := fun k => by
    simp [returnOrder_kept, hmode]
  simp only [endStopping, hmode', beq_self_eq_true, if_true]
  obtain ⟨gmode, gstock, glive, -, gstate, ghand⟩ := bedResetEnd_kept
    (s := enter (returnOrder s b o 0 none (((runOf s b).hand.map (·.unloading)).getD false)) b .stopped) (b := b) (how := how)
  refine ⟨gmode.trans (hmode' _), fun h => gstock (by simpa using h.returnOrder), fun c => ?_, gstate, ghand⟩
  rw [glive]
  simp
theorem runOf_endStopping_ne {o : Outcome} {how : ResetEnd} {c : BedId} (hne : c ≠ b) :
    runOf (endStopping s b o how) c = runOf s c := by
  have hreturn : ∀ k, runOf (enter (returnOrder s b o 0 none k) b .stopped) c = runOf s c := fun k => by
    rw [runOf_enter_ne _ _ _ hne, runOf_returnOrder_ne _ _ _ _ _ _ hne]
  obtain ⟨-, -, -, gne, -⟩ := bedResetEnd_kept
    (s := enter (returnOrder s b o 0 none (((runOf s b).hand.map (·.unloading)).getD false)) b .stopped) (b := b) (how := how)
  unfold endStopping
  dsimp only
  split
  · rw [gne c hne, hreturn]
  · rw [hreturn]
theorem enterStopping_live (o : Outcome) (c : BedId) : isLive (enterStopping s b o) c = isLive s c :=
  isLive_of_quiet (by simp [enterStopping]) c

/-- What a bed's part of a hall reset leaves alone. -/
structure ResetGoesOn (s t : State) : Prop where
  mode : t.cmd.mode = .resetting
  stock : Unclaimed t.stock
  token : t.stock.tokenCtr = s.stock.tokenCtr
  faults : t.faults = s.faults
  path : t.path = s.path
  loader : t.loader = s.loader
  clock : t.clock = s.clock
  live : ∀ c, isLive t c = isLive s c

/-- The bed at the start of its part of a hall reset: its ring counters are 0 (log 61). -/
def ringCleared (s : State) (b : BedId) : State := clearRing (setRun s b { runOf s b with resetEnd := none }) b
theorem ringCleared_runOf : (runOf (ringCleared s b) b).state = (runOf s b).state ∧
    (∀ c, c ≠ b → runOf (ringCleared s b) c = runOf s c) ∧ ∀ c, isLive (ringCleared s b) c = isLive s c := by
  refine ⟨?_, fun c hne => ?_, fun c => ?_⟩
  · simp [ringCleared, clearRing]
  · simp [ringCleared, clearRing, runOf_setRun_ne _ _ hne]
  · simp [ringCleared, clearRing]
theorem resetBed_eq : resetBed s b =
    if !present s b then ringCleared s b
    else if isLive s b then enterStopping (ringCleared s b) b .abortedReset else endStopping (ringCleared s b) b .abortedReset .other := by
  obtain ⟨hstate, -, hlive⟩ := ringCleared_runOf (s := s) (b := b)
  have hpresent : present (ringCleared s b) b = present s b := by simp [present, hstate]
  rw [← hpresent, ← hlive b]
  rfl
theorem resetBed_token : (resetBed s b).stock.tokenCtr = s.stock.tokenCtr := by
  obtain ⟨-, -, -, houter, -⟩ := (Keeps.resetBed (M := ⟨False, False, False, False, fun _ => True⟩) (b := b) (Keeps.refl s) trivial).rest
  obtain ⟨-, -, -, htoken⟩ := houter id
  exact htoken
theorem runOf_resetBed_ne {c : BedId} (h : c ≠ b) : runOf (resetBed s b) c = runOf s c := by
  obtain ⟨-, hne, -⟩ := ringCleared_runOf (s := s) (b := b)
  rw [resetBed_eq]
  split
  · exact hne c h
  · split
    · rw [runOf_enterStopping_ne _ h, hne c h]
    · rw [runOf_endStopping_ne h, hne c h]
theorem resetBed_kept (hmode : s.cmd.mode = .resetting) (hstock : Unclaimed s.stock) (b : BedId) : ResetGoesOn s (resetBed s b) ∧
    (present s b = true → isLive s b = true → (runOf (resetBed s b) b).state = .stopping) ∧
    (present s b = true → isLive s b = false → (runOf (resetBed s b) b).state = .stopped ∧ (runOf (resetBed s b) b).hand = none) := by
  have htoken := resetBed_token (s := s) (b := b)
  obtain ⟨-, -, hlive⟩ := ringCleared_runOf (s := s) (b := b)
  have hclear : ResetGoesOn s (ringCleared s b) := ⟨hmode, hstock, rfl, rfl, rfl, rfl, rfl, hlive⟩
  rw [resetBed_eq] at htoken ⊢
  split
  case isTrue habsent =>
    have hno : present s b = false := by simpa using habsent
    exact ⟨hclear, fun h => by simp [hno] at h, fun h => by simp [hno] at h⟩
  split
  case isTrue hl =>
    refine ⟨⟨by simp [hclear.mode], by simpa using hclear.stock, by simpa using hclear.token, by simp [hclear.faults],
      by simp [hclear.path], by simp [hclear.loader], by simp [hclear.clock], fun c => ?_⟩,
      fun _ _ => enterStopping_state _, fun _ h => by simp [hl] at h⟩
    rw [enterStopping_live, hlive]
  case isFalse hpresent hl =>
    obtain ⟨gmode, gstock, glive, gstopped⟩ := endStopping_kept (b := b) (o := .abortedReset) (how := .other) hclear.mode
    refine ⟨⟨gmode, gstock hclear.stock, ?_, by simp [hclear.faults], by simp [hclear.path], by simp [hclear.loader],
      by simp [hclear.clock], fun c => ?_⟩, fun _ h => absurd h hl, fun _ _ => gstopped⟩
    · rwa [if_neg hpresent, if_neg hl] at htoken
    · rw [glive, hlive]

/-! ## The whole of HALL_RESET (R166) -/

/-- The hall RESETTING, its flags cleared, with nothing yet done by crane, stock and beds. -/
def flagsCleared (s : State) : State :=
  let t := setStage (setCmd (setMode s .resetting .none) { (setMode s .resetting .none).cmd with resetStopped := 0, resetOther := 0 }) .resetting
  setPath (setFaults t t.faults.hallReset) (resetPath t.path)
theorem hallReset_eq : hallReset s = bedIds.foldl resetBed (resetStock (craneResetStart (flagsCleared s))) := rfl

/-- What the crane and the stock unit leave to the beds' part: the flags cleared, but for the one that the crane's part may set at once
(R155, R166, R180). -/
theorem resetStock_craneResetStart (s : State) :
    let t := resetStock (craneResetStart (flagsCleared s))
    t.cmd.mode = .resetting ∧ Unclaimed t.stock ∧ t.stock.tokenCtr = s.stock.tokenCtr ∧ t.path = resetPath s.path ∧
      t.loader = s.loader ∧ t.clock = s.clock ∧ t.beds = s.beds ∧
      (t.faults = s.faults.hallReset ∨
        ¬QuietReset s ∧ ∃ i, (i = fcRESET_LOADED ∨ i = fcLINK_LOST) ∧ t.faults = s.faults.hallReset.raise .crane i) := by
  obtain ⟨hclock, hpath, hloader, hcmd, hfaults, hbeds, htoken⟩ := resetStock_kept (s := craneResetStart (flagsCleared s))
  obtain ⟨t, ht, hflag⟩ := craneResetStart_eq_flag (s := flagsCleared s)
  have hkept : SameHall (flagsCleared s) (setFaults (craneResetStart (flagsCleared s)) s.faults.hallReset) ∧
      ((craneResetStart (flagsCleared s)).faults = s.faults.hallReset ∨
        ¬QuietReset s ∧ ∃ i, (i = fcRESET_LOADED ∨ i = fcLINK_LOST) ∧
          (craneResetStart (flagsCleared s)).faults = s.faults.hallReset.raise .crane i) := by
    have hf : t.faults = s.faults.hallReset := ht.faults
    rcases hflag with h | ⟨hnot, i, hi, h⟩
    · rw [h]
      exact ⟨⟨ht.mode, ht.table, ht.token, rfl, ht.path, ht.loader, ht.clock, ht.beds⟩, .inl hf⟩
    · rw [h]
      refine ⟨⟨ht.mode, ht.table, ht.token, rfl, ht.path, ht.loader, ht.clock, ht.beds⟩, .inr ⟨hnot, i, hi, ?_⟩⟩
      rw [← hf]
      rfl
  obtain ⟨hall, hraised⟩ := hkept
  dsimp only
  rw [hcmd, htoken, hpath, hloader, hclock, hbeds, hfaults]
  exact ⟨hall.mode, resetStock_unclaimed, hall.token, hall.path, hall.loader, hall.clock, hall.beds, hraised⟩

/-- What HALL_RESET leaves, and what it does to each bed. -/
theorem hallReset_kept (s : State) :
    let t := resetStock (craneResetStart (flagsCleared s))
    ResetGoesOn t (hallReset s) ∧ ∀ b,
      (present s b = true → isLive s b = true → (runOf (hallReset s) b).state = .stopping) ∧
      (present s b = true → isLive s b = false → (runOf (hallReset s) b).state = .stopped ∧ (runOf (hallReset s) b).hand = none) := by
  obtain ⟨hmode, hstock, -, -, -, -, hbeds, -⟩ := resetStock_craneResetStart s
  have hstart : ResetGoesOn (resetStock (craneResetStart (flagsCleared s))) (resetStock (craneResetStart (flagsCleared s))) :=
    ⟨hmode, hstock, rfl, rfl, rfl, rfl, rfl, fun _ => rfl⟩
  have hgo : ∀ u, ResetGoesOn (resetStock (craneResetStart (flagsCleared s))) u →
      ∀ b, ResetGoesOn (resetStock (craneResetStart (flagsCleared s))) (resetBed u b) := fun u hu b => by
    obtain ⟨hb, -⟩ := resetBed_kept hu.mode hu.stock b
    exact ⟨hb.mode, hb.stock, hb.token.trans hu.token, hb.faults.trans hu.faults, hb.path.trans hu.path, hb.loader.trans hu.loader,
      hb.clock.trans hu.clock, fun c => (hb.live c).trans (hu.live c)⟩
  have hend : ∀ b, ResetGoesOn (resetStock (craneResetStart (flagsCleared s))) (hallReset s) ∧
      ∃ u, ResetGoesOn (resetStock (craneResetStart (flagsCleared s))) u ∧
        runOf u b = runOf (resetStock (craneResetStart (flagsCleared s))) b ∧ runOf (hallReset s) b = runOf (resetBed u b) b := fun b =>
    foldl_bedIds (f := resetBed) (ResetGoesOn (resetStock (craneResetStart (flagsCleared s)))) (fun u b hu => hgo u hu b)
      (fun u b c => runOf_resetBed_ne) hstart b
  refine ⟨(hend .b0).1, fun b => ?_⟩
  obtain ⟨-, u, hu, hrun, hfold⟩ := hend b
  have hsame : runOf u b = runOf s b ∧ isLive u b = isLive s b := by
    refine ⟨hrun.trans (by rw [runOf, hbeds]; rfl), (hu.live b).trans (by rw [isLive, bedOf, hbeds]; rfl)⟩
  obtain ⟨-, hlive, hlost⟩ := resetBed_kept hu.mode hu.stock b
  have hpresent : present u b = present s b := by rw [present, hsame.1]; rfl
  rw [hfold, ← hpresent, ← hsame.2]
  exact ⟨hlive, hlost⟩

/-! ## The flags after HALL_RESET (R155, R166, R180) -/

theorem hallReset_bedGroup (f : Faults) (b : BedId) : f.hallReset.beds.get b = ⟨0, (f.beds.get b).masks, false⟩ := by
  cases b <;> rfl
theorem hallReset_craneFlag (f : Faults) {i : Nat} (h : i < 8) : hasBit f.hallReset.crane.flags i =
    (decide (fcRESET_LOADED = i) && hasBit f.crane.flags fcRESET_LOADED) := by
  cases hload : hasBit f.crane.flags fcRESET_LOADED
  · simp [Faults.hallReset, hload, hasBit_eq]
  · simp only [Faults.hallReset, hload, if_true, hasBit_eq, byte_pow_bit, h, decide_true, Bool.true_and, Bool.and_true]
theorem raise_crane_kept (f : Faults) (i : Nat) : (f.raise .crane i).beds = f.beds ∧ (f.raise .crane i).hall = f.hall ∧
    (f.raise .crane i).crane.masks = f.crane.masks ∧
    ∀ j, j < 8 → hasBit (f.raise .crane i).crane.flags j = (hasBit f.crane.flags j || decide (i = j)) := by
  by_cases h : hasBit f.crane.flags i = true
  · have hsame : f.raise .crane i = f := if_pos h
    refine ⟨by rw [hsame], by rw [hsame], by rw [hsame], fun j _ => ?_⟩
    by_cases hij : i = j
    · subst hij
      simp [hsame, h]
    · simp [hsame, hij]
  · have hraised : f.raise .crane i = { f.set .crane { f.crane with
        flags := setBit f.crane.flags i, comb := f.crane.comb || !hasBit f.crane.masks i } with
        owed := f.owed || (!hasBit f.crane.masks i && !f.crane.comb) } := if_neg h
    rw [hraised]
    exact ⟨rfl, rfl, rfl, fun j hj => hasBit_setBit _ _ hj⟩

/-! ## RESETTING ends (R167) -/

theorem watchStart_faults : (watchStart s).faults =
    { s.faults with watch := if param s (·.watch) 0 = 0 then none else some s.clock } := by
  simp [watchStart]
theorem resetDone_ends (h : s.cmd.mode = .resetting) (hbeds : ∀ b, bedReset s b = true) (hcrane : s.crane.resetEnded = true)
    (hgrants : s.arb.grants = []) :
    resetDone s = give (clearReset (clearReset (clearReset (clearReset
      (watchStart (setCrane (setCmd s { s.cmd with mode := .halt }) { s.crane with resetEnded := false })) .b0) .b1) .b2) .b3)
        oDONE s.cmd.resetStopped.toNat s.cmd.resetOther.toNat (if s.crane.state = .faulted then 1 else 0) [.writeBack .hall] := by
  simp [resetDone, h, allBeds_iff.2 hbeds, hcrane, hgrants]
theorem resetDone_waits (h : (∃ b, bedReset s b = false) ∨ s.crane.resetEnded = false ∨ s.arb.grants ≠ []) : resetDone s = s := by
  refine if_neg fun hall => ?_
  simp only [Bool.and_eq_true, allBeds_iff, List.isEmpty_iff] at hall
  obtain ⟨⟨⟨-, hbeds⟩, hcrane⟩, hgrants⟩ := hall
  rcases h with ⟨b, hb⟩ | h | h
  · simp [hbeds b] at hb
  · simp [hcrane] at h
  · exact h hgrants
theorem runOf_clearResets (s : State) (b : BedId) :
    (runOf (clearReset (clearReset (clearReset (clearReset s .b0) .b1) .b2) .b3) b).resetEnd = none := by
  cases b <;> rfl

end Sys2Proof.Machine

namespace Sys2Proof.Proofs
open Sys2Proof.Machine

/-- Settles O14: HALL_RESET clears flags, stock and brackets and gives each bed its part; RESETTING ends once all have made theirs. -/
theorem hallReset : Obligations.HallReset := by
  unfold Obligations.HallReset
  refine ⟨fun s slot hdue hz hmode => ?_, fun s hmode => ⟨fun hbeds hcrane hgrants => ?_, resetDone_waits⟩⟩
  · rw [exec_hallReset hdue, hallCommandIn_due hdue hz (by rcases hmode with h | h | h <;> simp [h])]
    obtain ⟨hgo, hbeds⟩ := hallReset_kept (slotRead s)
    obtain ⟨-, -, htoken, hpath, hloader, hclock, -, hfaults⟩ := resetStock_craneResetStart (slotRead s)
    have hpath' : (Machine.hallReset (slotRead s)).path = resetPath (slotRead s).path := hgo.path.trans hpath
    have hfaults' : (Machine.hallReset (slotRead s)).faults = s.faults.hallReset ∨ ¬QuietReset s ∧
        ∃ i, (i = fcRESET_LOADED ∨ i = fcLINK_LOST) ∧ (Machine.hallReset (slotRead s)).faults = s.faults.hallReset.raise .crane i := by
      rw [hgo.faults]
      exact hfaults
    refine ⟨_, rfl, hgo.mode, hgo.loader.trans hloader, hgo.clock.trans hclock, hgo.stock.claims, hgo.stock.ids, hgo.stock.slots,
      hgo.stock.bay, hgo.stock.infeed, hgo.stock.waiters, hgo.token.trans htoken, ?_, ?_, ?_, by rw [hpath']; rfl, by rw [hpath']; rfl,
      by rw [hpath']; rfl, by rw [hpath']; rfl, fun b => ?_, ?_, ?_, fun hload => ?_, fun i hi hne hne' => ?_, fun hl hq => ?_,
      fun b => (hbeds b).1, fun b => (hbeds b).2⟩
    · rcases hfaults' with h | ⟨-, i, -, h⟩ <;> simp [h, Faults.hallReset]
    · rcases hfaults' with h | ⟨-, i, -, h⟩ <;> simp [h, Faults.hallReset]
    · rcases hfaults' with h | ⟨-, i, -, h⟩ <;> simp [h, Faults.hallReset]
    · rw [← hallReset_bedGroup]
      rcases hfaults' with h | ⟨-, i, -, h⟩ <;> simp [h, raise_crane_kept]
    · rcases hfaults' with h | ⟨-, i, -, h⟩ <;> simp [h, raise_crane_kept, Faults.hallReset, FaultGroup.reset]
    · rcases hfaults' with h | ⟨-, i, -, h⟩ <;> simp [h, raise_crane_kept, Faults.hallReset]
    · have hkept : hasBit s.faults.hallReset.crane.flags fcRESET_LOADED = true := by
        rw [hallReset_craneFlag _ (by decide), hload]
        rfl
      rcases hfaults' with h | ⟨-, i, -, h⟩
      · rw [h, hkept]
      · rw [h, (raise_crane_kept ..).2.2.2 _ (by decide), hkept, Bool.true_or]
    · have hclear : hasBit s.faults.hallReset.crane.flags i = false := by
        simp [hallReset_craneFlag _ hi, Ne.symm hne]
      rcases hfaults' with h | ⟨-, j, hj, h⟩
      · rw [h, hclear]
      · rw [h, (raise_crane_kept ..).2.2.2 i hi, hclear]
        rcases hj with rfl | rfl
        · simp [Ne.symm hne]
        · simp [Ne.symm hne']
    · rcases hfaults' with h | ⟨hnot, -⟩
      · rw [h]
        rfl
      · exact absurd ⟨hl, hq⟩ hnot
  · rw [resetDone_ends hmode hbeds hcrane hgrants]
    refine ⟨by simp [give, giveWith, clearReset], by simp [clearReset], ?_, ?_, gives_give ..⟩
    · exact fun b => (congrArg (·.resetEnd) ((give_reads ..).1 b)).trans (runOf_clearResets _ b)
    · have hparam : ∀ (k : CmdEngine) (c : Crane), param (setCrane (setCmd s k) c) (·.watch) 0 = param s (·.watch) 0 := fun _ _ => rfl
      simp [clearReset, watchStart_faults, hparam]

end Sys2Proof.Proofs
end

/-! # Commands to the beds (R66, R67, R95, R96, R107, R108) -/

section
namespace Sys2Proof.Machine

variable {s : State} {slot : Line} {b : BedId}

/-! ## BED_START and BED_STOP (R66, R67) -/

theorem bedStart_done (h : (runOf s b).state = .stopped) (hmode : s.cmd.mode ≠ .halt) (hl : isLive s b = true) :
    bedStart s b = giveWith (enter s b .waiting) oDONE 0 0 0 [wbBed b] [] (some b) := by
  simp [bedStart, h, hmode, hl]
theorem bedStart_state (h : (runOf s b).state ≠ .stopped) : bedStart s b = deny s oSTATE 0 0 := by simp [bedStart, h]
theorem bedStart_halt (h : (runOf s b).state = .stopped) (hmode : s.cmd.mode = .halt) : bedStart s b = deny s oMODE 0 0 := by
  simp [bedStart, h, hmode]
theorem bedStart_down (h : (runOf s b).state = .stopped) (hmode : s.cmd.mode ≠ .halt) (hl : isLive s b = false) :
    bedStart s b = deny s oSTATE 2 0 := by
  simp [bedStart, h, hmode, hl]

/-- A bed with nothing of its order under the torch stops at once, its order returned. -/
theorem bedStop_atOnce (h : (runOf s b).state = .waiting ∨ (runOf s b).state = .accepting ∨ (runOf s b).state = .checking ∨
      (runOf s b).state = .staging ∨ (runOf s b).state = .unloading) :
    (runOf (bedStop s b) b).state = .stopped ∧ gives (bedStop s b) oDONE 0 0 0 ∧
      ((runOf s b).state ≠ .waiting → (runOf (bedStop s b) b).hand = none) := by
  have hreturn : ∀ (o : Outcome) (k : Bool), (runOf (returnOrder s b o 0 none k) b).hand = none := fun o k => by
    cases e : (runOf s b).hand with
    | none => rw [returnOrder_none _ _ _ _ _ _ e, e]
    | some hand => rw [runOf_returnOrder _ _ _ _ _ _ e]; rfl
  unfold bedStop
  rcases h with h | h | h | h | h
  all_goals
    simp only [h]
    refine ⟨by simp, gives_give .., fun hne => ?_⟩
  · exact absurd rfl hne
  all_goals simp [hreturn]
/-- A bed at work under the torch goes through STOPPING (R64, R67). -/
theorem bedStop_active (h : (runOf s b).state = .marking ∨ (runOf s b).state = .burning ∨ (runOf s b).state = .paused) :
    bedStop s b = setStage (enterStopping s b .stopped) (.stopping b) := by
  unfold bedStop
  rcases h with h | h | h <;> simp only [h]
theorem bedStop_idle (h : (runOf s b).state = .stopped ∨ (runOf s b).state = .stopping ∨ (runOf s b).state = .faulted) :
    bedStop s b = deny s oSTATE 0 0 := by
  unfold bedStop
  rcases h with h | h | h <;> simp only [h]
theorem enterStopping_stop (o : Outcome) : (runOf (enterStopping s b o) b).stop = some ⟨o, s.clock⟩ := by
  simp [enterStopping]
theorem enterStopping_abort (o : Outcome) (h : isLive s b = true) : Output.abort b ∈ (enterStopping s b o).out := by
  simp [enterStopping, sendBed, h, emit]

theorem stopDone_ends (hstage : stageOf s = .stopping b) (h : (runOf s b).state ≠ .stopping) :
    stopDone s = give s oDONE (runOf s b).state.num 0 0 [.writeBack (.bed b), .bedReturn b] := by
  simp [stopDone, hstage, h]
theorem stopDone_waits (hstage : stageOf s = .stopping b) (h : (runOf s b).state = .stopping) : stopDone s = s := by
  simp [stopDone, hstage, h]

/-! ## BED_PAUSE (R95) -/

theorem bedPause_denied (h : (runOf s b).state ≠ .marking ∧ (runOf s b).state ≠ .burning) :
    bedPause s b = deny s oSTATE (runOf s b).state.num 0 := by
  simp [bedPause, cuttingState, h, stateNum]
theorem bedPause_done (h : (runOf s b).state = .marking ∨ (runOf s b).state = .burning) :
    bedPause s b = give (addPause s b pCOMMAND) oDONE ((runOf s b).pause == 0 && !(runOf s b).stream.pausing).toNat 0 0 [wbBed b] := by
  rcases h with h | h <;> simp [bedPause, cuttingState, h]
/-- A bed that cuts or marks sends PAUSE with its first cause only (R90). -/
theorem addPause_cutting {i : Nat} (h : (runOf s b).state = .marking ∨ (runOf s b).state = .burning) :
    addPause s b i =
      if (runOf s b).pause = 0 ∧ (runOf s b).stream.pausing = false
      then sendPause (setRun s b { runOf s b with pause := setBit (runOf s b).pause i }) b
      else setRun s b { runOf s b with pause := setBit (runOf s b).pause i } := by
  have hactive : activeState (runOf s b).state = true ∧ cuttingState (runOf s b).state = true := by
    rcases h with h | h <;> simp [activeState, cuttingState, h]
  simp [addPause, hactive]

theorem sendPause_out (h : isLive s b = true) : Output.pause b ∈ (sendPause s b).out := by
  simp [sendPause, sendBed, h, emit]
theorem runOf_sendPause : runOf (sendPause s b) b = { runOf s b with stream := { (runOf s b).stream with pausing := true } } := by
  simp [sendPause, streamOf]

/-! ## BED_RESUME (R96, R107, R108) -/

theorem bedResume_option (h : par slot 0 1 ≠ 0) : bedResume slot s b = deny s oPARAM 0 0 := by simp [bedResume, h]
theorem bedResume_state (h : par slot 0 1 = 0) (hm : mayResume (runOf s b) = false) :
    bedResume slot s b = deny s oSTATE (runOf s b).state.num 0 := by simp [bedResume, h, hm, stateNum]
theorem bedResumeWaive_state (hm : mayResume (runOf s b) = false) :
    bedResumeWaive s b = deny s oSTATE (runOf s b).state.num 0 := by simp [bedResumeWaive, hm, stateNum]
theorem bedResumeRemark_state (hm : mayResume (runOf s b) = false) :
    bedResumeRemark s b = deny s oSTATE (runOf s b).state.num 0 := by simp [bedResumeRemark, hm, stateNum]
theorem bedResumeRemark_running (hm : mayResume (runOf s b) = true) (h : (runOf s b).state ≠ .paused) :
    bedResumeRemark s b = deny s oSTATE (runOf s b).state.num 1 := by simp [bedResumeRemark, hm, h, stateNum]
theorem bedResume_done (h : par slot 0 1 = 0) (hm : mayResume (runOf s b) = true) :
    bedResume slot s b = give (setRun s b { runOf s b with pause := (runOf s b).pause &&& ~~~ resumeCauses }) oDONE
      (setSize ((runOf s b).pause &&& ~~~ resumeCauses)) 0 0 [wbBed b] := by
  simp [bedResume, h, hm, giveResume, dropPause, clearBits]
theorem bedResumeWaive_done (hm : mayResume (runOf s b) = true) :
    bedResumeWaive s b = give (setRun s b (waiveMarks { runOf s b with
        pause := (runOf s b).pause &&& ~~~ (resumeCauses ||| byte (2 ^ pMARK)) })) oDONE
      (setSize ((runOf s b).pause &&& ~~~ (resumeCauses ||| byte (2 ^ pMARK)))) 0 0 [wbBed b] := by
  simp [bedResumeWaive, hm, giveResume, dropPause, clearBits, waiveMarks]
theorem waiveMarks_table {r : BedRun} (h : r.marks.begun = true) :
    (waiveMarks r).marks.table = r.marks.table.map (fun x => if x.st = .failed then { x with st := .waived } else x) := by
  simp [waiveMarks, h]
theorem bedResumeRemark_done (hm : mayResume (runOf s b) = true) (h : (runOf s b).state = .paused) :
    bedResumeRemark s b = setStage (setRun s b { runOf s b with
      pause := (runOf s b).pause &&& ~~~ resumeCauses, marks := { (runOf s b).marks with pass := some .waiting }, remarkEnd := none })
      (.remark b) := by
  simp [bedResumeRemark, hm, h, dropPause, clearBits]
/-- BED_RESUME is refused after a form stop, and while nothing is paused or about to be. -/
theorem mayResume_false {r : BedRun} (h : r.stream.form ≠ none ∨ (r.state ≠ .paused ∧
    ((r.state ≠ .marking ∧ r.state ≠ .burning) ∨ r.stream.pausing = false))) : mayResume r = false := by
  rcases h with h | ⟨hp, h | h⟩
  · have hform : r.stream.form.isNone = false := by simpa [Option.isSome_iff_ne_none] using h
    simp [mayResume, hform]
  · simp [mayResume, hp, cuttingState, h]
  · simp [mayResume, hp, h]

end Sys2Proof.Machine

namespace Sys2Proof.Proofs
open Sys2Proof.Machine

/-- Settles O19: BED_START and BED_STOP by the bed's state. -/
theorem bedStartAndStop : Obligations.BedStartAndStop := by
  unfold Obligations.BedStartAndStop
  refine ⟨fun s slot b hdue => ⟨fun h hmode hl => ?_, fun h => ?_, fun h hmode => ?_, fun h hmode hl => ?_⟩,
    fun s slot b hdue => ⟨fun h => ?_, fun h => ?_, fun h => ?_⟩, fun s b hstage => ⟨stopDone_ends hstage, stopDone_waits hstage⟩⟩
  · rw [exec_bedStart hdue, bedStart_done (s := slotRead s) h hmode hl]
    exact ⟨_, rfl, by simp [giveWith], rfl⟩
  · rw [exec_bedStart hdue, bedStart_state (s := slotRead s) h]
  · rw [exec_bedStart hdue, bedStart_halt (s := slotRead s) h hmode]
  · rw [exec_bedStart hdue, bedStart_down (s := slotRead s) h hmode hl]
  · rw [exec_bedStop hdue]
    exact ⟨_, rfl, bedStop_atOnce h⟩
  · rw [exec_bedStop hdue, bedStop_active (s := slotRead s) h]
    obtain ⟨c, hcur⟩ := current_of_slotReadFor hdue.1.1
    refine ⟨_, rfl, ?_, ?_, fun hl => enterStopping_abort (s := slotRead s) .stopped hl, ?_, ?_⟩
    · simp [setStage, enterStopping_state]
    · simp [setStage, enterStopping_stop, slotRead]
    · simp [setStage, slotRead]
    · simp [setStage, slotRead, hcur]
  · rw [exec_bedStop hdue, bedStop_idle (s := slotRead s) h]

/-- Settles O20: BED_PAUSE adds cause COMMAND, and sends PAUSE where it is the first cause. -/
theorem bedPause : Obligations.BedPause := by
  unfold Obligations.BedPause
  refine fun s slot b hdue => ⟨fun h => ?_, fun h1 h2 => ?_⟩
  · rw [exec_bedPause hdue, bedPause_done (s := slotRead s) h, addPause_cutting (s := slotRead s) h]
    refine ⟨_, rfl, ?_, ?_, fun hsent => ?_, fun hnot => ?_⟩
    · rw [(give_reads ..).1]
      split <;> simp [runOf_sendPause]
    · rw [(give_reads ..).1]
      split <;> simp [runOf_sendPause, setBit]
    · have hcond : (runOf (slotRead s) b).pause = 0 ∧ (runOf (slotRead s) b).stream.pausing = false := hsent
      rw [if_pos hcond]
      refine ⟨by simp [runOf_sendPause], fun hl => ?_, ?_⟩
      · exact sendPause_out (by simpa using hl)
      · simp only [hcond]
        exact gives_give ..
    · have hcond : ¬((runOf (slotRead s) b).pause = 0 ∧ (runOf (slotRead s) b).stream.pausing = false) := hnot
      rw [if_neg hcond]
      refine ⟨by simp, by simp [slotRead], ?_⟩
      have hzero : ((runOf (slotRead s) b).pause == 0 && !(runOf (slotRead s) b).stream.pausing) = false := by
        simpa using hcond
      rw [hzero]
      exact gives_give ..
  · rw [exec_bedPause hdue, bedPause_denied (s := slotRead s) ⟨h1, h2⟩]
    rfl

/-- Settles O21: each option of BED_RESUME by the bed's state. -/
theorem bedResume : Obligations.BedResume := by
  unfold Obligations.BedResume
  refine fun s slot b hdue => ⟨fun hm => ⟨fun ho => ?_, fun ho => ?_, fun ho hp => ?_, fun ho hp => ?_⟩, fun ho => ?_,
    fun hno => ⟨fun ho => ?_, fun ho => ?_, fun ho => ?_⟩⟩
  · rw [exec_bedResume hdue (by simp [ho]), bedResume_done (s := slotRead s) ho hm]
    exact ⟨_, rfl, by simp, gives_give ..⟩
  · rw [exec_bedResumeWaive hdue ho, bedResumeWaive_done (s := slotRead s) hm]
    refine ⟨_, rfl, by simp [waiveMarks], fun hbegun => ?_, gives_give ..⟩
    rw [(give_reads ..).1, runOf_setRun, waiveMarks_table (by simpa using hbegun)]
    simp
  · rw [exec_bedResumeRemark hdue ho, bedResumeRemark_done (s := slotRead s) hm hp]
    obtain ⟨c, hcur⟩ := current_of_slotReadFor hdue.1.1
    exact ⟨_, rfl, by simp [setStage], by simp [setStage], by simp [setStage, hp], by simp [setStage, slotRead, hcur]⟩
  · rw [exec_bedResumeRemark hdue ho, bedResumeRemark_running (s := slotRead s) hm hp]
    rfl
  · rw [exec_bedResume hdue (by omega), bedResume_option (by omega)]
  all_goals dsimp only
  · rw [exec_bedResume hdue (by simp [ho]), bedResume_state (s := slotRead s) ho (mayResume_false hno)]
    rfl
  · rw [exec_bedResumeWaive hdue ho, bedResumeWaive_state (s := slotRead s) (mayResume_false hno)]
    rfl
  · rw [exec_bedResumeRemark hdue ho, bedResumeRemark_state (s := slotRead s) (mayResume_false hno)]
    rfl

end Sys2Proof.Proofs
end

/-! # The plate table's commands: PLATE_REGISTER, PLATE_AMEND, PLATE_RETIRE, REMNANT_FIND (R17 to R21) -/

section
namespace Sys2Proof.Machine

variable {s : State} {q : Line}

/-! ## PLATE_REGISTER (R18) -/

/-- The record that PLATE_REGISTER fills. -/
def registered (s : State) (q : Line) : Plate :=
  { st := .stock, remnant := false, loc := .infeed (locatedInfeed s + 1), claim := .none, suspect := false, id := par q 0 2,
    parent := par q 0xC 2, thickness := par q 2 2, length := par q 4 2, width := par q 6 2, heatLen := par q 0xE 1,
    heat := BitVec.ofNat 96 (par q 0x18 12), outline := [], mass := par q 8 4, regTime := s.clock,
    grade := BitVec.ofNat 64 (par q 0x10 8) }
theorem plateRegister_invalid {k : Nat} (h : firstInvalid (registerParams q) = some k) : plateRegister s q = deny s oPARAM k 0 := by
  simp only [registerParams, Bool.decide_and] at h
  simp only [plateRegister, firstBad_eq, inRange, h]

section
variable (hok : firstInvalid (registerParams q) = none)
include hok

theorem plateRegister_known {j : Nat} (h : findPlate s (par q 0 2) = some j) : plateRegister s q = deny s oDUPLICATE 1 j := by
  simp only [registerParams, Bool.decide_and] at hok
  simp only [plateRegister, firstBad_eq, inRange, hok, h]
theorem plateRegister_reserved {e : Nat × BedId} (h : findPlate s (par q 0 2) = none)
    (hres : s.stock.reservedIds.find? (·.1 == par q 0 2) = some e) : plateRegister s q = deny s oDUPLICATE 2 (bedNum e.2) := by
  simp only [registerParams, Bool.decide_and] at hok
  simp only [plateRegister, firstBad_eq, inRange, hok, h, hres]

variable (h : findPlate s (par q 0 2) = none) (hres : s.stock.reservedIds.find? (·.1 == par q 0 2) = none)
include h hres

theorem plateRegister_tableFull (hempty : lowestEmpty s = none) : plateRegister s q = deny s oFULL 1 0 := by
  simp only [registerParams, Bool.decide_and] at hok
  simp only [plateRegister, firstBad_eq, inRange, hok, h, hres, hempty]
theorem plateRegister_infeedFull {i : Nat} (hempty : lowestEmpty s = some i) (hfull : 4 ≤ infeedCount s) :
    plateRegister s q = deny s oFULL 2 0 := by
  simp only [registerParams, Bool.decide_and] at hok
  simp only [plateRegister, firstBad_eq, inRange, hok, h, hres, hempty, Config.infeed, hfull, if_true]
theorem plateRegister_lifting {i : Nat} (hempty : lowestEmpty s = some i) (hroom : infeedCount s < 4) (hl : liftingInfeed s = true) :
    plateRegister s q = deny s oSTATE 3 0 := by
  simp only [registerParams, Bool.decide_and] at hok
  simp only [plateRegister, firstBad_eq, inRange, hok, h, hres, hempty, Config.infeed, Nat.not_le.2 hroom, if_false, hl, if_true]
theorem plateRegister_done {i : Nat} (hempty : lowestEmpty s = some i) (hroom : infeedCount s < 4) (hl : liftingInfeed s = false) :
    plateRegister s q = give (setPlate s i (registered s q)) oDONE i (locatedInfeed s + 1) 0 (stockWaits i) := by
  simp only [registerParams, Bool.decide_and] at hok
  simp only [plateRegister, firstBad_eq, inRange, hok, h, hres, hempty, Config.infeed, Nat.not_le.2 hroom, if_false, hl,
    Bool.false_eq_true, registered]
end

/-! ## PLATE_AMEND (R19) -/

theorem amendParams_eq (s : State) (q : Line) : amendParams s q =
    [(2, inRange 1 15 (par q 2 1)), (3, par q 3 1 ≤ 5 && (!bit (par q 2 1) 3 || par q 3 1 == 1 || par q 3 1 == 4 || par q 3 1 == 5)),
      (4, !(bit (par q 2 1) 3 && par q 3 1 == 4) || par q 4 1 < 64), (5, !bit (par q 2 1) 0 || inRange 1 12 (par q 5 1)),
      (6, !bit (par q 2 1) 2 || inRange 1 1000000 (par q 8 4)), (7, !bit (par q 2 1) 1 || gradeOk (par q 0xC 8)),
      (8, !bit (par q 2 1) 0 || heatField (par q 0x14 12) (par q 5 1)),
      (4, !(bit (par q 2 1) 3 && par q 3 1 == 4) || par q 4 1 < rackSlots s), (0, parZeroBut q [(0, 6), (8, 0x18)])] := by
  have himp : ∀ (p p' : Prop) [Decidable p] [Decidable p'], decide (p → p') = (!decide p || decide p') := fun p p' _ _ => by
    by_cases h : p <;> simp [h]
  simp only [amendParams, inRange, Bool.decide_and, Bool.decide_or, himp, beq_eq_decide, Bool.or_assoc, Bool.decide_eq_true]
theorem plateAmend_invalid {k : Nat} (h : firstInvalid (amendParams s q) = some k) : plateAmend s q = deny s oPARAM k 0 := by
  rw [amendParams_eq] at h
  simp only [plateAmend, firstBad_eq, h]
theorem amendParams_valid (hz : parZeroBut q [(0, 6), (8, 0x18)] = true) (h : amendValid s q) :
    firstInvalid (amendParams s q) = none := by
  obtain ⟨h1, h15, hkind, hheat, hgrade, hmass, hplace⟩ := h
  have hkinds : bit (par q 2 1) 3 = true → par q 3 1 = 1 ∨ par q 3 1 = 4 ∨ par q 3 1 = 5 := fun hb => by
    rcases hplace hb with h | h | ⟨h, -⟩ <;> simp [h]
  have hslot : bit (par q 2 1) 3 = true → par q 3 1 = 4 → par q 4 1 < 64 ∧ par q 4 1 < rackSlots s := fun hb h4 => by
    rcases hplace hb with h | h | ⟨-, h⟩
    · simp [h] at h4
    · simp [h] at h4
    · exact h
  have hchars : bit (par q 2 1) 0 = true → heatField (par q 0x14 12) (par q 5 1) = true := fun hb => (hheat hb).2.2
  have hcount : bit (par q 2 1) 0 = true → 1 ≤ par q 5 1 ∧ par q 5 1 ≤ 12 := fun hb => ⟨(hheat hb).1, (hheat hb).2.1⟩
  have hsmall : bit (par q 2 1) 3 = true ∧ par q 3 1 = 4 → par q 4 1 < 64 := fun h => (hslot h.1 h.2).1
  have hrack : bit (par q 2 1) 3 = true ∧ par q 3 1 = 4 → par q 4 1 < rackSlots s := fun h => (hslot h.1 h.2).2
  have hset : 1 ≤ par q 2 1 ∧ par q 2 1 ≤ 15 := ⟨h1, h15⟩
  have hkindOk : par q 3 1 ≤ 5 ∧ (bit (par q 2 1) 3 = true → par q 3 1 = 1 ∨ par q 3 1 = 4 ∨ par q 3 1 = 5) := ⟨hkind, hkinds⟩
  simp only [firstInvalid, amendParams, hz, decide_eq_true hset, decide_eq_true hkindOk, decide_eq_true hsmall, decide_eq_true hcount,
    decide_eq_true hmass, decide_eq_true hgrade, decide_eq_true hchars, decide_eq_true hrack, if_true]

section
variable (hok : firstInvalid (amendParams s q) = none)
include hok

theorem plateAmend_unknown (h : findPlate s (par q 0 2) = none) : plateAmend s q = deny s oNOT_FOUND 0 0 := by
  rw [amendParams_eq] at hok
  simp only [plateAmend, firstBad_eq, hok, h]
theorem plateAmend_refused {i d : Nat} {o : Byte} (h : findPlate s (par q 0 2) = some i)
    (hr : amendRefused s (plateAt s i) (par q 2 1) (par q 3 1) (par q 4 1) = some (o, d)) : plateAmend s q = deny s o d 0 := by
  rw [amendParams_eq] at hok
  simp only [plateAmend, firstBad_eq, hok, h, hr]
theorem plateAmend_done {i : Nat} (h : findPlate s (par q 0 2) = some i)
    (hr : amendRefused s (plateAt s i) (par q 2 1) (par q 3 1) (par q 4 1) = none) :
    plateAmend s q = give (setPlate s i (amended s (plateAt s i) q)) oDONE i 0 0 (stockWaits i) := by
  rw [amendParams_eq] at hok
  simp only [plateAmend, firstBad_eq, hok, h, hr]
end

/-! ### The checks on the record, by its claim and place -/

section
variable {p : Plate} {set kind slot : Nat}

theorem amendRefused_held (h : (∃ t e, p.claim = .hold t e) ∨ (∃ e, p.claim = .lift e)) :
    amendRefused s p set kind slot = some (oSTATE, 1) := by
  rcases h with ⟨t, e, h⟩ | ⟨e, h⟩ <;> simp only [amendRefused, h]
theorem amendRefused_burning {b : BedId} (h : p.claim = .burn b) (hset : set ≠ 1) :
    amendRefused s p set kind slot = some (oSTATE, 1) := by
  simp [amendRefused, h, hset]
theorem amendRefused_heatOnly {b : BedId} (h : p.claim = .burn b) : amendRefused s p 1 kind slot = none := by
  simp [amendRefused, h, bit]

variable (h : p.claim = .none)
include h

theorem amendRefused_fields (hplace : bit set 3 = false) : amendRefused s p set kind slot = none := by
  simp [amendRefused, h, hplace]

variable (hplace : bit set 3 = true)
include hplace

theorem amendRefused_notLost (hst : p.st ≠ .lost) : amendRefused s p set kind slot = some (oSTATE, 2) := by
  simp [amendRefused, h, hplace, hst]

variable (hst : p.st = .lost)
include hst

theorem amendRefused_infeed (hk : kind = 1) (hl : liftingInfeed s = false) (hroom : infeedCount s < 4) : amendRefused s p set kind slot = none := by
  simp [amendRefused, hk, h, hplace, hst, Config.infeed, hl, Nat.not_le.2 hroom]
theorem amendRefused_lifting (hk : kind = 1) (hl : liftingInfeed s = true) : amendRefused s p set kind slot = some (oSTATE, 3) := by
  simp [amendRefused, hk, h, hplace, hst, hl]
theorem amendRefused_infeedFull (hk : kind = 1) (hl : liftingInfeed s = false) (hfull : 4 ≤ infeedCount s) :
    amendRefused s p set kind slot = some (oFULL, 2) := by
  simp [amendRefused, hk, h, hplace, hst, Config.infeed, hl, hfull]
theorem amendRefused_rack (hk : kind = 4) (hfit : fitsSlot s slot p.length p.width = true) (hfree : slotFree s slot = true) :
    amendRefused s p set kind slot = none := by
  simp [amendRefused, hk, h, hplace, hst, hfit, hfree]
theorem amendRefused_noFit (hk : kind = 4) (hfit : fitsSlot s slot p.length p.width = false) : amendRefused s p set kind slot = some (oSTATE, 4) := by
  simp [amendRefused, hk, h, hplace, hst, hfit]
theorem amendRefused_slotTaken (hk : kind = 4) (hfit : fitsSlot s slot p.length p.width = true) (hfree : slotFree s slot = false) :
    amendRefused s p set kind slot = some (oFULL, 4) := by
  simp [amendRefused, hk, h, hplace, hst, hfit, hfree]
theorem amendRefused_overflow (hk : kind = 5) (hroom : overflowUsed s < 8) : amendRefused s p set kind slot = none := by
  simp [amendRefused, hk, h, hplace, hst, Config.overflow, Nat.not_le.2 hroom]
theorem amendRefused_overflowFull (hk : kind = 5) (hfull : 8 ≤ overflowUsed s) : amendRefused s p set kind slot = some (oFULL, 3) := by
  simp [amendRefused, hk, h, hplace, hst, Config.overflow, hfull]
end

/-- The fields of a record that PLATE_AMEND writes without a place. -/
def amendedFields (p : Plate) (q : Line) : Plate :=
  { p with
    heatLen := if bit (par q 2 1) 0 then par q 5 1 else p.heatLen
    heat := if bit (par q 2 1) 0 then BitVec.ofNat 96 (par q 0x14 12) else p.heat
    grade := if bit (par q 2 1) 1 then BitVec.ofNat 64 (par q 0xC 8) else p.grade
    mass := if bit (par q 2 1) 2 then par q 8 4 else p.mass
    suspect := !bit (par q 2 1) 2 && p.suspect }
theorem amended_fields {p : Plate} (h : bit (par q 2 1) 3 = false) : amended s p q = amendedFields p q := by
  simp only [amended, amendedFields, h]
  cases bit (par q 2 1) 0 <;> cases bit (par q 2 1) 1 <;> cases bit (par q 2 1) 2 <;> rfl
theorem amended_place {p : Plate} (h : bit (par q 2 1) 3 = true) : amended s p q =
    { amendedFields p q with st := .stock, loc := match amendPlace (par q 3 1) (par q 4 1) with
        | .infeed _ => .infeed (locatedInfeed s + 1)
        | l => l } := by
  simp only [amended, amendedFields, h]
  cases bit (par q 2 1) 0 <;> cases bit (par q 2 1) 1 <;> cases bit (par q 2 1) 2 <;> rfl

/-! ## PLATE_RETIRE (R20) -/

section
variable {i : Nat}

/-- A piece of the infeed with another on it. -/
def Buried (s : State) (p : Plate) : Prop := p.st ≠ .lost ∧ ∃ n, p.loc = .infeed n ∧ n < locatedInfeed s
theorem plateRetire_extra (hz : parZeroBut q [(0, 2)] = false) : plateRetire s q = deny s oPARAM 0 0 := by simp [plateRetire, hz]

variable (hz : parZeroBut q [(0, 2)] = true)
include hz

theorem plateRetire_unknown (h : findPlate s (par q 0 2) = none) : plateRetire s q = deny s oNOT_FOUND 0 0 := by
  simp [plateRetire, hz, h]

variable (h : findPlate s (par q 0 2) = some i)
include h

theorem plateRetire_claimed (hc : (plateAt s i).claim ≠ .none) : plateRetire s q = deny s oSTATE 1 0 := by
  simp [plateRetire, hz, h, hc]

variable (hc : (plateAt s i).claim = .none)
include hc

theorem plateRetire_lifted (hst : (plateAt s i).st ≠ .lost) (hloc : (plateAt s i).loc = .crane) :
    plateRetire s q = deny s oSTATE 2 0 := by
  simp [plateRetire, hz, h, hc, hst, hloc]
theorem plateRetire_buried (hb : Buried s (plateAt s i)) : plateRetire s q = deny s oSTATE 3 0 := by
  obtain ⟨hst, n, hloc, hn⟩ := hb
  simp [plateRetire, hz, h, hc, hst, hloc, hn]
/-- A record that may be freed but for the moves that name it. -/
theorem plateRetire_free (hcrane : (plateAt s i).st = .lost ∨ (plateAt s i).loc ≠ .crane) (hb : ¬Buried s (plateAt s i)) :
    plateRetire s q = if namedByCrane s i then deny s oSTATE 4 0
      else give (tellWaiters (setPlate s i .blank) i) oDONE i 0 0 (stockWaits i) := by
  have hlift : ((plateAt s i).st != .lost && (plateAt s i).loc == .crane) = false := by
    rcases hcrane with h | h <;> simp [h]
  cases hloc : (plateAt s i).loc with
  | infeed n =>
    have hn : ((plateAt s i).st != .lost && decide (n < locatedInfeed s)) = false := by
      rw [Bool.eq_false_iff]
      intro ht
      obtain ⟨hst, hn⟩ : (plateAt s i).st ≠ .lost ∧ n < locatedInfeed s := by simpa using ht
      exact hb ⟨hst, n, hloc, hn⟩
    rw [hloc] at hlift
    simp only [plateRetire, hz, h, hc, hloc, hlift, hn]
    rfl
  | _ =>
    rw [hloc] at hlift
    simp only [plateRetire, hz, h, hc, hloc, hlift]
    rfl
end

/-! ## REMNANT_FIND (R21) -/

/-- The order in which candidates are preferred: the smaller product of length and width, of equal ones the lower plate ID. -/
def Prefers (p r : Plate) : Prop := p.length * p.width < r.length * r.width ∨ (p.length * p.width = r.length * r.width ∧ p.id ≤ r.id)
theorem Prefers.refl (p : Plate) : Prefers p p := .inr ⟨rfl, Nat.le_refl _⟩
theorem Prefers.trans {p r t : Plate} (h : Prefers p r) (g : Prefers r t) : Prefers p t := by
  unfold Prefers at *
  omega
theorem better_prefers (a b : Nat × Plate) : (better a b = a ∨ better a b = b) ∧ Prefers (better a b).2 a.2 ∧ Prefers (better a b).2 b.2 := by
  unfold better
  dsimp only
  split
  case isTrue h =>
    simp only [Bool.or_eq_true, Bool.and_eq_true, decide_eq_true_eq, beq_iff_eq] at h
    exact ⟨.inr rfl, by unfold Prefers; omega, .refl _⟩
  case isFalse h =>
    simp only [Bool.or_eq_true, Bool.and_eq_true, decide_eq_true_eq, beq_iff_eq] at h
    exact ⟨.inl rfl, .refl _, by unfold Prefers; omega⟩
theorem foldl_better (l : List (Nat × Plate)) (c : Nat × Plate) :
    l.foldl better c ∈ c :: l ∧ ∀ x ∈ c :: l, Prefers (l.foldl better c).2 x.2 := by
  induction l generalizing c with
  | nil => exact ⟨List.mem_singleton_self c, by simp [Prefers.refl]⟩
  | cons d l ih =>
    obtain ⟨hmem, hmin⟩ := ih (better c d)
    obtain ⟨hor, hc, hd⟩ := better_prefers c d
    rw [List.foldl_cons]
    refine ⟨?_, fun x hx => ?_⟩
    · rcases List.mem_cons.1 hmem with h | h
      · rw [h]
        rcases hor with h' | h' <;> simp [h']
      · simp [h]
    · have hbest := hmin (better c d) (List.mem_cons_self ..)
      rcases List.mem_cons.1 hx with rfl | hx
      · exact hbest.trans hc
      · rcases List.mem_cons.1 hx with rfl | hx
        · exact hbest.trans hd
        · exact hmin x (List.mem_cons_of_mem _ hx)

/-- The records that REMNANT_FIND may take, with their indices. -/
theorem mem_candidates {thick len wid : Nat} {grade : BitVec 64} {i : Nat} {p : Plate} :
    (i, p) ∈ (s.stock.table.zipIdx.filter (fun p => findCandidate p.1 thick len wid grade)).map (fun p => (p.2, p.1)) ↔
      s.stock.table[i]? = some p ∧ findCandidate p thick len wid grade = true := by
  simp only [List.mem_map, List.mem_filter, Prod.mk.injEq, Prod.exists]
  constructor
  · rintro ⟨a, b, ⟨hmem, hcand⟩, rfl, rfl⟩
    exact ⟨by simpa [List.mem_zipIdx_iff_getElem?] using hmem, hcand⟩
  · rintro ⟨hat, hcand⟩
    exact ⟨p, i, ⟨by simpa [List.mem_zipIdx_iff_getElem?] using hat, hcand⟩, rfl, rfl⟩
theorem bestCandidate_none {thick len wid : Nat} {grade : BitVec 64}
    (h : ∀ (i : Nat) (p : Plate), ¬(s.stock.table[i]? = some p ∧ findCandidate p thick len wid grade = true)) :
    bestCandidate s thick len wid grade = none := by
  unfold bestCandidate
  split
  · rfl
  case h_2 c cs hl => exact absurd (mem_candidates.1 (hl ▸ List.mem_cons_self ..)) (h c.1 c.2)
theorem bestCandidate_some {thick len wid : Nat} {grade : BitVec 64} {j : Nat} {r : Plate}
    (h : s.stock.table[j]? = some r ∧ findCandidate r thick len wid grade = true) :
    ∃ (i : Nat) (p : Plate), bestCandidate s thick len wid grade = some (i, p) ∧
      (s.stock.table[i]? = some p ∧ findCandidate p thick len wid grade = true) ∧
      ∀ (j : Nat) (r : Plate), s.stock.table[j]? = some r ∧ findCandidate r thick len wid grade = true → Prefers p r := by
  unfold bestCandidate
  split
  case h_1 hnil =>
    have hmem := mem_candidates.2 h
    rw [hnil] at hmem
    exact absurd hmem List.not_mem_nil
  case h_2 c cs hl =>
    obtain ⟨hmem, hmin⟩ := foldl_better cs c
    refine ⟨(cs.foldl better c).1, (cs.foldl better c).2, rfl, mem_candidates.1 (hl ▸ hmem), fun j r hr => ?_⟩
    exact hmin (j, r) (hl ▸ mem_candidates.2 hr)

theorem remnantFind_invalid {k : Nat} (h : firstInvalid (findParams q) = some k) : remnantFind s q = deny s oPARAM k 0 := by
  simp only [findParams, Bool.decide_and] at h
  simp only [remnantFind, firstBad_eq, inRange, h]
theorem remnantFind_none (hok : firstInvalid (findParams q) = none)
    (h : bestCandidate s (par q 0 2) (par q 2 2) (par q 4 2) (BitVec.ofNat 64 (par q 8 8)) = none) :
    remnantFind s q = deny s oNOT_FOUND 0 0 := by
  simp only [findParams, Bool.decide_and] at hok
  simp only [remnantFind, firstBad_eq, inRange, hok, h]
/-- The record found, held under the next token. -/
def heldPlate (s : State) (i : Nat) (p : Plate) : State :=
  setPlate s i { p with claim := .hold s.stock.tokenCtr (s.clock + holdMs s) }
theorem remnantFind_done {i : Nat} {p : Plate} (hok : firstInvalid (findParams q) = none)
    (h : bestCandidate s (par q 0 2) (par q 2 2) (par q 4 2) (BitVec.ofNat 64 (par q 8 8)) = some (i, p)) :
    remnantFind s q = give (setStock (heldPlate s i p) { (heldPlate s i p).stock with tokenCtr := nextToken s.stock.tokenCtr }) oDONE p.id
      s.stock.tokenCtr.toNat (s.clock + holdMs s).toNat (stockWaits i) := by
  simp only [findParams, Bool.decide_and] at hok
  simp only [remnantFind, firstBad_eq, inRange, hok, h, heldPlate]

end Sys2Proof.Machine

namespace Sys2Proof.Proofs
open Sys2Proof.Machine

/-- Settles O26: PLATE_REGISTER by its parameters, the ID index, the lowest EMPTY record and the infeed. -/
theorem plateRegister : Obligations.PlateRegister := by
  unfold Obligations.PlateRegister
  refine ⟨fun s q k hdue h => ?_, fun s q i hdue hz h1 h2 h3 h4 h5 h6 h7 h8 h9 h10 h11 h12 => ?_⟩
  · rw [exec_plateRegister hdue, plateRegister_invalid h]
  have hok : firstInvalid (registerParams q) = none := by
    simp [firstInvalid, registerParams, hz, h1, h2, h3, h4, h5, h6, h7, h8, h9, h10, h11, h12]
  rw [exec_plateRegister hdue]
  refine ⟨fun h hres hempty hroom hl => ?_, fun j h => ?_, fun e h hres => ?_, fun h hres hempty => ?_, fun h hres hempty hfull => ?_,
    fun h hres hempty hroom hl => ?_⟩
  · rw [plateRegister_done (s := slotRead s) hok h hres hempty hroom hl]
    exact ⟨_, registered (slotRead s) q, rfl, by simp [slotRead], rfl, rfl, rfl, rfl, rfl, rfl, rfl, rfl, rfl, rfl, rfl, rfl, rfl, rfl, rfl,
      gives_give .., queued_setPlate_self ..⟩
  · rw [plateRegister_known (s := slotRead s) hok h]
  · rw [plateRegister_reserved (s := slotRead s) hok h hres]
  · rw [plateRegister_tableFull (s := slotRead s) hok h hres hempty]
  · rw [plateRegister_infeedFull (s := slotRead s) hok h hres hempty hfull]
  · rw [plateRegister_lifting (s := slotRead s) hok h hres hempty hroom hl]

/-- Settles O27: PLATE_AMEND by the record's claim, then by what is selected and the place named. -/
theorem plateAmend : Obligations.PlateAmend := by
  unfold Obligations.PlateAmend
  refine ⟨fun s q k hdue h => ?_, fun s q hdue hz hvalid => ?_⟩
  · rw [exec_plateAmend hdue, plateAmend_invalid (s := slotRead s) h]
  have hok : firstInvalid (amendParams (slotRead s) q) = none := amendParams_valid hz hvalid
  have hrefused : ∀ (i d : Nat) (o : Byte), findPlate s (par q 0 2) = some i →
      amendRefused (slotRead s) (plateAt s i) (par q 2 1) (par q 3 1) (par q 4 1) = some (o, d) →
      exec (.plateAmend q) s = .next (settle s (deny (slotRead s) o d 0)) := fun i d o h hr => by
    rw [exec_plateAmend hdue, plateAmend_refused hok h hr]
  have hwrites : ∀ (i : Nat) (p : Plate), findPlate s (par q 0 2) = some i →
      amendRefused (slotRead s) (plateAt s i) (par q 2 1) (par q 3 1) (par q 4 1) = none →
      amended (slotRead s) (plateAt s i) q = p →
      ∃ u, exec (.plateAmend q) s = .next (settle s u) ∧ u.stock.table = s.stock.table.set i p ∧ gives u oDONE i 0 0 ∧
        queued u (.writeBack (.plate i)) = true := fun i p h hr hp => by
    rw [exec_plateAmend hdue, plateAmend_done hok h hr]
    refine ⟨_, rfl, ?_, gives_give .., queued_setPlate_self ..⟩
    rw [plateAt_slotRead, hp]
    simp [slotRead]
  refine ⟨fun h => ?_, fun i h => ⟨fun hc => hrefused i _ _ h (amendRefused_held hc), fun b hc => ⟨fun hset => ?_, fun hset => ?_⟩,
    fun hc hplace => ?_, fun hc hplace => ⟨fun hst => ?_, fun hst hkind => ⟨fun hl => ?_, fun hl hfull => ?_, fun hl hroom => ?_⟩,
      fun hst hkind => ⟨fun hfit => ?_, fun hfit hfree => ?_, fun hfit hfree => ?_⟩, fun hst hkind => ⟨fun hfull => ?_, fun hroom => ?_⟩⟩⟩⟩
  · rw [exec_plateAmend hdue, plateAmend_unknown (s := slotRead s) hok h]
  · exact hrefused i _ _ h (amendRefused_burning hc hset)
  · refine hwrites i _ h ?_ (amended_fields (by rw [hset]; rfl))
    rw [hset]
    exact amendRefused_heatOnly hc
  · exact hwrites i _ h (amendRefused_fields hc hplace) (amended_fields hplace)
  · exact hrefused i _ _ h (amendRefused_notLost hc hplace hst)
  · exact hrefused i _ _ h (amendRefused_lifting (s := slotRead s) hc hplace hst hkind hl)
  · exact hrefused i _ _ h (amendRefused_infeedFull (s := slotRead s) hc hplace hst hkind hl hfull)
  · exact hwrites i _ h (amendRefused_infeed (s := slotRead s) hc hplace hst hkind hl hroom) (by rw [amended_place hplace, hkind]; rfl)
  · exact hrefused i _ _ h (amendRefused_noFit (s := slotRead s) hc hplace hst hkind hfit)
  · exact hrefused i _ _ h (amendRefused_slotTaken (s := slotRead s) hc hplace hst hkind hfit hfree)
  · exact hwrites i _ h (amendRefused_rack (s := slotRead s) hc hplace hst hkind hfit hfree) (by rw [amended_place hplace, hkind]; rfl)
  · exact hrefused i _ _ h (amendRefused_overflowFull (s := slotRead s) hc hplace hst hkind hfull)
  · exact hwrites i _ h (amendRefused_overflow (s := slotRead s) hc hplace hst hkind hroom) (by rw [amended_place hplace, hkind]; rfl)

/-- Settles O28: PLATE_RETIRE by the record's claim and place and the moves that name it. -/
theorem plateRetire : Obligations.PlateRetire := by
  unfold Obligations.PlateRetire
  refine ⟨fun s q hdue hz => ?_, fun s q hdue hz => ?_⟩
  · rw [exec_plateRetire hdue, plateRetire_extra hz]
  rw [exec_plateRetire hdue]
  refine ⟨fun h => ?_, fun i h => ⟨fun hc => ?_, fun hc hst hloc => ?_, fun hc hb => ?_, fun hc hcrane hb hn => ?_, fun hc hcrane hb hn => ?_⟩⟩
  · rw [plateRetire_unknown (s := slotRead s) hz h]
  · rw [plateRetire_claimed (s := slotRead s) hz h hc]
  · rw [plateRetire_lifted (s := slotRead s) hz h hc hst hloc]
  · rw [plateRetire_buried (s := slotRead s) hz h hc hb]
  · rw [plateRetire_free (s := slotRead s) hz h hc hcrane hb]
    exact congrArg (fun u => Host.Outcome.next (settle s u)) (if_pos hn)
  · rw [plateRetire_free (s := slotRead s) hz h hc hcrane hb]
    have hfree : ¬namedByCrane (slotRead s) i = true := by
      rw [Bool.not_eq_true]
      exact hn
    rw [if_neg hfree]
    exact ⟨_, rfl, by simp [tellWaiters, slotRead], gives_give .., queued_setPlate_self ..⟩

/-- Settles O29: REMNANT_FIND holds the candidate preferred to every other. -/
theorem remnantFind : Obligations.RemnantFind := by
  unfold Obligations.RemnantFind
  refine ⟨fun s q k hdue h => ?_, fun s q hdue hz h1 h2 h3 h4 h5 h6 h7 => ?_⟩
  · rw [exec_remnantFind hdue, remnantFind_invalid h]
  have hok : firstInvalid (findParams q) = none := by
    simp [firstInvalid, findParams, hz, h1, h2, h3, h4, h5, h6, h7]
  rw [exec_remnantFind hdue]
  refine ⟨fun ⟨j, r, hcand⟩ => ?_, fun hnone => ?_⟩
  · obtain ⟨i, p, hbest, hp, hmin⟩ := bestCandidate_some hcand
    rw [remnantFind_done (s := slotRead s) hok hbest]
    exact ⟨i, p, _, hp, hmin, rfl, by simp [heldPlate, slotRead]; rfl, by simp [nextToken, slotRead], gives_give ..⟩
  · rw [remnantFind_none (s := slotRead s) hok (bestCandidate_none hnone)]

end Sys2Proof.Proofs
end

/-! # Commands of the crane: CRANE_CANCEL and CRANE_RECOVER (R33, R133, R148 to R150, R152, R153) -/

section
namespace Sys2Proof.Machine

variable {s : State} {slot : Line}

/-! ## The return of a host order (R133, R136) -/

section
variable {o : StockOrder} {i n m : Nat} {l : Loc} {k : Bool} (h : s.crane.stock.find? (·.idx == i) = some o)
include h

theorem returnHost_crane : (returnHost s i n l m k).crane = { s.crane with
    stock := s.crane.stock.map (fun o => if o.idx == i then { o with stage := .returning } else o)
    cancelled := if n = cCANCELLED then s.crane.cancelled + 1 else s.crane.cancelled } := by
  unfold returnHost
  simp only [h]
  have hne : cCANCELLED ≠ cABORTED_HALT ∧ cABORTED_HALT ≠ cCANCELLED := by decide
  by_cases hn : n = cCANCELLED
  · cases k <;> simp [hn, hne, setOrder]
  · by_cases hn' : n = cABORTED_HALT <;> cases k <;> simp [hn, hn', hne, setOrder]
theorem returnHost_stock : (returnHost s i n l m k).stock = if k then
    (releaseClaim (releaseRes s (.host i)) ⟨o.ix, crPlate o.order, .lift i⟩).stock else s.stock := by
  unfold returnHost
  simp only [h]
  cases k <;> (split <;> split <;> simp)
theorem returnHost_queue : ∃ r, (returnHost s i n l m k).engine.queue = s.engine.queue ++ [r] ∧ r.what = .craneReturn i ∧
    r.addr = o.addr ∧ r.data = lineOf (put 0 4 RETURNED + put 0x14 1 n + put 0x15 1 l.num.1 + put 0x16 1 l.num.2 + put 0x18 4 m) := by
  refine ⟨⟨s.engine.nextTicket, .craneReturn i, o.addr, lineOf (put 0 4 RETURNED + put 0x14 1 n + put 0x15 1 l.num.1 +
    put 0x16 1 l.num.2 + put 0x18 4 m), enable 0 4 ||| enable 0x14 12, false⟩, ?_, rfl, rfl, rfl⟩
  unfold returnHost
  simp only [h]
  cases k <;> (split <;> split <;> simp)
end
/-- Outcome, final location and mass of a return (Table 12-9). -/
theorem craneLine_fields (n x y m : Nat) (hn : n < 256) (hx : x < 256) :
    let line := lineOf (put 0 4 RETURNED + put 0x14 1 n + put 0x15 1 x + put 0x16 1 y + put 0x18 4 m)
    fld line.toNat 0x14 1 = n ∧ fld line.toNat 0x15 1 = x ∧ fld line.toNat 0x16 1 = y % 256 ∧ fld line.toNat 0x18 4 = m % 2 ^ 32 := by
  simp only [lineOf, fld, put, BitVec.toNat_ofNat, Nat.shiftLeft_eq, Nat.shiftRight_eq_div_pow, RETURNED]
  refine ⟨?_, ?_, ?_, ?_⟩ <;> omega
theorem Loc.num_kind_lt (l : Loc) : l.num.1 < 256 := by
  cases l <;> simp [Loc.num]
theorem craneReturned_returnHost {o : StockOrder} {n m : Nat} {l : Loc} {k : Bool}
    (h : s.crane.stock.find? (·.idx == o.idx) = some o) (hn : n < 256) : craneReturned (returnHost s o.idx n l m k) o n l m := by
  obtain ⟨r, hq, hwhat, haddr, hdata⟩ := returnHost_queue (n := n) (m := m) (l := l) (k := k) h
  obtain ⟨h1, h2, h3, h4⟩ := craneLine_fields n l.num.1 l.num.2 m hn l.num_kind_lt
  simp [craneReturned, hq, hwhat, haddr, hdata, h1, h2, h3, h4]

/-! ## CRANE_CANCEL by the order named (R148 to R150) -/

theorem craneCancel_param (h : parZeroBut slot [(0, 2)] = false ∨ (par slot 0 2 ≠ 0xFFFF ∧ param s (·.craneCount) 0 ≤ par slot 0 2)) :
    craneCancel s slot = deny s oPARAM 0 0 := by
  unfold craneCancel
  dsimp only
  split
  · rfl
  case isFalse hz =>
    have hbeyond := h.resolve_left (by simpa using hz)
    rw [if_pos (by simpa using hbeyond)]

section
variable (hz : parZeroBut slot [(0, 2)] = true)
include hz

theorem craneCancel_noOrder (hne : par slot 0 2 ≠ 0xFFFF) (hlt : par slot 0 2 < param s (·.craneCount) 0)
    (h : ∀ o ∈ s.crane.stock, o.idx ≠ par slot 0 2) : craneCancel s slot = deny s oNOT_FOUND 0 0 := by
  have hnone : s.crane.stock.find? (·.idx == par slot 0 2) = none := List.find?_eq_none.2 fun o ho => by simpa using h o ho
  simp [craneCancel, hz, hne, hlt, hnone]
theorem craneCancel_noMove (heq : par slot 0 2 = 0xFFFF) (h : s.crane.state = .faulted ∨ s.crane.move = none) :
    craneCancel s slot = deny s oNOT_FOUND 0 0 := by
  rcases h with h | h <;> simp [craneCancel, hz, heq, h]
theorem craneCancel_bedMove {m : Move} {b : BedId} {k : ReqKind} {id : Nat} (heq : par slot 0 2 = 0xFFFF) (hst : s.crane.state ≠ .faulted)
    (hm : s.crane.move = some m) (hreq : m.req = .bed b k id) : craneCancel s slot = deny s oSTATE 1 0 := by
  simp [craneCancel, hz, heq, hst, hm, hreq]
theorem craneCancel_named {o : StockOrder} (hfind : s.crane.stock.find? (·.idx == o.idx) = some o)
    (h : (par slot 0 2 = o.idx ∧ o.idx ≠ 0xFFFF ∧ o.idx < param s (·.craneCount) 0) ∨
      (par slot 0 2 = 0xFFFF ∧ s.crane.state ≠ .faulted ∧ ∃ m, s.crane.move = some m ∧ m.req = .host o.idx)) :
    craneCancel s slot = cancelOrder s o := by
  rcases h with ⟨heq, hne, hlt⟩ | ⟨heq, hst, m, hm, hreq⟩
  · simp [craneCancel, hz, heq, hne, hlt, hfind]
  · simp [craneCancel, hz, heq, hst, hm, hreq, hfind]
end

section
variable {o : StockOrder} {m : Move}

theorem cancelOrder_waiting (h : o.stage = .queued ∨ o.stage = .reading) : ∃ l k, (o.stage = .reading → k = false) ∧
    (o.stage = .queued → k = true) ∧
    cancelOrder s o = give (returnHost s o.idx cCANCELLED l 0 k) oDONE 1 0 0 [.craneReturn o.idx, .writeBack .crane] := by
  unfold cancelOrder
  rcases h with h | h
  · exact ⟨orderLoc s o, true, by simp [h], fun _ => rfl, by simp only [h]⟩
  · exact ⟨.none, false, fun _ => rfl, by simp [h], by simp only [h]⟩
theorem cancelOrder_failed (h : o.stage = .failed) : cancelOrder s o = deny s oSTATE 3 0 := by simp only [cancelOrder, h]
theorem cancelOrder_returning (h : o.stage = .returning) : cancelOrder s o = deny s oTOO_LATE 0 0 := by simp only [cancelOrder, h]
theorem cancelOrder_inFlight (h : o.stage = .inFlight) (hm : s.crane.move = some m) : cancelOrder s o = cancelFlight s o m := by
  simp only [cancelOrder, h, hm]
theorem cancelFlight_again (h : m.abort = true) : cancelFlight s o m = deny s oSTATE 2 0 := by simp [cancelFlight, h]
theorem cancelFlight_early (h : m.abort = false) (hst : s.crane.state = .dispatched ∨ s.crane.state = .lifting) :
    cancelFlight s o m = give (setMove (sendCrane s (.craneAbort m.id)) { m with abort := true }) oDONE 2 0 0 [.writeBack .crane] := by
  rcases hst with hst | hst <;> simp [cancelFlight, h, hst]
theorem cancelFlight_noPlace (h : m.abort = false) (hst : s.crane.state = .travelling) (ha : available s m.src = false) :
    cancelFlight s o m = deny s oTOO_LATE 0 0 := by
  simp [cancelFlight, h, hst, ha]
theorem cancelFlight_turns (h : m.abort = false) (hst : s.crane.state = .travelling) (ha : available s m.src = true) :
    cancelFlight s o m = give (craneTo (sendCrane (setMove (reserve (releaseRes s m.req) (.host o.idx) m.plate m.src)
      { m with abort := true, turned := true }) (.craneAbort m.id)) .returning) oDONE 3 0 0 [.writeBack .crane] := by
  simp [cancelFlight, h, hst, ha]
theorem cancelFlight_late (h : m.abort = false) (hst : s.crane.state = .setting ∨ s.crane.state = .returning) :
    cancelFlight s o m = deny s oTOO_LATE 0 0 := by
  rcases hst with hst | hst <;> simp [cancelFlight, h, hst]
end

end Sys2Proof.Machine

namespace Sys2Proof.Proofs
open Sys2Proof.Machine

/-- Settles O24: the order that CRANE_CANCEL names, then that order by its stage. -/
theorem craneCancel : Obligations.CraneCancel := by
  unfold Obligations.CraneCancel
  refine ⟨fun s slot tgt hdue hturned => ?_, fun s slot hdue hz => ⟨fun hne hlt h => ?_, fun heq h => ?_, fun m b k id heq hst hm hreq => ?_⟩,
    fun s slot o hdue hz hnamed hfind => ?_⟩
  · by_cases ht : tgt = 0xFF
    · subst ht
      rw [exec_craneCancel hdue, craneCancel_param (s := slotRead s) (hturned.resolve_left fun h => h rfl)]
    · exact (commandRow_due hdue).trans (by rw [untargeted_target hdue ht])
  · rw [exec_craneCancel hdue, craneCancel_noOrder (s := slotRead s) hz hne hlt h]
  · rw [exec_craneCancel hdue, craneCancel_noMove (s := slotRead s) hz heq h]
  · rw [exec_craneCancel hdue, craneCancel_bedMove (s := slotRead s) hz heq hst hm hreq]
  rw [exec_craneCancel hdue, craneCancel_named (s := slotRead s) hz hfind hnamed]
  have hreturned : ∀ (l : Loc) (k : Bool) (o' : StockOrder), o' ∈ (returnHost (slotRead s) o.idx cCANCELLED l 0 k).crane.stock →
      o'.idx = o.idx → o'.stage = .returning := fun l k o' ho hi => (mem_returnHost ho).resolve_right fun h => h.2 hi
  refine ⟨fun hst => ?_, fun hst => ?_, fun hst => ?_, fun hst => ?_, fun m hst hm => ?_⟩
  · obtain ⟨l, k, -, hk, heq⟩ := cancelOrder_waiting (s := slotRead s) (.inl hst)
    rw [heq, hk hst]
    refine ⟨_, rfl, gives_give .., ?_, hreturned l true, fun r hr => ?_⟩
    · simp [returnHost_crane (s := slotRead s) hfind]
    · rw [(give_frame ..).2.2.2.2.2.2.2.1, returnHost_stock (s := slotRead s) hfind] at hr
      simp [releaseClaim, releaseRes] at hr
      exact hr.2
  · obtain ⟨l, k, hk, -, heq⟩ := cancelOrder_waiting (s := slotRead s) (.inr hst)
    rw [heq, hk hst]
    refine ⟨_, rfl, gives_give .., ?_, ?_, hreturned l false⟩
    · simp [returnHost_crane (s := slotRead s) hfind]
    · simp [returnHost_stock (s := slotRead s) hfind]
  · rw [cancelOrder_failed hst]
  · rw [cancelOrder_returning hst]
  · rw [cancelOrder_inFlight (s := slotRead s) hst hm]
    refine ⟨fun h => ?_, fun h hp => ?_, fun h hp ha => ?_, fun h hp ha => ?_, fun h hp => ?_⟩
    · rw [cancelFlight_again h]
    · rw [cancelFlight_early (s := slotRead s) h hp]
      refine ⟨_, rfl, gives_give .., by simp [setMove], by simp [setMove, slotRead], fun hl => ?_⟩
      simp [sendCrane, hl, emit, setMove]
    · rw [cancelFlight_noPlace (s := slotRead s) h hp ha]
    · rw [cancelFlight_turns (s := slotRead s) h hp ha]
      exact ⟨_, rfl, gives_give .., by simp [craneTo], by simp [craneTo, setMove]⟩
    · rw [cancelFlight_late (s := slotRead s) h hp]

end Sys2Proof.Proofs
end

/-! # CRANE_RECOVER (R33, R133, R152, R153) -/

section
namespace Sys2Proof.Machine

variable {s t : State} {slot : Line} {m : Move}

/-! ## The checks in their order (R152) -/

theorem exec_recoverRow_due (hdue : commandDue s 0x31 0xFF) :
    ∃ f, exec (recoverRow slot) s = .next (settle s (craneRecover (slotRead s) slot f)) := by
  obtain ⟨f, hf⟩ := exec_recoverRow (slot := slot) s
  exact ⟨f, by rw [hf, commandRow_due hdue, untargeted_due hdue]⟩
theorem craneRecover_refused {f : State → Move → State} {o : Byte} {d : Nat} (h : recoverRefused s slot = some (o, d)) :
    craneRecover s slot f = deny s o d 0 := by
  simp only [craneRecover, h]
theorem craneRecover_move {f : State → Move → State} (h : recoverRefused s slot = none) (hm : s.crane.move = some m) :
    craneRecover s slot f = f s m := by
  simp only [craneRecover, h, hm]
theorem craneRecover_noMove {f : State → Move → State} (h : recoverRefused s slot = none) (hm : s.crane.move = none) :
    craneRecover s slot f = recovered s [] := by
  simp only [craneRecover, h, hm]

theorem recoverRefused_param (h : 3 < par slot 0 1 ∨ parZeroBut slot [(0, 1)] = false) : recoverRefused s slot = some (oPARAM, 0) := by
  rcases h with h | h <;> simp [recoverRefused, h]

section
variable (hz : parZeroBut slot [(0, 1)] = true) (hle : par slot 0 1 ≤ 3)
include hz hle

theorem recoverRefused_running (h : s.crane.state ≠ .faulted) : recoverRefused s slot = some (oSTATE, 1) := by
  simp [recoverRefused, hz, Nat.not_lt.2 hle, h]

variable (hst : s.crane.state = .faulted)
include hst

theorem recoverRefused_down (hl : s.crane.lk.live = false) : recoverRefused s slot = some (oSTATE, 2) := by
  simp [recoverRefused, hz, Nat.not_lt.2 hle, hst, hl]

variable (hl : s.crane.lk.live = true)
include hl

theorem recoverRefused_loaded (h : s.crane.lk.load = .present) : recoverRefused s slot = some (oSTATE, 3) := by
  simp [recoverRefused, hz, Nat.not_lt.2 hle, hst, hl, h]

variable (hload : s.crane.lk.load ≠ .present)
include hload

theorem recoverRefused_outcome (h : s.crane.move.isSome ≠ (par slot 0 1 != 0)) : recoverRefused s slot = some (oPARAM, 0) := by
  simp [recoverRefused, hz, Nat.not_lt.2 hle, hst, hl, hload, h]
omit hle in
theorem recoverRefused_noMove (hm : s.crane.move = none) (h0 : par slot 0 1 = 0) : recoverRefused s slot = none := by
  simp [recoverRefused, hz, hst, hl, hload, hm, h0]
omit hle in
theorem recoverRefused_lost (hm : s.crane.move = some m) (h : par slot 0 1 = 1 ∨ par slot 0 1 = 2) (hh : holds s m.ix m.plate = true)
    (hlost : (plateAt s m.ix).st = .lost) : recoverRefused s slot = some (oSTATE, 4) := by
  rcases h with h | h <;> simp [recoverRefused, hz, hst, hl, hload, hm, h, hh, hlost]
theorem recoverRefused_move (hm : s.crane.move = some m) (h0 : par slot 0 1 ≠ 0)
    (hlost : par slot 0 1 = 3 ∨ (plateAt s m.ix).st ≠ .lost) : recoverRefused s slot = none := by
  have h0' : (par slot 0 1 != 0) = true := by simpa using h0
  rcases hlost with h | h
  · simp [recoverRefused, hz, hst, hl, hload, hm, h]
  · simp [recoverRefused, hz, Nat.not_lt.2 hle, hst, hl, hload, hm, h0', h]
end

/-! ## The plate table, which the reports and the ends of requests leave alone -/

theorem plateAt_of_table (h : t.stock.table = s.stock.table) (i : Nat) : plateAt t i = plateAt s i := by rw [plateAt, h, plateAt]
theorem holds_of_table (h : t.stock.table = s.stock.table) (i id : Nat) : holds t i id = holds s i id := by
  rw [holds, holds, plateAt_of_table h]
theorem whereIs_of_table (h : t.stock.table = s.stock.table) : whereIs t m = whereIs s m := by
  rw [whereIs, whereIs, plateAt_of_table h, holds_of_table h]
theorem returnOrder_table {b : BedId} {o : Outcome} {c : Nat} {p : Option (Nat × Nat)} {k : Bool} :
    (returnOrder s b o c p k).stock.table = s.stock.table := by
  cases e : (runOf s b).hand with
  | none => rw [returnOrder_none _ _ _ _ _ _ e]
  | some hand =>
    obtain ⟨l, hl⟩ := returnOrder_stock (s := s) o c p k e
    rw [hl, giveUp_stock]
    exact dropUnposted_table.1
theorem endRes_table : (endRes s m).stock.table = s.stock.table := by
  unfold endRes
  split <;> rfl
theorem endHost_table {o n : Nat} {l : Loc} : (endHost s m o l n).stock.table = s.stock.table := by
  unfold endHost
  split
  · split
    · exact returnHost_kept.2.1
    · rfl
  · rfl
theorem reportBack_table {k : Bool} : (reportBack s m k).stock.table = s.stock.table := by
  unfold reportBack
  split
  · rfl
  · dsimp only
    split
    · exact endRes_table
    · split
      · rw [endRes_table]
        simp
      · split
        · split
          · rw [rejectOrder]
            simp [returnOrder_table]
          · simp
        · simp [postRequest]
theorem reportDone_table : (reportDone s m).stock.table = s.stock.table := by
  unfold reportDone
  split
  · split <;> simp
  · rfl
theorem reportLost_table : (reportLost s m).stock.table = s.stock.table := by
  unfold reportLost
  split
  · rfl
  · dsimp only
    split
    · rfl
    · split <;> simp [returnOrder_table]

/-! ## FAULTED ends (R152, R153) -/

theorem recovered_kept (s : State) (zones : List BedId) :
    (recovered s zones).crane.state = .idle ∧ (recovered s zones).crane.move = none ∧ (recovered s zones).crane.refusals = 0 ∧
      (recovered s zones).crane.stock = s.crane.stock ∧ (recovered s zones).stock = s.stock ∧
      (recovered s zones).engine = s.engine ∧ gives (recovered s zones) oDONE 0 0 0 := by
  simp [recovered, gives_give]
/-- The host order of the failed move is returned FAULT_ABORT (R133, R153). -/
theorem returnsHeld_recovered {o : StockOrder} {l : Loc} {n : Nat} (hstock : s.crane.stock = [o]) (hreq : m.req = .host o.idx)
    (hlive : m.live = true) (zones : List BedId) : returnsHeld (recovered (endHost s m cFAULT_ABORT l n) zones) o l n := by
  have hfind : s.crane.stock.find? (·.idx == o.idx) = some o := by simp [hstock]
  obtain ⟨-, -, -, hcrane, -, hengine, -⟩ := recovered_kept (endHost s m cFAULT_ABORT l n) zones
  have hend : endHost s m cFAULT_ABORT l n = returnHost s o.idx cFAULT_ABORT l n true := by simp [endHost, hreq, hlive]
  refine ⟨?_, ?_⟩
  · rw [hcrane, hend, returnHost_crane hfind]
    simp [hstock]
  · rw [craneReturned, hengine, hend]
    exact craneReturned_returnHost hfind (by decide)
theorem report_host {i : Nat} (h : m.req = .host i) (k : Bool) : reportBack s m k = s ∧ reportDone s m = s ∧ reportLost s m = s := by
  simp [reportBack, reportDone, reportLost, h]

/-! ## The piece at its place (R14, R33) -/

theorem stockSet_table {i id : Nat} {l : Loc} (h : holds s i id = true) :
    (stockSet s i id l).stock.table = s.stock.table.set i (placedPlate s i l) := by
  unfold stockSet
  rw [if_neg (by simp [h])]
  cases l <;> simp [placedPlate, placedLoc, tellWaiters]
theorem stockSet_crane {i id : Nat} {l : Loc} : (stockSet s i id l).crane = s.crane := by
  unfold stockSet
  split
  · rfl
  · cases l <;> simp [tellWaiters]
theorem convertRes_kept {r : ReqId} {l : Loc} : (convertRes s r l).stock.table = s.stock.table ∧ (convertRes s r l).crane = s.crane := by
  cases l <;> exact ⟨rfl, rfl⟩
theorem placeAt_mayPlace {l : Loc} (hh : holds s m.ix m.plate = true) (h : mayPlace s m l) :
    ∃ t, placeAt s m l = some t ∧ t.stock.table = s.stock.table.set m.ix (placedPlate s m.ix l) ∧ t.crane = s.crane := by
  unfold placeAt
  rw [if_neg (by simp [hh])]
  by_cases hres : (m.reserves && hasRes s m.req l) = true
  · rw [if_pos hres]
    exact ⟨_, rfl, convertRes_kept.1.trans (stockSet_table hh), convertRes_kept.2.trans stockSet_crane⟩
  · have ha : available s l = true := h.resolve_left fun h => hres (by simp [h])
    rw [if_neg hres, if_pos ha]
    exact ⟨_, rfl, stockSet_table hh, stockSet_crane⟩
theorem placeAt_full {l : Loc} (hh : holds s m.ix m.plate = true) (h : ¬mayPlace s m l) : placeAt s m l = none := by
  unfold placeAt
  rw [if_neg (by simp [hh]), if_neg fun hres => h (.inl (by simpa using hres)), if_neg fun ha => h (.inr ha)]

theorem placedPlate_holds {l : Loc} (hh : holds s m.ix m.plate = true) (hl : l ≠ .scrap) (hlen : m.ix < s.stock.table.length)
    (h : t.stock.table = s.stock.table.set m.ix (placedPlate s m.ix l)) :
    plateAt t m.ix = placedPlate s m.ix l ∧ holds t m.ix m.plate = true := by
  have hat : plateAt t m.ix = placedPlate s m.ix l := by simp [plateAt, h, hlen]
  refine ⟨hat, ?_⟩
  rw [holds] at hh ⊢
  rw [hat]
  simpa [placedPlate, hl] using hh
/-- Where the order of the failed move says its piece lies, once it is placed (R153). -/
theorem recoveredLoc_placed {l : Loc} (hh : holds s m.ix m.plate = true) (hst : (plateAt s m.ix).st ≠ .lost)
    (hlen : m.ix < s.stock.table.length) (h : t.stock.table = s.stock.table.set m.ix (placedPlate s m.ix l)) :
    recoveredLoc t m l = placedLoc s l := by
  by_cases hl : l = .scrap
  · subst hl
    have hat : plateAt t m.ix = .blank := by simp [plateAt, h, hlen, placedPlate]
    have hfree : holds t m.ix m.plate = false := by simp [holds, hat, Plate.blank]
    simp [recoveredLoc, hfree, placedLoc]
  · obtain ⟨hat, hholds⟩ := placedPlate_holds hh hl hlen h
    simp [recoveredLoc, hholds, whereIs, hat, placedPlate, hl, hst]

/-! ## The outcomes (R33, R153) -/

theorem setSuspect_kept {i id : Nat} (h : holds s i id = true) (hlen : i < s.stock.table.length) :
    plateAt (setSuspect s i id) i = { plateAt s i with suspect := true } ∧ (setSuspect s i id).crane = s.crane := by
  simp [setSuspect, h, plateAt, hlen]

/-- What AT_SOURCE reports of the move once its piece is at its source. -/
def sourceReport (m : Move) (s : State) : State :=
  let s := if m.massBad then setSuspect s m.ix m.plate else s
  let s := if m.kind == .remnantOut && m.live then s else endRes s m
  reportBack (endHost s m cFAULT_ABORT (recoveredLoc s m m.src) (measuredOf m)) m m.massBad
theorem recoverSource_eq : recoverSource s m =
    if m.lifted then recoverAt s m m.src (sourceReport m) else recovered (sourceReport m s) m.zones := rfl
/-- The report marks the record, if the mass was wrong, and nothing else of it. -/
theorem sourceReport_plate (hh : holds s m.ix m.plate = true) (hlen : m.ix < s.stock.table.length) :
    plateAt (sourceReport m s) m.ix = { plateAt s m.ix with suspect := m.massBad || (plateAt s m.ix).suspect } := by
  have hres : ∀ s : State, (if m.kind == .remnantOut && m.live then s else endRes s m).stock.table = s.stock.table := fun s => by
    split
    · rfl
    · exact endRes_table
  rw [sourceReport, plateAt_of_table (reportBack_table.trans (endHost_table.trans (hres _)))]
  cases hm : m.massBad
  · simp
  · simp [(setSuspect_kept hh hlen).1]
theorem sourceReport_host {o : StockOrder} (hh : holds s m.ix m.plate = true) (hlen : m.ix < s.stock.table.length)
    (hst : (plateAt s m.ix).st ≠ .lost) (hstock : s.crane.stock = [o]) (hreq : m.req = .host o.idx) (hlive : m.live = true) :
    returnsHeld (recovered (sourceReport m s) m.zones) o (plateAt s m.ix).loc (measuredOf m) := by
  have hsuspect : (if m.massBad then setSuspect s m.ix m.plate else s).crane = s.crane ∧
      plateAt (if m.massBad then setSuspect s m.ix m.plate else s) m.ix =
        { plateAt s m.ix with suspect := m.massBad || (plateAt s m.ix).suspect } := by
    obtain ⟨hat, -⟩ := setSuspect_kept hh hlen
    cases hm : m.massBad
    · simp
    · simp [hat]
  generalize hu : (if m.massBad then setSuspect s m.ix m.plate else s) = u at hsuspect
  obtain ⟨hcrane, hat⟩ := hsuspect
  have hkept : (if m.kind == .remnantOut && m.live then u else endRes u m).crane = u.crane ∧
      (if m.kind == .remnantOut && m.live then u else endRes u m).stock.table = u.stock.table := by
    split
    · exact ⟨rfl, rfl⟩
    · exact ⟨by simp [endRes, apply_ite State.crane], endRes_table⟩
  have hloc : recoveredLoc (if m.kind == .remnantOut && m.live then u else endRes u m) m m.src = (plateAt s m.ix).loc := by
    have hholds : holds u m.ix m.plate = true := by rw [holds] at hh ⊢; rw [hat]; exact hh
    rw [recoveredLoc, whereIs_of_table hkept.2, holds_of_table hkept.2, if_pos hholds, whereIs, if_pos hholds, hat]
    simp [hst]
  rw [sourceReport]
  simp only [hu, (report_host hreq _).1, hloc]
  exact returnsHeld_recovered (by rw [hkept.1, hcrane, hstock]) hreq hlive m.zones

theorem recoverAt_full {l : Loc} {f : State → State} (hh : holds s m.ix m.plate = true) (h : ¬mayPlace s m l) :
    recoverAt s m l f = deny s oFULL l.num.1 0 := by
  simp only [recoverAt, placeAt_full hh h]
theorem recoverAt_placed {l : Loc} {f : State → State} (h : placeAt s m l = some t) : recoverAt s m l f = recovered (f t) m.zones := by
  simp only [recoverAt, h]

/-- The state in which AT_DESTINATION places its piece: one not lifted leaves its source first. -/
def atHook (s : State) (m : Move) : State := if m.lifted then s else stockLift s m.ix m.plate
theorem atHook_kept (hh : holds s m.ix m.plate = true) (hlen : m.ix < s.stock.table.length) :
    holds (atHook s m) m.ix m.plate = true ∧ (plateAt (atHook s m) m.ix).st = (plateAt s m.ix).st ∧
      (atHook s m).crane = s.crane ∧ (atHook s m).stock.table.length = s.stock.table.length := by
  unfold atHook
  split
  · exact ⟨hh, rfl, rfl, rfl⟩
  · have hat : plateAt (stockLift s m.ix m.plate) m.ix = { plateAt s m.ix with loc := .crane } := by
      simp [stockLift, hh, plateAt, hlen]
    refine ⟨?_, by rw [hat], by simp [stockLift, hh], by simp [stockLift, hh]⟩
    rw [holds] at hh ⊢
    rw [hat]
    exact hh
theorem recoverDestination_full (hh : holds s m.ix m.plate = true) (hlen : m.ix < s.stock.table.length)
    (h : ¬mayPlace (atHook s m) m m.dst) : recoverDestination s m = deny s oFULL m.dst.num.1 0 := by
  have hnone : placeAt (if m.lifted then s else stockLift s m.ix m.plate) m m.dst = none := placeAt_full (atHook_kept hh hlen).1 h
  simp only [recoverDestination, hnone]
theorem recoverDestination_placed (hh : holds s m.ix m.plate = true) (hlen : m.ix < s.stock.table.length)
    (hst : (plateAt s m.ix).st ≠ .lost) (h : mayPlace (atHook s m) m m.dst) :
    ∃ u, recoverDestination s m = recovered u m.zones ∧ plateAt u m.ix = placedPlate (atHook s m) m.ix m.dst ∧
      ∀ o, s.crane.stock = [o] → m.req = .host o.idx → m.live = true →
        returnsHeld (recovered u m.zones) o (placedLoc (atHook s m) m.dst) (measuredOf m) := by
  obtain ⟨hholds, hstate, hcrane, hlength⟩ := atHook_kept hh hlen
  obtain ⟨t, hplace, htable, htcrane⟩ := placeAt_mayPlace hholds h
  have heq : recoverDestination s m = recovered
      (reportDone (endHost (endRes t m) m cFAULT_ABORT (recoveredLoc t m m.dst) (measuredOf m)) m) m.zones := by
    have hsome : placeAt (if m.lifted then s else stockLift s m.ix m.plate) m m.dst = some t := hplace
    simp only [recoverDestination, hsome]
  refine ⟨_, heq, ?_, fun o hstock hreq hlive => ?_⟩
  · rw [plateAt_of_table (reportDone_table.trans (endHost_table.trans endRes_table))]
    simp [plateAt, htable, hlength, hlen]
  · rw [recoveredLoc_placed hholds (by rwa [hstate]) (by rwa [hlength]) htable, (report_host hreq true).2.1]
    refine returnsHeld_recovered ?_ hreq hlive m.zones
    have hend : (endRes t m).crane = t.crane := by simp [endRes, apply_ite State.crane]
    rw [hend, htcrane, hcrane, hstock]
/-- What a place offers is read from the stock and the parameters alone. -/
theorem mayPlace_congr {l : Loc} (hstock : t.stock = s.stock) (hloader : t.loader = s.loader) : mayPlace t m l ↔ mayPlace s m l := by
  have hres : hasRes t m.req l = hasRes s m.req l := by simp only [hasRes, hstock]
  have hrack : rackSlots t = rackSlots s := by simp only [rackSlots, param, hloader]
  have hfree : ∀ n, slotFree t n = slotFree s n := fun n => by simp only [slotFree, slotReserved, locatedAt, hstock]
  have hover : overflowUsed t = overflowUsed s := by simp only [overflowUsed, locatedAt, hstock]
  have hinfeed : infeedCount t = infeedCount s := by simp only [infeedCount, locatedInfeed, hstock]
  have hav : available t l = available s l := by cases l <;> simp only [available, hrack, hfree, hover, hinfeed]
  rw [mayPlace, mayPlace, hres, hav]
theorem placed_congr {l : Loc} (hstock : t.stock = s.stock) (i : Nat) : placedPlate t i l = placedPlate s i l ∧ placedLoc t l = placedLoc s l := by
  have hloc : placedLoc t l = placedLoc s l := by cases l <;> simp only [placedLoc, locatedInfeed, hstock]
  exact ⟨by simp only [placedPlate, hloc, plateAt, hstock], hloc⟩
theorem atHook_slotRead : (atHook (slotRead s) m).stock = (atHook s m).stock ∧ (atHook (slotRead s) m).loader = (atHook s m).loader := by
  have hholds : holds (slotRead s) m.ix m.plate = holds s m.ix m.plate := rfl
  unfold atHook stockLift
  rw [hholds]
  split
  · exact ⟨rfl, rfl⟩
  · split <;> simp

theorem makeLost_kept (hh : holds s m.ix m.plate = true) (hlen : m.ix < s.stock.table.length) :
    (plateAt (makeLost s m.ix m.plate) m.ix).st = .lost ∧ (makeLost s m.ix m.plate).crane = s.crane := by
  by_cases hst : (plateAt s m.ix).st = .lost
  · simp [makeLost, hst]
  · have hlost : makeLost s m.ix m.plate = tellWaiters (setPlate s m.ix { plateAt s m.ix with st := .lost }) m.ix :=
      if_pos (by simp [hh, hst])
    rw [hlost]
    simp [tellWaiters, plateAt, hlen]
theorem recoverLost_done (hh : holds s m.ix m.plate = true) (hlen : m.ix < s.stock.table.length) :
    ∃ u, recoverLost s m = recovered u m.zones ∧ (plateAt u m.ix).st = .lost ∧
      ∀ o, s.crane.stock = [o] → m.req = .host o.idx → m.live = true → returnsHeld (recovered u m.zones) o .lost (measuredOf m) := by
  obtain ⟨hlost, hcrane⟩ := makeLost_kept hh hlen
  refine ⟨_, rfl, ?_, fun o hstock hreq hlive => ?_⟩
  · rw [plateAt_of_table (reportLost_table.trans (endHost_table.trans endRes_table)), hlost]
  · rw [(report_host hreq true).2.2]
    refine returnsHeld_recovered ?_ hreq hlive m.zones
    have hend : (endRes (makeLost s m.ix m.plate) m).crane = (makeLost s m.ix m.plate).crane := by simp [endRes, apply_ite State.crane]
    rw [hend, hcrane, hstock]

end Sys2Proof.Machine

namespace Sys2Proof.Proofs
open Sys2Proof.Machine

/-- Settles O25: the checks of CRANE_RECOVER in their order, then each outcome's placing of the piece. -/
theorem craneRecover : Obligations.CraneRecover := by
  unfold Obligations.CraneRecover
  refine ⟨fun s slot tgt hdue hturned => ?_, fun s slot hdue hz hle => ?_, fun s slot hdue hz hst hl hload => ⟨fun h0 hm => ?_,
    fun m hm hh hlen => ⟨fun h1 hlost hlift => ?_, fun h1 hlost hlift => ⟨fun hsrc hmay => ?_, fun hno => ?_⟩, fun h2 hlost => ⟨fun hmay => ?_, fun hno => ?_⟩,
      fun h3 => ?_⟩⟩⟩
  · by_cases ht : tgt = 0xFF
    · subst ht
      obtain ⟨f, hf⟩ := exec_recoverRow_due (slot := slot) hdue
      rw [hf, craneRecover_refused (recoverRefused_param (hturned.resolve_left fun h => h rfl))]
    · obtain ⟨f, hf⟩ := exec_recoverRow (slot := slot) s
      rw [hf, commandRow_due hdue, untargeted_target hdue ht]
  · obtain ⟨f, hf⟩ := exec_recoverRow_due (slot := slot) hdue
    have hrefuses : ∀ (o : Byte) (d : Nat), recoverRefused (slotRead s) slot = some (o, d) →
        exec (recoverRow slot) s = .next (settle s (deny (slotRead s) o d 0)) := fun o d h => by
      rw [hf, craneRecover_refused h]
    refine ⟨fun h => hrefuses _ _ (recoverRefused_running hz hle h), fun hst => ⟨fun hl => hrefuses _ _ (recoverRefused_down hz hle hst hl),
      fun hl hload => hrefuses _ _ (recoverRefused_loaded hz hle hst hl hload), fun hl hload => ⟨fun hm h0 => ?_, fun m hm h0 => ?_,
      fun m hm h12 hh hlost => hrefuses _ _ (recoverRefused_lost (s := slotRead s) hz hst hl hload hm h12 hh hlost)⟩⟩⟩
    · exact hrefuses _ _ (recoverRefused_outcome (s := slotRead s) hz hle hst hl hload (by simp [hm, h0]))
    · exact hrefuses _ _ (recoverRefused_outcome (s := slotRead s) hz hle hst hl hload (by simp [hm, h0]))
  · rw [exec_craneRecoverNone hdue h0, craneRecover_noMove (recoverRefused_noMove (s := slotRead s) hz hst hl hload hm h0) hm]
    obtain ⟨hidle, -, hrefusals, -, -, -, hgives⟩ := recovered_kept (slotRead s) []
    exact ⟨_, rfl, hidle, hrefusals, hgives⟩
  · rw [exec_craneRecoverAtSource hdue h1, craneRecover_move (s := slotRead s)
      (recoverRefused_move (s := slotRead s) hz (by omega) hst hl hload hm (by omega) (.inr hlost)) hm, recoverSource_eq, if_neg (by simp [hlift])]
    obtain ⟨hidle, hmove, hrefusals, -, hstock, -, hgives⟩ := recovered_kept (sourceReport m (slotRead s)) m.zones
    have hplate := sourceReport_plate (s := slotRead s) hh hlen
    refine ⟨_, rfl, hidle, hmove, hrefusals, hgives, ?_, ?_⟩
    · rw [plateAt_of_table (congrArg (·.table) hstock), hplate]
      rfl
    · rw [plateAt_of_table (congrArg (·.table) hstock), hplate]
      rfl
  · rw [exec_craneRecoverAtSource hdue h1, craneRecover_move (s := slotRead s)
      (recoverRefused_move (s := slotRead s) hz (by omega) hst hl hload hm (by omega) (.inr hlost)) hm, recoverSource_eq, if_pos hlift]
    obtain ⟨t, hplace, htable, hcrane⟩ := placeAt_mayPlace (s := slotRead s) hh hmay
    obtain ⟨hat, hholds⟩ := placedPlate_holds (s := slotRead s) hh hsrc hlen htable
    have htlen : m.ix < t.stock.table.length := by rw [htable]; simpa using hlen
    rw [recoverAt_placed hplace]
    obtain ⟨hidle, hmove, -, -, hstock, -, hgives⟩ := recovered_kept (sourceReport m t) m.zones
    have hplate := sourceReport_plate hholds htlen
    rw [hat] at hplate
    have hplaced : (placedPlate s m.ix m.src).suspect = (plateAt s m.ix).suspect := by simp [placedPlate, hsrc]
    refine ⟨_, rfl, hidle, hmove, hgives, ?_, fun o ho hreq hlive => ?_⟩
    · rw [plateAt_of_table (congrArg (·.table) hstock), hplate, ← hplaced]
      rfl
    · have hlocated : (plateAt t m.ix).loc = placedLoc s m.src ∧ (plateAt t m.ix).st ≠ .lost := by
        rw [hat]
        simp only [placedPlate, hsrc, if_false]
        exact ⟨rfl, hlost⟩
      rw [← hlocated.1]
      exact sourceReport_host hholds htlen hlocated.2 (hcrane ▸ ho) hreq hlive
  · rw [exec_craneRecoverAtSource hdue h1, craneRecover_move (s := slotRead s)
      (recoverRefused_move (s := slotRead s) hz (by omega) hst hl hload hm (by omega) (.inr hlost)) hm, recoverSource_eq, if_pos hlift,
      recoverAt_full (s := slotRead s) hh hno]
  · rw [exec_craneRecoverAtDestination hdue h2, craneRecover_move (s := slotRead s)
      (recoverRefused_move (s := slotRead s) hz (by omega) hst hl hload hm (by omega) (.inr hlost)) hm]
    obtain ⟨hsame, hloader⟩ := atHook_slotRead (s := s) (m := m)
    obtain ⟨u, hu, hplate, hreturns⟩ := recoverDestination_placed (s := slotRead s) hh hlen hlost ((mayPlace_congr hsame hloader).2 hmay)
    rw [hu]
    obtain ⟨hidle, hmove, -, -, hstock, -, hgives⟩ := recovered_kept u m.zones
    refine ⟨_, rfl, hidle, hmove, hgives, ?_, fun o ho hreq hlive => ?_⟩
    · rw [plateAt_of_table (congrArg (·.table) hstock), hplate, (placed_congr hsame m.ix).1]
      rfl
    · have hheld := hreturns o ho hreq hlive
      rw [(placed_congr hsame m.ix).2] at hheld
      exact hheld
  · rw [exec_craneRecoverAtDestination hdue h2, craneRecover_move (s := slotRead s)
      (recoverRefused_move (s := slotRead s) hz (by omega) hst hl hload hm (by omega) (.inr hlost)) hm]
    obtain ⟨hsame, hloader⟩ := atHook_slotRead (s := s) (m := m)
    rw [recoverDestination_full (s := slotRead s) hh hlen fun h => hno ((mayPlace_congr hsame hloader).1 h)]
  · rw [exec_craneRecoverLost hdue h3, craneRecover_move (s := slotRead s)
      (recoverRefused_move (s := slotRead s) hz (by omega) hst hl hload hm (by omega) (.inl h3)) hm]
    obtain ⟨u, hu, hlost, hreturns⟩ := recoverLost_done (s := slotRead s) hh hlen
    rw [hu]
    obtain ⟨hidle, hmove, -, -, hstock, -, hgives⟩ := recovered_kept u m.zones
    refine ⟨_, rfl, hidle, hmove, hgives, ?_, hreturns⟩
    rw [plateAt_of_table (congrArg (·.table) hstock), hlost]

end Sys2Proof.Proofs
end

/-! # Answers to the record engine: results, write-backs, TAKEN, element and ownership word (R16, R42, R43, R48, R196, R211) -/

section
namespace Sys2Proof.Machine

variable {s : State} {b : BedId} {r : Req}

/-! ## A result write (R196, R208, R211) -/

theorem resultAnswer_refused : resultAnswer (fresh s) r .refused = requeue (writeBackFlag (slotRead s)) r true := rfl
theorem resultAnswer_busy (h : r.what = .busyResult) : resultAnswer (fresh s) r .done = addCause (slotRead s) aCOMMAND := by
  simp [resultAnswer, h, slotRead]
theorem resultAnswer_done (h : r.what = .result) : resultAnswer (fresh s) r .done = endCommand (addCause (slotRead s) aCOMMAND) := by
  simp [resultAnswer, h, slotRead]
theorem endCommand_alone (h : s.loader.pendingCommit = none) : endCommand s = setCmd s { s.cmd with current := none } := by
  simp [endCommand, h]
theorem endCommand_commits {v : Word} (h : s.loader.pendingCommit = some v) (hmode : s.cmd.mode = .halt) :
    endCommand s = beginVerification (setCmd s { s.cmd with current := none }) v := by
  simp [endCommand, h, hmode]
theorem endCommand_discards {v : Word} (h : s.loader.pendingCommit = some v) (hmode : s.cmd.mode ≠ .halt) :
    endCommand s = setLoader (setCmd s { s.cmd with current := none }) { s.loader with pendingCommit := none } := by
  simp [endCommand, h, hmode]
theorem hasBit_addCause {i : Nat} (h : i < 8) : hasBit (addCause s i).faults.pending i = true := by simp [addCause, h]
theorem writeBackFlag_hall : hasBit (writeBackFlag s).faults.hall.flags fhWRITE_BACK = true := by
  simp [writeBackFlag, setFlag, fhWRITE_BACK]
theorem requeue_engine (k : Bool) : (requeue s r k).engine = { s.engine with queue := s.engine.queue ++ [{ r with refused := k }] } := rfl
@[simp] theorem writeBackFlag_pending : (writeBackFlag s).faults.pending = s.faults.pending := by simp [writeBackFlag, setFlag]

/-! ## What waits for an answer (R16, R211) -/

/-- The parts that an act brought about by an answer leaves alone. -/
def ActKept (s t : State) : Prop :=
  t.engine.deferred = s.engine.deferred ∧ t.engine.cur = s.engine.cur ∧ t.path = s.path ∧ t.beds = s.beds ∧ t.crane = s.crane ∧
    t.loader = s.loader
theorem runAct_kept (a : Act) : ActKept s (runAct s a) := by
  cases a with
  | result c t g o d1 d2 d3 => exact ⟨rfl, rfl, rfl, rfl, rfl, rfl⟩
  | cause i => exact ⟨rfl, rfl, rfl, rfl, rfl, rfl⟩
  | ownerRead b =>
    simp only [runAct, startRead]
    split <;> exact ⟨rfl, rfl, rfl, rfl, rfl, rfl⟩
theorem ActKept.trans {t u : State} (h : ActKept s t) (g : ActKept t u) : ActKept s u := by
  obtain ⟨hdeferred, hcur, hpath, hbeds, hcrane, hloader⟩ := h
  obtain ⟨gdeferred, gcur, gpath, gbeds, gcrane, gloader⟩ := g
  exact ⟨gdeferred.trans hdeferred, gcur.trans hcur, gpath.trans hpath, gbeds.trans hbeds, gcrane.trans hcrane, gloader.trans hloader⟩
theorem fire_kept (s : State) (n : Nat) :
    ActKept (setEngine s { s.engine with deferred := waitsLeft s.engine.deferred n }) (fire s n) := by
  have hfold : ∀ (l : List Deferred) (t : State), ActKept t (l.foldl (fun s d => runAct s d.act) t) := fun l => by
    induction l with
    | nil => exact fun t => ⟨rfl, rfl, rfl, rfl, rfl, rfl⟩
    | cons d l ih => exact fun t => (runAct_kept d.act).trans (ih (runAct t d.act))
  exact hfold _ _
/-- With nothing waiting an answer brings nothing about. -/
theorem fire_nothing {n : Nat} (h : s.engine.deferred = []) : fire s n = s := by
  have hsame : setEngine s { s.engine with deferred := s.engine.deferred } = s := rfl
  simpa [fire, h] using h ▸ hsame
theorem fire_one {n : Nat} {a : Act} (h : s.engine.deferred = [⟨[n], a⟩]) :
    fire s n = runAct (setEngine s { s.engine with deferred := [] }) a := by
  simp [fire, h]
theorem fire_other {n : Nat} {d : Deferred} (h : s.engine.deferred = [d]) (hw : d.waits.filter (· != n) ≠ []) :
    fire s n = setEngine s { s.engine with deferred := [{ d with waits := d.waits.filter (· != n) }] } := by
  have hne : (d.waits.filter (· != n)).isEmpty = false := by simpa using hw
  simp [fire, h, hne]
/-- What was deferred comes about where nothing it reads has changed since. -/
theorem runAct_done {t : State} {a : Act} (hcmd : t.cmd = s.cmd) (hloader : t.loader = s.loader)
    (hbeds : ∀ b, (runOf s b).ret = none → bedOf t b = bedOf s b) : actDone s (runAct t a) a := by
  cases a with
  | result c tg g o d1 d2 d3 =>
    have hparam : param t (·.control) 0 = param s (·.control) 0 := by rw [param, hloader, param]
    refine ⟨by simp [runAct, pushResult, pushResultAs, hcmd], ⟨t.engine.nextTicket, .result, param s (·.control) 0 + 0x80,
      resultLine (s.cmd.resultNo + 1) c tg g o d1 d2 d3, enable 0 64, false⟩, ?_, rfl, rfl, rfl, rfl⟩
    simp [runAct, pushResult, pushResultAs, hcmd, push, param, hloader]
  | cause i => exact fun hi => hasBit_addCause hi
  | ownerRead b =>
    intro hstate hret
    have hrun : runOf t b = runOf s b := congrArg Bed.run (hbeds b hret)
    have haddr : ringAddr t b = ringAddr s b := by simp only [ringAddr, bedCfg, param, hloader, hbeds b hret]
    simp only [runAct, startRead, hrun, hstate, hret, beq_self_eq_true, Option.isNone_none, Bool.and_self, if_true, readOwner, haddr]
    exact ⟨⟨t.engine.nextTicket, .bedOwner b, ringAddr s b, 0, 0, false⟩, by simp [pushRead], rfl, rfl⟩

/-! ## A write-back (R16, R196) -/

section
variable {c : Current} {w : RecId}

theorem writeBackAnswer_line_done (h : s.engine.cur = some c) (hl : c.lines ≠ []) :
    writeBackAnswer (fresh s) c w .done = freeMsp (fresh s) := by
  have hne : c.lines.isEmpty = false := by simpa using hl
  have hsame : setEngine (fresh s) { (fresh s).engine with cur := some c } = fresh s := by
    rw [← h]
    rfl
  have hdone : (c.refused || (Ack.done == Ack.refused)) = c.refused := Bool.or_false _
  simp only [writeBackAnswer, hne, hdone]
  exact congrArg freeMsp hsame
theorem writeBackAnswer_line_refused (hl : c.lines ≠ []) : writeBackAnswer (fresh s) c w .refused =
    freeMsp (setEngine (writeBackFlag (fresh s)) { s.engine with cur := some { c with refused := true } }) := by
  have hne : c.lines.isEmpty = false := by simpa using hl
  simp [writeBackAnswer, hne]
/-- The state in which the last line of a write-back is answered, its image pending where a line of it was refused. -/
def wroteBack (s : State) (c : Current) (w : RecId) (a : Ack) : State :=
  let t := finishReq (if a == .refused then writeBackFlag (fresh s) else fresh s)
  let others := t.engine.refused.filter (· != w)
  setEngine t { t.engine with refused := if c.refused || a == .refused then others ++ [w] else others }
theorem writeBackAnswer_last {a : Ack} (hl : c.lines = []) :
    writeBackAnswer (fresh s) c w a = fire (wroteBack s c w a) c.req.ticket := if_neg (by simp [hl])
theorem wroteBack_kept (a : Ack) : (wroteBack s c w a).cmd = s.cmd ∧ (wroteBack s c w a).loader = s.loader ∧
    (wroteBack s c w a).beds = s.beds ∧ (wroteBack s c w a).engine.cur = none ∧ (wroteBack s c w a).path.msp = none ∧
    (wroteBack s c w a).engine.deferred = s.engine.deferred ∧ (wroteBack s c w a).engine.queue = s.engine.queue ∧
    (wroteBack s c w a).faults.pending = s.faults.pending := by
  cases a <;> exact ⟨rfl, rfl, rfl, rfl, rfl, rfl, rfl, by simp [wroteBack]⟩
theorem mem_wroteBack_refused (a : Ack) : w ∈ (wroteBack s c w a).engine.refused ↔ (c.refused || a == .refused) = true := by
  simp only [wroteBack, setEngine_engine]
  split
  case isTrue h => simp [h]
  case isFalse h => simp [h]
end

/-! ## A TAKEN write (R42) -/

theorem takenAnswer_done : takenAnswer (fresh s) .done = slotRead s := rfl
theorem takenAnswer_refused : takenAnswer (fresh s) .refused = writeBackFlag (slotRead s) := rfl

/-! ## A bed's element and ownership word (R42, R43, R51, R63) -/

/-- What a bed's return write carries: its outcome and its code. -/
theorem returnOrder_last {h : Hand} (o : Outcome) {c : Nat} (p : Option (Nat × Nat)) (k : Bool) (e : (runOf s b).hand = some h)
    (hc : c < 256) (t : BedState) :
    ∃ r, (enter (returnOrder s b o c p k) b t).engine.queue.getLast? = some r ∧ r.what = .bedReturn b ∧ r.addr = h.addr ∧
      fld r.data.toNat 0x20 2 = o.num + 256 * c ∧ fld r.data.toNat 0x20 1 = o.num := by
  obtain ⟨line, hq, place, hline⟩ := returnOrder_queue s b o c p k e
  obtain ⟨-, hout, -, hboth⟩ := returnLine_fields s (runOf s b) h o c place k hc
  exact ⟨_, by simp [hq]; rfl, rfl, rfl, by rw [hline]; exact hboth, by rw [hline]; exact hout⟩
/-- The order rejected by the check of this number leaves the bed WAITING (R48, R57). -/
theorem rejectOrder_last {h : Hand} {c : Nat} (e : (runOf s b).hand = some h) (hc : c < 256) :
    (runOf (rejectOrder s b c) b).state = .waiting ∧ (runOf (rejectOrder s b c) b).hand = none ∧
      ∃ r, (rejectOrder s b c).engine.queue.getLast? = some r ∧ r.what = .bedReturn b ∧ r.addr = h.addr ∧
        fld r.data.toNat 0x20 2 = 1 + 256 * c := by
  obtain ⟨hstate, hhand, -⟩ := rejects_rejectOrder s b e hc
  obtain ⟨r, hr, hwhat, haddr, hcode, -⟩ := returnOrder_last (s := s) .rejected none false e hc .waiting
  exact ⟨hstate, hhand, r, hr, hwhat, haddr, hcode⟩

section
variable {h : Hand} {d : Line} {q : Req}

/-- The order's copy is taken and TAKEN is to be written. -/
def elementRead (s : State) (b : BedId) (h : Hand) (d : Line) : State :=
  push (setRun (slotRead s) b { runOf s b with hand := some { h with order := d }, acc := .lookup false }) (.bedTaken b) h.addr 0 0
theorem bedElementAnswer_ended {a : ReadAnswer} (hno : (runOf s b).hand = none ∨ (runOf s b).state ≠ .accepting ∨ (runOf s b).acc ≠ .element) :
    bedElementAnswer (fresh s) b a = slotRead s := by
  unfold bedElementAnswer
  dsimp only
  split
  · rfl
  case h_2 hand hhand =>
    have hstate : ((runOf s b).state == .accepting && (runOf s b).acc == .element) = false := by
      rcases hno with hno | hno | hno
      · exact absurd (hno.symm.trans hhand) (by simp)
      · simp [hno]
      · simp [hno]
    exact if_pos (congrArg (!·) hstate)

variable (hhand : (runOf s b).hand = some h) (hstate : (runOf s b).state = .accepting)
include hhand hstate

theorem bedElementAnswer_read (hacc : (runOf s b).acc = .element) : bedElementAnswer (fresh s) b (.done d) =
    if ordReservedSet d then rejectOrder (elementRead s b h d) b 1 else elementRead s b h d := by
  simp [bedElementAnswer, hhand, hstate, hacc, elementRead, slotRead]
theorem bedElementAnswer_refused (hacc : (runOf s b).acc = .element) : bedElementAnswer (fresh s) b .refused = memoryFault (slotRead s) b := by
  simp [bedElementAnswer, slotRead, hhand, hstate, hacc]
end

section
variable {q : Req} {d : Line}

theorem bedOwnerAnswer_takes (hd : fld d.toNat 0 4 = 1) (haddr : q.addr = ringAddr s b) (hstate : (runOf s b).state = .waiting)
    (hret : (runOf s b).ret = none) : bedOwnerAnswer (fresh s) b q (.done d) = takeOrder (slotRead s) b := by
  have haddr' : (q.addr == ringAddr (finishReq (fresh s)) b) = true := beq_iff_eq.2 haddr
  exact if_pos (by simp [haddr', hd, hstate, hret, ISSUED])
theorem bedOwnerAnswer_idle (h : fld d.toNat 0 4 ≠ 1 ∨ q.addr ≠ ringAddr s b ∨ (runOf s b).state ≠ .waiting ∨ (runOf s b).ret ≠ none) :
    bedOwnerAnswer (fresh s) b q (.done d) = slotRead s := by
  refine if_neg fun hall => ?_
  simp only [Bool.and_eq_true, beq_iff_eq, ISSUED, Option.isNone_iff_eq_none] at hall
  obtain ⟨⟨⟨hstate, hret⟩, haddr⟩, hd⟩ := hall
  rcases h with h | h | h | h
  · exact h hd
  · exact h haddr
  · exact h hstate
  · exact h hret
theorem takeOrder_bed (s : State) (b : BedId) : (runOf (takeOrder s b) b).state = .accepting ∧
    (bedOf (takeOrder s b) b).ring = { (bedOf s b).ring with taken := (bedOf s b).ring.taken + 1 } ∧
    ((runOf (takeOrder s b) b).hand.map fun h => (h.addr, h.idx)) = some (ringAddr s b, (bedOf s b).ring.pos) := by
  simp [takeOrder]
theorem ownerRefused_faults (h1 : (runOf s b).state ≠ .absent) (h2 : (runOf s b).state ≠ .stopped) (h3 : (runOf s b).state ≠ .faulted)
    (h4 : (runOf s b).state ≠ .stopping ∨ s.cmd.mode ≠ .resetting) : ownerRefused s b = memoryFault s b := by
  unfold ownerRefused
  split
  case h_1 h => exact absurd h h1
  case h_2 h => exact absurd h h2
  case h_3 h => exact absurd h h3
  case h_4 h =>
    have hmode := h4.resolve_left (not_not_intro h)
    simp [hmode]
  case h_5 => rfl
theorem ownerRefused_flag (h : (runOf s b).state = .stopped ∨ (runOf s b).state = .faulted ∨
    ((runOf s b).state = .stopping ∧ s.cmd.mode = .resetting)) : ownerRefused s b = bedFlag s b fMEMORY := by
  unfold ownerRefused
  rcases h with h | h | ⟨h, hmode⟩
  · simp only [h]
  · simp only [h]
  · simp only [h, hmode, beq_self_eq_true, if_true]
end

end Sys2Proof.Machine

namespace Sys2Proof.Proofs
open Sys2Proof.Machine

/-- Settles O31: the result write of a BUSY trigger and that of the command in execution. -/
theorem resultWriteAnswer : Obligations.ResultWriteAnswer := by
  unfold Obligations.ResultWriteAnswer
  refine ⟨fun s r hreq hwhat => ⟨?_, ?_⟩, fun s r hreq hwhat => ⟨fun hcommit => ?_, fun v hcommit hmode => ?_, fun v hcommit hmode => ?_, ?_⟩⟩
  · rw [exec_resultWriteAnswer hreq (by simp [isResult, hwhat]), resultAnswer_busy hwhat]
    exact ⟨_, rfl, rfl, rfl, hasBit_addCause (by decide), rfl, rfl, rfl⟩
  · rw [exec_resultWriteAnswer hreq (by simp [isResult, hwhat]), resultAnswer_refused]
    exact ⟨_, rfl, rfl, by simp, writeBackFlag_hall, by simp [requeue_engine]⟩
  · rw [exec_resultWriteAnswer hreq (by simp [isResult, hwhat]), resultAnswer_done hwhat,
      endCommand_alone (s := addCause (slotRead s) aCOMMAND) hcommit]
    exact ⟨_, rfl, rfl, hasBit_addCause (by decide), rfl, rfl⟩
  · rw [exec_resultWriteAnswer hreq (by simp [isResult, hwhat]), resultAnswer_done hwhat,
      endCommand_commits (s := addCause (slotRead s) aCOMMAND) hcommit hmode]
    exact ⟨_, rfl, rfl, rfl, rfl, rfl⟩
  · rw [exec_resultWriteAnswer hreq (by simp [isResult, hwhat]), resultAnswer_done hwhat,
      endCommand_discards (s := addCause (slotRead s) aCOMMAND) hcommit hmode]
    exact ⟨_, rfl, rfl, rfl⟩
  · rw [exec_resultWriteAnswer hreq (by simp [isResult, hwhat]), resultAnswer_refused]
    exact ⟨_, rfl, rfl, writeBackFlag_hall, by simp [requeue_engine]⟩

/-- Settles O32: a write-back's lines, what waits for its last one, and TAKEN writes. -/
theorem writeBackAndTakenAnswer : Obligations.WriteBackAndTakenAnswer := by
  unfold Obligations.WriteBackAndTakenAnswer
  refine ⟨fun s c r hmsp hcur hwhat hne hl => ⟨?_, ?_⟩, fun s c r hmsp hcur hwhat hne hl hdef => ⟨?_, ?_⟩,
    fun s c r a hmsp hcur hwhat hne hl => ?_, fun s q hreq htaken => ⟨?_, ?_⟩⟩
  · rw [exec_writeBackAnswer hmsp hcur hwhat hne, writeBackAnswer_line_done hcur hl]
    exact ⟨_, rfl, rfl, rfl, rfl⟩
  · rw [exec_writeBackAnswer hmsp hcur hwhat hne, writeBackAnswer_line_refused hl]
    exact ⟨_, rfl, rfl, rfl, writeBackFlag_hall⟩
  · rw [exec_writeBackAnswer hmsp hcur hwhat hne, writeBackAnswer_last hl, fire_nothing (by rw [(wroteBack_kept _).2.2.2.2.2.1, hdef])]
    exact ⟨_, rfl, rfl, rfl, rfl, by simpa using mem_wroteBack_refused (s := s) (c := c) (w := r) .done⟩
  · rw [exec_writeBackAnswer hmsp hcur hwhat hne, writeBackAnswer_last hl, fire_nothing (by rw [(wroteBack_kept _).2.2.2.2.2.1, hdef])]
    exact ⟨_, rfl, rfl, rfl, writeBackFlag_hall, by simp [mem_wroteBack_refused]⟩
  · obtain ⟨hcmd, hloader, hbeds, hnone, hfree, hdeferred, hqueue, hpending⟩ := wroteBack_kept (s := s) (c := c) (w := r) a
    obtain ⟨hleft, hcur', hpath, -⟩ := fire_kept (wroteBack s c r a) c.req.ticket
    rw [exec_writeBackAnswer hmsp hcur hwhat hne, writeBackAnswer_last hl]
    refine ⟨_, rfl, hcur'.trans hnone, by rw [hpath, setEngine_path, hfree], by rw [hleft, setEngine_engine, hdeferred], fun act hone => ?_, fun d hone hw => ?_⟩
    · rw [fire_one (by rw [hdeferred, hone])]
      exact runAct_done hcmd hloader fun b _ => by rw [bedOf, setEngine_beds, hbeds, bedOf]
    · rw [fire_other (by rw [hdeferred, hone]) hw]
      exact ⟨hcmd, hpending, hqueue⟩
  · rw [exec_takenWriteAnswer hreq htaken, takenAnswer_done]
  · rw [exec_takenWriteAnswer hreq htaken, takenAnswer_refused]
    exact ⟨_, rfl, rfl, rfl, writeBackFlag_hall⟩

/-- Settles O33: the element read of a take and the read of the ownership word. -/
theorem bedElementAndOwnershipRead : Obligations.BedElementAndOwnershipRead := by
  unfold Obligations.BedElementAndOwnershipRead
  refine ⟨fun s q b h d hreq hwhat hhand hstate hacc => ⟨fun hres => ?_, fun hres => ?_, ?_⟩, fun s q b a hreq hwhat hno => ?_,
    fun s q b d hreq hwhat => ⟨fun hd haddr hstate hret => ?_, fun hno => ?_, fun h1 h2 h3 h4 => ?_, fun h => ?_⟩⟩
  · rw [exec_bedElementReadAnswer hreq hwhat, bedElementAnswer_read hhand hstate hacc, if_neg (by simp [hres])]
    exact ⟨_, rfl, by simp [elementRead, hstate], by simp [elementRead], by simp [elementRead], by simp [elementRead]⟩
  · rw [exec_bedElementReadAnswer hreq hwhat, bedElementAnswer_read hhand hstate hacc, if_pos hres]
    have hread : (runOf (elementRead s b h d) b).hand = some { h with order := d } := by simp [elementRead]
    obtain ⟨hwaiting, hnone, r, hr, hwhat', haddr, hcode⟩ := rejectOrder_last hread (c := 1) (by decide)
    exact ⟨_, rfl, hwaiting, hnone, by simp [hr, hwhat', haddr, hcode]⟩
  · rw [exec_bedElementReadAnswer hreq hwhat, bedElementAnswer_refused hhand hstate hacc]
    obtain ⟨hf, -, hbit⟩ := faultBed_faulted (slotRead s) b (flag := fMEMORY) dMEMORY (by decide) (by decide)
    exact ⟨_, rfl, hf, hbit⟩
  · rw [exec_bedElementReadAnswer hreq hwhat, bedElementAnswer_ended hno]
  · rw [exec_bedOwnershipReadAnswer hreq hwhat, bedOwnerAnswer_takes hd haddr hstate hret]
    exact ⟨_, rfl, takeOrder_bed (slotRead s) b⟩
  · rw [exec_bedOwnershipReadAnswer hreq hwhat, bedOwnerAnswer_idle hno]
  · rw [exec_bedOwnershipReadAnswer hreq hwhat]
    exact ⟨_, congrArg (fun u => Host.Outcome.next (settle s u)) (ownerRefused_faults (s := slotRead s) h1 h2 h3 h4),
      faultBed_faulted (slotRead s) b (flag := fMEMORY) dMEMORY (by decide) (by decide)⟩
  · rw [exec_bedOwnershipReadAnswer hreq hwhat]
    exact ⟨_, congrArg (fun u => Host.Outcome.next (settle s u)) (ownerRefused_flag (s := slotRead s) h), rfl, raise_bed _ _ (by decide)⟩

end Sys2Proof.Proofs
end

/-! # Mark list, descriptor and segment list (R34, R48, R51, R55, R78, R98, R100) -/

section
namespace Sys2Proof.Machine

variable {s : State} {b : BedId} {h : Hand} {d : Line} {f : Fetch}

/-! ## A fetch ends -/

/-- The state in which the answer of a bed's fetch is used. -/
def fetched (s : State) (b : BedId) : State := setRun (freeMsp (fresh s)) b { runOf s b with fetch := none }
theorem endFetch_wanted (hf : (runOf s b).fetch = some f) (hd : f.discard = false) : endFetch (fresh s) b = (fetched s b, true) := by
  have hf' : (runOf (fresh s) b).fetch = some f := hf
  simp only [endFetch, hf', Option.map_some, Option.getD_some, hd]
  rfl
@[simp] theorem runOf_fetched : runOf (fetched s b) b = { runOf s b with fetch := none } := by simp [fetched]

/-! ## The mark list (R98, R100) -/

/-- The mark table with the entries of a line read behind it. -/
def marksWith (s : State) (b : BedId) (h : Hand) (d : Line) : List Mark :=
  (runOf s b).marks.table ++
    (listPart d (runOf s b).marks.table.length (ordMarks h.order)).map (⟨·, .pending, 0, .none, false⟩)
/-- The bed with this mark table and this first entry that fails check 9. -/
def marksRead (s : State) (b : BedId) (tbl : List Mark) (fail : Option (Nat × Nat)) : State :=
  setRun (fetched s b) b { runOf s b with fetch := none, marks := { (runOf s b).marks with table := tbl, formFail := fail } }
@[simp] theorem runOf_marksRead (tbl : List Mark) (fail : Option (Nat × Nat)) : runOf (marksRead s b tbl fail) b =
    { runOf s b with fetch := none, marks := { (runOf s b).marks with table := tbl, formFail := fail } } := by simp [marksRead]

section
variable (hhand : (runOf s b).hand = some h) (hf : (runOf s b).fetch = some f) (hd : f.discard = false)
include hhand hf hd

theorem markListAnswer_refused : markListAnswer (fresh s) b .refused = memoryFault (fetched s b) b := by
  simp [markListAnswer, endFetch_wanted hf hd, hhand]
theorem markListAnswer_more (hl : (marksWith s b h d).length < ordMarks h.order) :
    markListAnswer (fresh s) b (.done d) = marksRead s b (marksWith s b h d) (runOf s b).marks.formFail := by
  simp only [markListAnswer, endFetch_wanted hf hd, runOf_fetched, hhand]
  exact (if_pos hl).trans (by simp [marksRead, marksWith, hhand])
theorem markListAnswer_fails {k : Nat × Nat} (hl : ordMarks h.order ≤ (marksWith s b h d).length)
    (hc : markCheck (marksWith s b h d) (h.look.getD ⟨0, 0, 0, 0, false⟩) = some k) :
    markListAnswer (fresh s) b (.done d) = rejectOrder (marksRead s b (marksWith s b h d) (some k)) b 9 := by
  unfold marksWith at hl hc
  simp only [markListAnswer, endFetch_wanted hf hd, runOf_fetched, hhand, hc]
  exact (if_neg (Nat.not_lt.2 hl)).trans (by simp [marksRead, marksWith, hhand])
theorem markListAnswer_passes (hl : ordMarks h.order ≤ (marksWith s b h d).length)
    (hc : markCheck (marksWith s b h d) (h.look.getD ⟨0, 0, 0, 0, false⟩) = none) :
    markListAnswer (fresh s) b (.done d) =
      check10 (marksRead s b (marksWith s b h d) (runOf s b).marks.formFail) b h := by
  unfold marksWith at hl hc
  simp only [markListAnswer, endFetch_wanted hf hd, runOf_fetched, hhand, hc]
  exact (if_neg (Nat.not_lt.2 hl)).trans (by simp [marksRead, marksWith, hhand])
end

/-- The entry shown for check 9 survives the order's return (R111). -/
theorem formFail_rejectOrder {c : Nat} (e : (runOf s b).hand = some h) :
    (runOf (rejectOrder s b c) b).marks.formFail = (runOf s b).marks.formFail := by
  simp [rejectOrder, runOf_returnOrder _ _ _ _ _ _ e, afterReturn, BedRun.cleared]

/-! ## Checks 10 and 11 (R34, R48) -/

theorem check11_away (e : (runOf s b).hand = some h) (ha : (h.look.map (·.away)).getD false = true) :
    check11 s b = rejectOrder s b 11 := by simp [check11, e, ha]
theorem check11_here (e : (runOf s b).hand = some h) (ha : (h.look.map (·.away)).getD false = false) :
    check11 s b = setRun s b { runOf s b with acc := .burn } := by simp [check11, e, ha]
theorem check10_none (hz : ordDescAddr h.order = 0) : check10 s b h = check11 s b := by simp [check10, hz]
theorem check10_fails (hz : ordDescAddr h.order ≠ 0) (ha : listAddressOk s (ordDescAddr h.order) 64 = false) :
    check10 s b h = rejectOrder s b 10 := by simp [check10, hz, ha]
theorem check10_reads (hz : ordDescAddr h.order ≠ 0) (ha : listAddressOk s (ordDescAddr h.order) 64 = true) :
    check10 s b h = pushRead (setRun s b { runOf s b with acc := .descriptor }) (.descriptor b) (ordDescAddr h.order) := by
  simp [check10, hz, ha]

/-! ## The descriptor (R34, R51) -/

theorem descriptorAnswer_ended {a : ReadAnswer}
    (hno : (runOf s b).hand = none ∨ (runOf s b).state ≠ .accepting ∨ (runOf s b).acc ≠ .descriptor) :
    descriptorAnswer (fresh s) b a = slotRead s := by
  unfold descriptorAnswer
  dsimp only
  split
  · rfl
  case h_2 hand hhand =>
    have hstate : ((runOf s b).state == .accepting && (runOf s b).acc == .descriptor) = false := by
      rcases hno with hno | hno | hno
      · exact absurd (hno.symm.trans hhand) (by simp)
      · simp [hno]
      · simp [hno]
    exact if_pos (congrArg (!·) hstate)

section
variable (hhand : (runOf s b).hand = some h) (hstate : (runOf s b).state = .accepting) (hacc : (runOf s b).acc = .descriptor)
include hhand hstate hacc

theorem descriptorAnswer_refused : descriptorAnswer (fresh s) b .refused = memoryFault (slotRead s) b := by
  simp [descriptorAnswer, slotRead, hhand, hstate, hacc]
theorem descriptorAnswer_passes (hd : descOk d = true) : descriptorAnswer (fresh s) b (.done d) =
    setRun (slotRead s) b { runOf s b with hand := some { h with desc := some d }, acc := .reserve } := by
  simp [descriptorAnswer, slotRead, hhand, hstate, hacc, hd]
theorem descriptorAnswer_fails (hd : descOk d = false) : descriptorAnswer (fresh s) b (.done d) =
    rejectOrder (setRun (slotRead s) b { runOf s b with hand := some { h with desc := some d } }) b 10 := by
  simp [descriptorAnswer, slotRead, hhand, hstate, hacc, hd]
end

/-! ## The segment list (R55, R78) -/

/-- The check of the steps that a line holds. -/
def lineCheck (s : State) (b : BedId) (h : Hand) (c : Cursor) (d : Line) : Cursor × Option FormStop :=
  checkRun (formCfg s b h) 20000 c (listPart d (2 * (runOf s b).stream.nextLine) (ordSteps h.order))
/-- The bed in CHECKING with the cursor behind a line. -/
def lineChecked (s : State) (b : BedId) (c : Cursor) : State :=
  setRun (fetched s b) b { runOf s b with
    fetch := none, chk := some c, stream := { (runOf s b).stream with nextLine := (runOf s b).stream.nextLine + 1 } }

section
variable {c : Cursor} (hhand : (runOf s b).hand = some h) (hf : (runOf s b).fetch = some f) (hd : f.discard = false)
include hhand hf hd

theorem checkAnswer_refused (hc : (runOf s b).chk = some c) : checkAnswer (fresh s) b .refused = memoryFault (fetched s b) b := by
  simp [checkAnswer, endFetch_wanted hf hd, hhand, hc]
theorem checkAnswer_fails {x : FormStop} (hc : (runOf s b).chk = some c) (hx : (lineCheck s b h c d).2 = some x) :
    checkAnswer (fresh s) b (.done d) =
      enter (returnOrder (fetched s b) b .checkFailed x.code (some (x.idx, x.rep)) false) b .waiting := by
  have hx' : (checkRun (formCfg (fetched s b) b h) 20000 c
      (listPart d (2 * (runOf s b).stream.nextLine) (ordSteps h.order))).2 = some x := hx
  simp [checkAnswer, endFetch_wanted hf hd, hhand, hc, hx']
theorem checkAnswer_passes (hc : (runOf s b).chk = some c) (hx : (lineCheck s b h c d).2 = none) :
    checkAnswer (fresh s) b (.done d) =
      if 2 * ((runOf s b).stream.nextLine + 1) < ordSteps h.order then lineChecked s b (lineCheck s b h c d).1
      else enter (setRun (lineChecked s b (lineCheck s b h c d).1) b
        { runOf (lineChecked s b (lineCheck s b h c d).1) b with chk := none }) b .staging := by
  have hcfg : formCfg (fetched s b) b h = formCfg s b h := rfl
  have hx' : (checkRun (formCfg s b h) 20000 c
      (listPart d (2 * (runOf s b).stream.nextLine) (ordSteps h.order))).2 = none := hx
  simp [checkAnswer, endFetch_wanted hf hd, hhand, hc, hcfg, hx', lineChecked, lineCheck]
theorem streamAnswer_refused : streamAnswer (fresh s) b .refused = memoryFault (fetched s b) b := by
  simp [streamAnswer, endFetch_wanted hf hd, hhand]
theorem streamAnswer_done : streamAnswer (fresh s) b (.done d) = setRun (fetched s b) b { runOf s b with
    fetch := none
    stream := { (runOf s b).stream with
      fifo := (runOf s b).stream.fifo ++ listPart d (2 * (runOf s b).stream.nextLine) (ordSteps h.order),
      nextLine := (runOf s b).stream.nextLine + 1 } } := by
  simp [streamAnswer, endFetch_wanted hf hd, hhand]
end

/-- The outcome byte of a return write, whatever its code. -/
theorem returnLine_outcome (r : BedRun) (o : Outcome) (c : Nat) (p : Nat × Nat) (k : Bool) :
    fld (returnLine s r h o c p k).toNat 0x20 1 = o.num := by
  have ho : o.num < 256 := by cases o <;> decide
  simp only [returnLine, lineOf, fld, put, BitVec.toNat_ofNat, Nat.shiftLeft_eq, Nat.shiftRight_eq_div_pow, RETURNED]
  omega
theorem returnOrder_outcome (o : Outcome) (c : Nat) (p : Option (Nat × Nat)) (k : Bool) (t : BedState) (e : (runOf s b).hand = some h) :
    ((enter (returnOrder s b o c p k) b t).engine.queue.getLast?.map fun r => (r.what, fld r.data.toNat 0x20 1)) =
      some (.bedReturn b, o.num) := by
  obtain ⟨line, hq, place, hline⟩ := returnOrder_queue s b o c p k e
  simp [hq, hline, returnLine_outcome]

/-! ## What a bed asks the fetcher for (R55, R78) -/

theorem askFetch_none (hhand : (runOf s b).hand = some h) (hdue : fetchDue (runOf s b) h = none) : askFetch s b = s := by
  simp [askFetch, hhand, hdue]
theorem askFetch_some {u : FetchFor} {a : Nat} (hhand : (runOf s b).hand = some h) (hdue : fetchDue (runOf s b) h = some (u, a)) :
    askFetch s b = setRun s b { runOf s b with fetch := some ⟨u, a, false, false⟩ } := by
  simp [askFetch, hhand, hdue]
theorem activeState_not {t : BedState} (ht : activeState t = true) : t ≠ .accepting ∧ t ≠ .checking := by
  constructor
  all_goals
    rintro rfl
    exact absurd ht (by decide)

section
variable {r : BedRun}
theorem fetchDue_check (hf : r.fetch = none) (hs : r.state = .checking) (hn : 2 * r.stream.nextLine < ordSteps h.order) :
    fetchDue r h = some (.check, ordSegAddr h.order + 64 * r.stream.nextLine) := by simp [fetchDue, hf, hs, hn]
theorem fetchDue_active (hf : r.fetch = none) (hs : activeState r.state = true) : fetchDue r h =
    if 2 * r.stream.nextLine < ordSteps h.order && r.stream.fifo.length + 2 ≤ 32 then
      some (.stream, ordSegAddr h.order + 64 * r.stream.nextLine) else none := by
  obtain ⟨hacc, hchk⟩ := activeState_not hs
  simp [fetchDue, hf, hs, hacc, hchk, Config.fifo]
end

end Sys2Proof.Machine

namespace Sys2Proof.Proofs
open Sys2Proof.Machine

/-- Settles O34: the lines of a mark list up to checks 9, 10 and 11, and the descriptor's read. -/
theorem markListAndDescriptorRead : Obligations.MarkListAndDescriptorRead := by
  unfold Obligations.MarkListAndDescriptorRead
  refine ⟨fun s b h f d hmsp hf huse hd hhand => ?_, fun s q b h d hreq hwhat hhand hstate hacc => ⟨fun hok => ?_, fun hbad => ?_, ?_⟩,
    fun s q b a hreq hwhat hno => ?_⟩
  · refine ⟨fun hl => ?_, fun hl k c hc => ?_, fun hl hc => ?_, ?_⟩
    · rw [exec_markListReadAnswer hmsp hf huse, markListAnswer_more hhand hf hd hl]
      exact ⟨_, rfl, by simp [marksWith], by simp, rfl, by simp⟩
    · have hread : (runOf (marksRead s b (marksWith s b h d) (some (k, c))) b).hand = some h := by simp [hhand]
      obtain ⟨hwaiting, -, r, hr, hwhat, -, hcode⟩ := rejectOrder_last hread (c := 9) (by decide)
      rw [exec_markListReadAnswer hmsp hf huse, markListAnswer_fails hhand hf hd hl hc]
      exact ⟨_, rfl, hwaiting, by simp [formFail_rejectOrder hread], by simp [hr, hwhat, hcode]⟩
    · have hread : (runOf (marksRead s b (marksWith s b h d) (runOf s b).marks.formFail) b).hand = some h := by simp [hhand]
      have hsame : listAddressOk (marksRead s b (marksWith s b h d) (runOf s b).marks.formFail) (ordDescAddr h.order) 64 =
          listAddressOk s (ordDescAddr h.order) 64 := rfl
      rw [exec_markListReadAnswer hmsp hf huse, markListAnswer_passes hhand hf hd hl hc]
      refine ⟨_, rfl, fun hz haway => ?_, fun hz haway => ?_, fun hz haddr => ?_, fun hz haddr => ?_⟩
      · rw [check10_none hz, check11_away hread haway]
        exact rejects_rejectOrder _ _ hread (by decide)
      · rw [check10_none hz, check11_here hread haway]
        exact ⟨by simp, by simp [marksWith], by simp [hhand], rfl⟩
      · rw [check10_fails hz (hsame.trans haddr)]
        exact rejects_rejectOrder _ _ hread (by decide)
      · rw [check10_reads hz (hsame.trans haddr)]
        exact ⟨by simp, by simp [marksWith], by simp [hhand], rfl⟩
    · rw [exec_markListReadAnswer hmsp hf huse, markListAnswer_refused hhand hf hd]
      exact ⟨_, rfl, faultBed_faulted _ _ _ (by decide) (by decide)⟩
  · rw [exec_descriptorReadAnswer hreq hwhat, descriptorAnswer_passes hhand hstate hacc hok]
    exact ⟨_, rfl, by simp, by simp⟩
  · have hread : (runOf (setRun (slotRead s) b { runOf s b with hand := some { h with desc := some d } }) b).hand =
        some { h with desc := some d } := by simp
    obtain ⟨hwaiting, -, r, hr, hwhat', -, hcode⟩ := rejectOrder_last hread (c := 10) (by decide)
    rw [exec_descriptorReadAnswer hreq hwhat, descriptorAnswer_fails hhand hstate hacc hbad]
    exact ⟨_, rfl, hwaiting, by simp [hr, hwhat', hcode]⟩
  · rw [exec_descriptorReadAnswer hreq hwhat, descriptorAnswer_refused hhand hstate hacc]
    exact ⟨_, rfl, faultBed_faulted _ _ _ (by decide) (by decide)⟩
  · rw [exec_descriptorReadAnswer hreq hwhat, descriptorAnswer_ended hno]

/-- Settles O35: the lines of a segment list in CHECKING and in streaming, and when a bed asks for the next one. -/
theorem segmentListRead : Obligations.SegmentListRead := by
  unfold Obligations.SegmentListRead
  refine ⟨fun s b h f c d hmsp hf huse hd hhand hc => ⟨fun x hx => ?_, fun hx hmore => ?_, fun hx hend => ?_, ?_⟩,
    fun s b h f d hmsp hf huse hd hhand => ⟨?_, ?_⟩,
    fun s b h hhand hf => ⟨fun hstate hn => ?_, fun hstate hn hroom => ?_, fun hstate hno => ?_⟩⟩
  · have hread : (runOf (fetched s b) b).hand = some h := by simp [hhand]
    rw [exec_checkReadAnswer hmsp hf huse, checkAnswer_fails hhand hf hd hc hx]
    exact ⟨_, rfl, by simp, returnOrder_outcome _ _ _ _ _ hread⟩
  · rw [exec_checkReadAnswer hmsp hf huse, checkAnswer_passes hhand hf hd hc hx, if_pos hmore]
    exact ⟨_, rfl, by simp [lineChecked], by simp [lineChecked, lineCheck], by simp [lineChecked]⟩
  · rw [exec_checkReadAnswer hmsp hf huse, checkAnswer_passes hhand hf hd hc hx, if_neg (Nat.not_lt.2 hend)]
    exact ⟨_, rfl, by simp⟩
  · rw [exec_checkReadAnswer hmsp hf huse, checkAnswer_refused hhand hf hd hc]
    obtain ⟨hstate, -, hbit⟩ := faultBed_faulted (fetched s b) b (flag := fMEMORY) dMEMORY (by decide) (by decide)
    exact ⟨_, rfl, hstate, hbit⟩
  · rw [exec_streamFetchAnswer hmsp hf huse, streamAnswer_done hhand hf hd]
    exact ⟨_, rfl, by simp, by simp⟩
  · rw [exec_streamFetchAnswer hmsp hf huse, streamAnswer_refused hhand hf hd]
    obtain ⟨hstate, -, hbit⟩ := faultBed_faulted (fetched s b) b (flag := fMEMORY) dMEMORY (by decide) (by decide)
    exact ⟨_, rfl, hstate, hbit⟩
  · exact askFetch_some hhand (fetchDue_check hf hstate hn)
  · have hboth : 2 * (runOf s b).stream.nextLine < ordSteps h.order ∧ (runOf s b).stream.fifo.length + 2 ≤ 32 := ⟨hn, hroom⟩
    exact askFetch_some hhand ((fetchDue_active hf hstate).trans (by simp [hboth]; rfl))
  · have hneither : ¬(2 * (runOf s b).stream.nextLine < ordSteps h.order ∧ (runOf s b).stream.fifo.length + 2 ≤ 32) := by
      rintro ⟨hn, hroom⟩
      exact hno.elim (Nat.not_le.2 hn) (Nat.not_lt.2 hroom)
    exact askFetch_none hhand ((fetchDue_active hf hstate).trans (if_neg (by simpa using hneither)))

end Sys2Proof.Proofs
end

/-! # Return writes answered (R43, R44, R66, R67, R132, R136, R196, R211, R212) -/

section
namespace Sys2Proof.Machine

variable {s : State} {b : BedId} {q : Req}

/-- What came about stays so while the queue grows. -/
theorem actDone_mono {t u : State} {a : Act} (h : actDone s t a) (hcmd : u.cmd = t.cmd) (hpending : u.faults.pending = t.faults.pending)
    (hqueue : t.engine.queue ⊆ u.engine.queue) : actDone s u a := by
  cases a with
  | result c tg g o d1 d2 d3 =>
    obtain ⟨hno, r, hr, hfields⟩ := h
    exact ⟨by rw [hcmd, hno], r, hqueue hr, hfields⟩
  | cause i => exact fun hi => by rw [hpending]; exact h hi
  | ownerRead b =>
    intro hstate hret
    obtain ⟨r, hr, hfields⟩ := h hstate hret
    exact ⟨r, hqueue hr, hfields⟩
/-- What waited for the one request answered has come about. -/
theorem actDone_fire {t : State} {n : Nat} {a : Act} (hcmd : t.cmd = s.cmd) (hloader : t.loader = s.loader)
    (hbeds : ∀ b, (runOf s b).ret = none → bedOf t b = bedOf s b) (h : t.engine.deferred = [⟨[n], a⟩]) : actDone s (fire t n) a := by
  rw [fire_one h]
  exact runAct_done hcmd hloader hbeds
theorem addCause_pending_of {i : Nat} (p : Bool) : (if p then addCause s i else s).faults.pending =
    if p then setBit s.faults.pending i else s.faults.pending := by
  cases p <;> simp

/-! ## A bed's return -/

/-- The bed with its element passed to the host. -/
def returnedBed (s : State) (b : BedId) (t : Return) : Bed :=
  { bedOf s b with
    ring := { (bedOf s b).ring with
      pos := if (bedOf s b).ring.pos + 1 < (bedCfg s b).count then (bedOf s b).ring.pos + 1 else 0
      returned := (bedOf s b).ring.returned + 1
      raised := if t.attn then (bedOf s b).ring.raised + 1 else (bedOf s b).ring.raised }
    run := { runOf s b with ret := none } }
/-- The element has passed to the host and its ring has moved on. -/
def bedReturned (s : State) (b : BedId) (t : Return) : State :=
  let g := (bedOf s b).ring
  let u := setRun (setRing (slotRead s) b { g with
    pos := if g.pos + 1 < (bedCfg s b).count then g.pos + 1 else 0, returned := g.returned + 1,
    raised := if t.attn then g.raised + 1 else g.raised }) b { runOf s b with ret := none }
  if t.attn then addCause u (bedNum b) else u
/-- The bed WAITING reads its ring position unless a BED_START's result is awaited (R43, R66). -/
def readNext (s : State) (b : BedId) : State :=
  if (runOf s b).state == .waiting && !startWaits s b then readOwner s b else s
theorem bedReturnAnswer_refused : bedReturnAnswer (fresh s) b q .refused = requeue (writeBackFlag (slotRead s)) q true := rfl
theorem bedReturnAnswer_done {t : Return} (hret : (runOf s b).ret = some t) :
    bedReturnAnswer (fresh s) b q .done = readNext (fire (bedReturned s b t) q.ticket) b := by
  have hret' : (runOf (finishReq (fresh s)) b).ret = some t := hret
  simp only [bedReturnAnswer, hret', runOf_setRing]
  rfl
theorem readNext_kept (s : State) (b : BedId) : (readNext s b).beds = s.beds ∧ (readNext s b).cmd = s.cmd ∧
    (readNext s b).faults = s.faults ∧ (readNext s b).engine.deferred = s.engine.deferred ∧
    s.engine.queue ⊆ (readNext s b).engine.queue := by
  unfold readNext
  split
  · exact ⟨rfl, rfl, rfl, rfl, by simp [readOwner, pushRead]⟩
  · exact ⟨rfl, rfl, rfl, rfl, List.Subset.refl _⟩

section
variable (t : Return)
theorem bedReturned_same : (bedReturned s b t).cmd = s.cmd ∧ (bedReturned s b t).loader = s.loader ∧
    (bedReturned s b t).engine = { s.engine with cur := none } := by
  unfold bedReturned
  dsimp only
  split <;> exact ⟨rfl, rfl, rfl⟩
theorem bedReturned_beds : (bedReturned s b t).beds = s.beds.set b (returnedBed s b t) := by
  have hbeds : ∀ u : State, (if t.attn then addCause u (bedNum b) else u).beds = u.beds := fun u => by split <;> rfl
  exact (hbeds _).trans (by cases b <;> rfl)
theorem bedOf_bedReturned : bedOf (bedReturned s b t) b = returnedBed s b t := by rw [bedOf, bedReturned_beds, PerBed.get_set_self]
theorem bedOf_bedReturned_ne {c : BedId} (h : c ≠ b) : bedOf (bedReturned s b t) c = bedOf s c := by
  rw [bedOf, bedReturned_beds, PerBed.get_set_ne _ _ h, bedOf]
end

/-! ## A crane order's return -/

/-- The crane order's element has passed to the host. -/
def craneElementReturned (s : State) (i : Nat) : State :=
  let attn := ((s.crane.stock.find? (·.idx == i)).map (fun o => crAttn o.order)).getD false
  let u := setCrane (slotRead s) { s.crane with
    stock := s.crane.stock.filter (·.idx != i), returned := s.crane.returned + 1,
    raised := if attn then s.crane.raised + 1 else s.crane.raised }
  if attn then addCause u aRETURN_CRANE else u
theorem craneReturnAnswer_refused {i : Nat} : craneReturnAnswer (fresh s) i q .refused = requeue (writeBackFlag (slotRead s)) q true := rfl
theorem craneReturnAnswer_done {i : Nat} :
    craneReturnAnswer (fresh s) i q .done = readCraneOwner (fire (craneElementReturned s i) q.ticket) := rfl
theorem craneElementReturned_same (i : Nat) : (craneElementReturned s i).cmd = s.cmd ∧ (craneElementReturned s i).loader = s.loader ∧
    (craneElementReturned s i).engine = { s.engine with cur := none } ∧ (craneElementReturned s i).beds = s.beds ∧
    (craneElementReturned s i).crane.stock = s.crane.stock.filter (·.idx != i) ∧
    (craneElementReturned s i).crane.returned = s.crane.returned + 1 ∧ (craneElementReturned s i).crane.ownRead = s.crane.ownRead ∧
    (craneElementReturned s i).crane.ringPos = s.crane.ringPos := by
  unfold craneElementReturned
  dsimp only
  split <;> exact ⟨rfl, rfl, rfl, rfl, rfl, rfl, rfl, rfl⟩
theorem craneElementReturned_attention {i : Nat} {o : StockOrder} (h : s.crane.stock.find? (·.idx == i) = some o) :
    (craneElementReturned s i).crane.raised = s.crane.raised + (if crAttn o.order then 1 else 0) ∧
    (craneElementReturned s i).faults.pending =
      if crAttn o.order then setBit s.faults.pending aRETURN_CRANE else s.faults.pending := by
  unfold craneElementReturned
  simp only [h, Option.map_some, Option.getD_some]
  cases crAttn o.order <;> simp [aRETURN_CRANE]
theorem readCraneOwner_kept (s : State) : (readCraneOwner s).cmd = s.cmd ∧ (readCraneOwner s).faults = s.faults ∧
    (readCraneOwner s).crane.stock = s.crane.stock ∧ (readCraneOwner s).engine.deferred = s.engine.deferred ∧
    (readCraneOwner s).crane.returned = s.crane.returned ∧ (readCraneOwner s).crane.raised = s.crane.raised ∧
    s.engine.queue ⊆ (readCraneOwner s).engine.queue := by
  unfold readCraneOwner
  split
  · exact ⟨rfl, rfl, rfl, rfl, rfl, rfl, List.Subset.refl _⟩
  · exact ⟨rfl, rfl, rfl, rfl, rfl, rfl, by simp [pushRead]⟩
theorem readCraneOwner_stopped (h : ringRuns s = false) : readCraneOwner s = s := by simp [readCraneOwner, h]
theorem readCraneOwner_queue (hread : s.crane.ownRead = false) (h : ringRuns s = true) : (readCraneOwner s).engine.queue =
    s.engine.queue ++ [⟨s.engine.nextTicket, .craneOwner s.crane.ringPos, craneAddr s s.crane.ringPos, 0, 0, false⟩] := by
  simp [readCraneOwner, h, hread, craneAddr, param, pushRead]
theorem ringRuns_iff : ringRuns s = true ↔ s.cmd.mode = .run ∨ s.cmd.mode = .hold := by simp [ringRuns]

end Sys2Proof.Machine

namespace Sys2Proof.Proofs
open Sys2Proof.Machine

/-- Settles O36: the return writes of beds and crane orders, answered DONE or refused. -/
theorem returnAnswers : Obligations.ReturnAnswers := by
  unfold Obligations.ReturnAnswers
  refine ⟨fun s q hreq => ⟨fun b t hwhat hret => ⟨?_, ?_⟩, fun i hwhat => ⟨?_, ?_⟩⟩, fun s q b t hreq hwhat hret hdef => ⟨?_, ?_⟩,
    fun s q b t ws hreq hwhat hret hdef hticket hws => ?_, fun s q i o hreq hwhat hfind hdef => ⟨?_, ?_⟩⟩
  · obtain ⟨hcmd, hloader, hengine⟩ := bedReturned_same (s := s) (b := b) t
    obtain ⟨hdeferred, -, -, hbeds, -, -⟩ := fire_kept (bedReturned s b t) q.ticket
    obtain ⟨nbeds, ncmd, nfaults, ndeferred, nqueue⟩ := readNext_kept (fire (bedReturned s b t) q.ticket) b
    rw [exec_bedReturnAnswer hreq hwhat, bedReturnAnswer_done hret]
    refine ⟨_, rfl, ?_, ?_, fun act hact => actDone_mono (actDone_fire hcmd hloader (fun c hc => ?_) ?_) ncmd (by rw [nfaults]) nqueue⟩
    · rw [runOf, nbeds, hbeds, setEngine_beds, bedReturned_beds, PerBed.get_set_self, returnedBed]
    · rw [ndeferred, hdeferred, setEngine_engine, hengine]
    · exact bedOf_bedReturned_ne t fun h => by simp [h, hret] at hc
    · rw [hengine, hact]
  · rw [exec_bedReturnAnswer hreq hwhat, bedReturnAnswer_refused]
    exact ⟨_, rfl, rfl, rfl⟩
  · obtain ⟨hcmd, hloader, hengine, hbeds, hstock, -⟩ := craneElementReturned_same (s := s) i
    obtain ⟨hdeferred, -, -, -, hcrane, -⟩ := fire_kept (craneElementReturned s i) q.ticket
    obtain ⟨ncmd, nfaults, nstock, ndeferred, -, -, nqueue⟩ := readCraneOwner_kept (fire (craneElementReturned s i) q.ticket)
    rw [exec_craneReturnAnswer hreq hwhat, craneReturnAnswer_done]
    refine ⟨_, rfl, ?_, ?_, fun act hact => actDone_mono (actDone_fire hcmd hloader (fun c _ => ?_) ?_) ncmd (by rw [nfaults]) nqueue⟩
    · rw [nstock, hcrane, setEngine_crane, hstock]
    · rw [ndeferred, hdeferred, setEngine_engine, hengine]
    · rw [bedOf, hbeds, bedOf]
    · rw [hengine, hact]
  · rw [exec_craneReturnAnswer hreq hwhat, craneReturnAnswer_refused]
    exact ⟨_, rfl, rfl, rfl⟩
  · obtain ⟨-, -, hengine⟩ := bedReturned_same (s := s) (b := b) t
    have hquiet : (bedReturned s b t).engine.deferred = [] := by rw [hengine, hdef]
    have hnext : startWaits (bedReturned s b t) b = false := by simp [startWaits, hquiet]
    obtain ⟨nbeds, -, nfaults, -⟩ := readNext_kept (bedReturned s b t) b
    have hbed : bedOf (readNext (bedReturned s b t) b) b = bedOf (bedReturned s b t) b := by rw [bedOf, nbeds, bedOf]
    have hself := bedOf_bedReturned (s := s) (b := b) t
    have hrun : (runOf (bedReturned s b t) b).state = (runOf s b).state := congrArg (·.run.state) hself
    rw [exec_bedReturnAnswer hreq hwhat, bedReturnAnswer_done hret, fire_nothing hquiet]
    refine ⟨_, rfl, ?_, ?_, ?_, ?_, ?_, fun hwait => ?_, fun hwait => ?_⟩
    · exact congrArg (·.run.ret) (hbed.trans hself)
    · exact congrArg (·.ring.pos) (hbed.trans hself)
    · exact congrArg (·.ring.returned) (hbed.trans hself)
    · rw [hbed, hself]
      cases hattn : t.attn <;> simp [returnedBed, hattn]
    · rw [nfaults]
      exact (addCause_pending_of t.attn).trans rfl
    · have hreads : readNext (bedReturned s b t) b = readOwner (bedReturned s b t) b := if_pos (by simp [hrun, hwait, hnext])
      rw [hreads]
      exact ⟨⟨(bedReturned s b t).engine.nextTicket, .bedOwner b, ringAddr (bedReturned s b t) b, 0, 0, false⟩,
        by simp [readOwner, pushRead], rfl, rfl⟩
    · have hsame : readNext (bedReturned s b t) b = bedReturned s b t := if_neg (by simp [hrun, hwait])
      rw [hsame, hengine]
  · rw [exec_bedReturnAnswer hreq hwhat, bedReturnAnswer_refused]
    exact ⟨_, rfl, hret, rfl, rfl, writeBackFlag_hall⟩
  · obtain ⟨-, -, hengine⟩ := bedReturned_same (s := s) (b := b) t
    have hkeep : ws.filter (· != q.ticket) = ws := List.filter_eq_self.2 fun n hn => by
      simpa using fun h : n = q.ticket => hticket (h ▸ hn)
    have hwaits : (bedReturned s b t).engine.deferred = [⟨ws, .ownerRead b⟩] := by rw [hengine, hdef]
    have hfire : fire (bedReturned s b t) q.ticket = bedReturned s b t := by
      rw [fire_other hwaits (by simpa only [hkeep] using hws)]
      simp only [hkeep]
      rw [← hwaits]
      rfl
    have hsame : readNext (bedReturned s b t) b = bedReturned s b t := if_neg (by simp [startWaits, hwaits])
    rw [exec_bedReturnAnswer hreq hwhat, bedReturnAnswer_done hret, hfire, hsame]
    refine ⟨_, rfl, ?_, by rw [hengine], by rw [hengine]⟩
    exact congrArg (·.run.ret) (bedOf_bedReturned t)
  · obtain ⟨hcmd, hloader, hengine, -, hstock, hreturned, hread, hpos⟩ := craneElementReturned_same (s := s) i
    obtain ⟨hraised, hpending⟩ := craneElementReturned_attention hfind
    obtain ⟨-, nfaults, nstock, -, nreturned, nraised, -⟩ := readCraneOwner_kept (craneElementReturned s i)
    have hruns : ringRuns (craneElementReturned s i) = true ↔ s.cmd.mode = .run ∨ s.cmd.mode = .hold := by rw [ringRuns_iff, hcmd]
    rw [exec_craneReturnAnswer hreq hwhat, craneReturnAnswer_done, fire_nothing (by rw [hengine, hdef])]
    refine ⟨_, rfl, by rw [nstock, hstock], by rw [nreturned, hreturned], by rw [nraised, hraised], by rw [nfaults, hpending],
      fun hno hmode => ?_, fun hrun hhold => ?_⟩
    · rw [readCraneOwner_queue (hread.trans hno) (hruns.2 hmode), hengine, hpos, craneAddr, param, hloader]
      rfl
    · rw [readCraneOwner_stopped (by simpa [hrun, hhold] using hruns), hengine]
  · rw [exec_craneReturnAnswer hreq hwhat, craneReturnAnswer_refused]
    exact ⟨_, rfl, rfl, rfl, writeBackFlag_hall⟩

end Sys2Proof.Proofs
end

/-! # The crane ring's reads and the 13 checks of an order (R10, R132, R134, R196) -/

section
namespace Sys2Proof.Machine

variable {s : State}

/-! ## The ownership word (R132) -/

section
variable {i : Nat} {d : Line}

/-- The read of the ring position is no longer outstanding. -/
def ringRead (s : State) : State := setCrane (slotRead s) { s.crane with ownRead := false }
theorem craneOwnerAnswer_refused : craneOwnerAnswer (fresh s) i .refused = writeBackFlag (ringRead s) := rfl
theorem craneOwnerAnswer_done (hi : i = s.crane.ringPos) : craneOwnerAnswer (fresh s) i (.done d) =
    if fld d.toNat 0 4 == ISSUED && mayTake s then takeCrane (ringRead s) else ringRead s := by
  simp only [craneOwnerAnswer]
  exact if_neg (by simpa using hi)
end

/-! ## Checks 1 to 7 (R134) -/

section
variable {r : Raw} {i idx code : Nat}

theorem acceptOrder_reserved (h : crReservedSet r = true) : acceptOrder s idx r = returnHost s idx 1 .none 0 false := by
  simp [acceptOrder, h]

section
variable (hres : crReservedSet r = false)
include hres
theorem acceptOrder_unknown (h : findPlate s (crPlate r) = none) : acceptOrder s idx r = returnHost s idx 2 .none 0 false := by
  simp [acceptOrder, hres, h]
variable (hfind : findPlate s (crPlate r) = some i)
include hfind
theorem acceptOrder_lost (h : acceptPiece s r i = some code) (hst : (plateAt s i).st = .lost) :
    acceptOrder s idx r = returnHost s idx code .lost 0 false := by
  simp [acceptOrder, hres, hfind, h, hst]
theorem acceptOrder_piece (h : acceptPiece s r i = some code) (hst : (plateAt s i).st ≠ .lost) :
    acceptOrder s idx r = returnHost s idx code (plateAt s i).loc 0 false := by
  simp [acceptOrder, hres, hfind, h, hst]
theorem acceptOrder_place (hpiece : acceptPiece s r i = none) (hdest : acceptDest s r i = .inl code) :
    acceptOrder s idx r = returnHost s idx code (plateAt s i).loc 0 false := by
  simp [acceptOrder, hres, hfind, hpiece, hdest]
end

theorem acceptPiece_lost (h : (plateAt s i).st = .lost) : acceptPiece s r i = some 3 := by simp [acceptPiece, h]
theorem acceptPiece_crane (h : (plateAt s i).loc = .crane) : acceptPiece s r i = some 3 := by simp [acceptPiece, h]

section
variable (hst : (plateAt s i).st ≠ .lost) (hloc : (plateAt s i).loc ≠ .crane)
include hst hloc
theorem acceptPiece_remnantOut (h : underRemnantOut s i ≠ none) : acceptPiece s r i = some 4 := by
  simp [acceptPiece, hst, hloc, Option.isSome_iff_ne_none, h]
variable (hout : underRemnantOut s i = none)
include hout
theorem acceptPiece_claimed (h : (∃ b, (plateAt s i).claim = .burn b) ∨ ∃ e, (plateAt s i).claim = .lift e) :
    acceptPiece s r i = some 4 := by
  rcases h with ⟨b, h⟩ | ⟨e, h⟩
  · simp [acceptPiece, hst, hloc, hout, h]
  · simp [acceptPiece, hst, hloc, hout, h]
theorem acceptPiece_token {t : BitVec 16} {e : Word} (h : (plateAt s i).claim = .hold t e) (ht : t ≠ crToken r ∨ t = 0) :
    acceptPiece s r i = some 5 := by
  have hbad : (t != crToken r || crToken r == 0) = true := by
    by_cases hsame : t = crToken r
    · have hzero : crToken r = 0 := hsame ▸ ht.resolve_left (not_not_intro hsame)
      simp [hzero]
    · simp [hsame]
  simp only [acceptPiece, h, hbad]
  simp [hst, hloc, hout]
theorem acceptPiece_free (h : (plateAt s i).claim = .none ∨ ∃ t e, (plateAt s i).claim = .hold t e ∧ t = crToken r ∧ t ≠ 0) :
    acceptPiece s r i = acceptPiece.acceptMass s (plateAt s i) := by
  rcases h with h | ⟨t, e, h, rfl, hne⟩
  · simp [acceptPiece, hst, hloc, hout, h]
  · have hgood : (crToken r != crToken r || crToken r == 0) = false := by simpa using hne
    simp only [acceptPiece, h, hgood]
    simp [hst, hloc, hout]
end

theorem acceptMass_suspect {p : Plate} (h : p.suspect = true) : acceptPiece.acceptMass s p = some 6 := by simp [acceptPiece.acceptMass, h]
theorem acceptMass_heavy {p : Plate} (h : p.suspect = false) (hst : p.st = .stock) (hmass : param s (·.rated) 0 < p.mass) :
    acceptPiece.acceptMass s p = some 7 := by simp [acceptPiece.acceptMass, h, hst, hmass]
theorem acceptMass_passes {p : Plate} (h : p.suspect = false) (hmass : p.st = .stock → p.mass ≤ param s (·.rated) 0) :
    acceptPiece.acceptMass s p = none := by
  by_cases hst : p.st = .stock
  · simp [acceptPiece.acceptMass, h, hst, hmass hst]
  · simp [acceptPiece.acceptMass, h, hst]

/-! ## Checks 8 to 13 (R134) -/

theorem acceptDest_autoFull (hk : crKind r = 2) (h : autoSlot s (plateAt s i).length (plateAt s i).width = none) :
    acceptDest s r i = .inl 10 := by simp [acceptDest, hk, h]
theorem acceptDest_auto {n : Nat} (hk : crKind r = 2) (h : autoSlot s (plateAt s i).length (plateAt s i).width = some n) :
    acceptDest s r i = .inr (.rack n) := by simp [acceptDest, hk, h]
theorem acceptDest_noBed (hk : crKind r = 1) (hn : 4 ≤ crNum r) : acceptDest s r i = .inl 8 := by
  simp [acceptDest, crDest, hk, bedOf?_none hn]
/-- A place given by its kind alone is that of the piece only where the two are equal. -/
theorem sameKind_eq {l m : Loc} (h : ∀ n, l ≠ .infeed n) : sameKind l m = (l == m) := by
  cases l with
  | infeed n => exact absurd rfl (h n)
  | _ => rfl
theorem sameKind_infeed {k : Nat} {m : Loc} (h : ∀ n, m ≠ .infeed n) : sameKind (.infeed k) m = false := by
  cases m with
  | infeed n => exact absurd rfl (h n)
  | _ => rfl

section
variable {b : BedId} (hk : crKind r = 1) (hn : crNum r = bedNum b)
include hk hn
theorem acceptDest_bed_not (h : (plateAt s i).loc = .bed b ∨ present s b = false) : acceptDest s r i = .inl 8 := by
  rcases h with h | h
  · simp [acceptDest, crDest, hk, hn, bedOf?_bedNum, h, sameKind]
  · simp [acceptDest, crDest, hk, hn, bedOf?_bedNum, h]
variable (hloc : (plateAt s i).loc ≠ .bed b) (hp : present s b = true)
include hloc hp
theorem acceptDest_bed_taken (h : locatedAt s (.bed b) ≠ [] ∨ bedTakes s b (plateAt s i).id [.accepting] = false) :
    acceptDest s r i = .inl 13 := by
  have hsame : sameKind (.bed b) (plateAt s i).loc = false := (sameKind_eq (by simp)).trans (by simpa using hloc.symm)
  have hbad : (!(locatedAt s (.bed b)).isEmpty || !bedTakes s b (plateAt s i).id [.accepting]) = true := by
    simpa using h
  simp [acceptDest, crDest, hk, hn, bedOf?_bedNum, hsame, hp, hbad]
theorem acceptDest_bed (hfree : locatedAt s (.bed b) = []) (htakes : bedTakes s b (plateAt s i).id [.accepting] = true) :
    acceptDest s r i = .inr (.bed b) := by
  have hsame : sameKind (.bed b) (plateAt s i).loc = false := (sameKind_eq (by simp)).trans (by simpa using hloc.symm)
  simp [acceptDest, crDest, hk, hn, bedOf?_bedNum, hsame, hp, hfree, htakes]
end

section
variable {n : Nat} (hk : crKind r = 3) (hn : crNum r = n)
include hk hn
theorem acceptDest_rack_not (h : (plateAt s i).loc = .rack n ∨ rackSlots s ≤ n ∨
    fitsSlot s n (plateAt s i).length (plateAt s i).width = false) : acceptDest s r i = .inl 8 := by
  rcases h with h | h | h
  · simp [acceptDest, crDest, hk, hn, h, sameKind]
  · simp [acceptDest, crDest, hk, hn, h]
  · simp [acceptDest, crDest, hk, hn, h]
variable (hloc : (plateAt s i).loc ≠ .rack n) (hlt : n < rackSlots s)
  (hfits : fitsSlot s n (plateAt s i).length (plateAt s i).width = true)
include hloc hlt hfits
theorem acceptDest_rack : acceptDest s r i = if slotFree s n then .inr (.rack n) else .inl 9 := by
  have hsame : sameKind (.rack n) (plateAt s i).loc = false := (sameKind_eq (by simp)).trans (by simpa using hloc.symm)
  cases hfree : slotFree s n <;> simp [acceptDest, crDest, hk, hn, hsame, hfits, hfree, Nat.not_le.2 hlt]
end

theorem acceptDest_bay_same (hk : crKind r = 4) (h : (plateAt s i).loc = .overflow) : acceptDest s r i = .inl 8 := by
  simp [acceptDest, crDest, hk, h, sameKind]
theorem acceptDest_bay (hk : crKind r = 4) (h : (plateAt s i).loc ≠ .overflow) :
    acceptDest s r i = if overflowUsed s < 8 then .inr .overflow else .inl 11 := by
  have hsame : sameKind .overflow (plateAt s i).loc = false := (sameKind_eq (by simp)).trans (by simpa using h.symm)
  by_cases hroom : overflowUsed s < 8 <;> simp [acceptDest, crDest, hk, hsame, available, Config.overflow, hroom]
theorem acceptDest_infeed_same {n : Nat} (hk : crKind r = 5) (h : (plateAt s i).loc = .infeed n) : acceptDest s r i = .inl 8 := by
  simp [acceptDest, crDest, hk, h, sameKind]
theorem acceptDest_infeed (hk : crKind r = 5) (h : ∀ n, (plateAt s i).loc ≠ .infeed n) :
    acceptDest s r i = if infeedCount s < 4 then .inr (.infeed 0) else .inl 12 := by
  by_cases hroom : infeedCount s < 4 <;> simp [acceptDest, crDest, hk, sameKind_infeed h, available, Config.infeed, hroom]
theorem acceptDest_scrap (hk : crKind r = 6) (h : (plateAt s i).loc ≠ .scrap) : acceptDest s r i = .inr .scrap := by
  have hsame : sameKind .scrap (plateAt s i).loc = false := (sameKind_eq (by simp)).trans (by simpa using h.symm)
  simp [acceptDest, crDest, hk, hsame]

/-! ## Acceptance (R10, R134) -/

/-- The reservations of an order accepted for a place, in the rack and in the overflow bay. -/
def orderSlots (idx id : Nat) : Loc → List SlotRes
  | .rack n => [⟨n, id, .host idx⟩]
  | _ => []
def orderBay (idx id : Nat) : Loc → List OverRes
  | .overflow => [⟨id, .host idx⟩]
  | _ => []
theorem acceptOrder_accepts {l : Loc} (hres : crReservedSet r = false) (hfind : findPlate s (crPlate r) = some i)
    (hpiece : acceptPiece s r i = none) (hdest : acceptDest s r i = .inr l) :
    (acceptOrder s idx r).stock = { s.stock with
      table := s.stock.table.set i { plateAt s i with claim := .lift idx }
      slotRes := s.stock.slotRes ++ orderSlots idx (plateAt s i).id l
      overRes := s.stock.overRes ++ orderBay idx (plateAt s i).id l } ∧
    (acceptOrder s idx r).crane.stock =
      s.crane.stock.map (fun o => if o.idx == idx then { o with ix := i, dest := l, stage := .queued } else o) ∧
    queued (acceptOrder s idx r) (.writeBack (.plate i)) = true := by
  have hwb := queued_setPlate_self s i { plateAt s i with claim := .lift idx }
  unfold acceptOrder
  simp only [hres, hfind, hpiece, hdest]
  cases l <;> exact ⟨by simp [reserve, orderSlots, orderBay], by simp [reserve], hwb⟩
end

/-! ## The element read (R132, R196) -/

section
variable {q : Req} {o : StockOrder} {d : Line} {i : Nat}

theorem craneElementAnswer_other (h : ∀ o, s.crane.stock.find? (·.idx == i) = some o → o.stage ≠ .reading) (a : ReadAnswer) :
    craneElementAnswer (fresh s) i q a = if a == .refused then writeBackFlag (slotRead s) else slotRead s := by
  have hfind : (if a == .refused then writeBackFlag (finishReq (fresh s)) else finishReq (fresh s)).crane.stock.find? (·.idx == i) =
      s.crane.stock.find? (·.idx == i) := by split <;> rfl
  unfold craneElementAnswer
  dsimp only
  cases hfound : s.crane.stock.find? (·.idx == i) with
  | none => simp only [hfind.trans hfound]; rfl
  | some o =>
    simp only [hfind.trans hfound]
    exact if_pos (by simpa using h o hfound)

variable (hstock : s.crane.stock = [o]) (hstage : o.stage = .reading)
include hstock hstage

/-- The state in which an order taken is judged: its element is copied and TAKEN is to be written. -/
def elementTaken (s : State) (o : StockOrder) (r : Raw) : State :=
  push (setCrane (slotRead s) { s.crane with stock := [{ o with order := r, stage := .queued }] }) (.craneTaken o.idx) o.addr 0 0
theorem craneElementAnswer_done : craneElementAnswer (fresh s) o.idx q (.done d) =
    acceptOrder (elementTaken s o (lineHalves d).1) o.idx (lineHalves d).1 := by
  simp [craneElementAnswer, hstock, hstage, elementTaken, slotRead]
theorem craneElementAnswer_refused :
    craneElementAnswer (fresh s) o.idx q .refused = requeue (writeBackFlag (slotRead s)) q false := by
  simp [craneElementAnswer, writeBackFlag, hstock, hstage, slotRead]
end

/-- The order judged is returned. -/
theorem returnsOrder_returnHost {o : StockOrder} {r : Raw} {code : Nat} {l : Loc} (hc : code < 256) :
    (returnHost (elementTaken s o r) o.idx code l 0 false).stock = s.stock ∧
      returnsOrder (returnHost (elementTaken s o r) o.idx code l 0 false) o r code l := by
  have hfind : (elementTaken s o r).crane.stock.find? (·.idx == o.idx) = some { o with order := r, stage := .queued } := by
    simp [elementTaken]
  refine ⟨returnHost_stock hfind, ?_, ?_⟩
  · rw [returnHost_crane hfind]
    simp [elementTaken]
  · exact craneReturned_returnHost (o := { o with order := r, stage := .queued }) hfind hc
theorem acceptsOrder_of {o : StockOrder} {r : Raw} {j : Nat} {l : Loc} (hres : crReservedSet r = false)
    (hfind : findPlate s (crPlate r) = some j) (hpiece : acceptPiece s r j = none) (hdest : acceptDest s r j = .inr l) :
    acceptsOrder s (acceptOrder (elementTaken s o r) o.idx r) o r j l (orderSlots o.idx (plateAt s j).id l)
        (orderBay o.idx (plateAt s j).id l) ∧
      queued (acceptOrder (elementTaken s o r) o.idx r) (.writeBack (.plate j)) = true := by
  obtain ⟨hstock, hcrane, hqueued⟩ := acceptOrder_accepts (s := elementTaken s o r) (idx := o.idx) hres hfind hpiece hdest
  exact ⟨⟨hstock, hcrane.trans (by simp [elementTaken])⟩, hqueued⟩

end Sys2Proof.Machine

namespace Sys2Proof.Proofs
open Sys2Proof.Machine

/-- Settles O37: the crane ring's reads, and the order accepted or returned by the first check that it fails. -/
theorem craneRingReads : Obligations.CraneRingReads := by
  unfold Obligations.CraneRingReads
  refine ⟨fun s q i d hreq hwhat hi => ⟨fun hd hmay => ?_, fun hd => ?_, ?_⟩,
    fun s q i j o d hreq hwhat hstock hidx hstage => ?_, fun s q i hreq hwhat hno => ⟨fun d => ?_, ?_⟩⟩
  · rw [exec_craneOwnershipReadAnswer hreq hwhat, craneOwnerAnswer_done hi, if_pos (by simp [hd, hmay, ISSUED])]
    obtain ⟨htaken, hstock, -⟩ := takeCrane_takes (ringRead s)
    exact ⟨_, rfl, htaken, by rw [hstock, hi]; rfl⟩
  · rw [exec_craneOwnershipReadAnswer hreq hwhat, craneOwnerAnswer_done hi, if_neg (by simp [hd, ISSUED])]
    exact ⟨_, rfl, rfl⟩
  · rw [exec_craneOwnershipReadAnswer hreq hwhat, craneOwnerAnswer_refused]
    exact ⟨_, rfl, rfl, writeBackFlag_hall⟩
  · subst hidx
    intro r p back takes here claimed
    have hexec : exec (.craneElementReadAnswer (.done d)) s = .next (settle s (acceptOrder (elementTaken s o r) o.idx r)) :=
      (exec_craneElementReadAnswer hreq hwhat).trans
        (congrArg (fun u => Host.Outcome.next (settle s u)) (craneElementAnswer_done hstock hstage))
    have hback : ∀ code l, code < 256 → acceptOrder (elementTaken s o r) o.idx r = returnHost (elementTaken s o r) o.idx code l 0 false →
        back code l := fun code l hc heq => ⟨_, hexec.trans (by rw [heq]), returnsOrder_returnHost hc⟩
    refine ⟨fun hres => ?_, fun hres hfind => ?_, fun hres hfind => ⟨fun hst => ?_, fun hst hloc => ?_, fun hst hloc hout => ?_,
      fun hhere hclaim => ?_, fun hhere t e hclaim ht => ?_, fun hhere hclaim hsus => ?_, fun hhere hclaim hsus hst hmass => ?_,
      fun hhere hclaim hsus hmass => ?_⟩, ?_⟩
    · exact hback 1 .none (by decide) (acceptOrder_reserved hres)
    · exact hback 2 .none (by decide) (acceptOrder_unknown (s := elementTaken s o r) hres hfind)
    · exact hback 3 .lost (by decide) (acceptOrder_lost (s := elementTaken s o r) hres hfind (acceptPiece_lost hst) hst)
    · rw [← hloc]
      exact hback 3 p.loc (by decide) (acceptOrder_piece (s := elementTaken s o r) hres hfind (acceptPiece_crane hloc) hst)
    · exact hback 4 p.loc (by decide)
        (acceptOrder_piece (s := elementTaken s o r) hres hfind (acceptPiece_remnantOut hst hloc hout) hst)
    · obtain ⟨hst, hloc, hout⟩ := hhere
      exact hback 4 p.loc (by decide)
        (acceptOrder_piece (s := elementTaken s o r) hres hfind (acceptPiece_claimed hst hloc hout hclaim) hst)
    · obtain ⟨hst, hloc, hout⟩ := hhere
      exact hback 5 p.loc (by decide)
        (acceptOrder_piece (s := elementTaken s o r) hres hfind (acceptPiece_token hst hloc hout hclaim ht) hst)
    · obtain ⟨hst, hloc, hout⟩ := hhere
      exact hback 6 p.loc (by decide) (acceptOrder_piece (s := elementTaken s o r) hres hfind
        ((acceptPiece_free hst hloc hout hclaim).trans (acceptMass_suspect hsus)) hst)
    · obtain ⟨hst', hloc, hout⟩ := hhere
      exact hback 7 p.loc (by decide) (acceptOrder_piece (s := elementTaken s o r) hres hfind
        ((acceptPiece_free hst' hloc hout hclaim).trans (acceptMass_heavy hsus hst hmass)) hst')
    · obtain ⟨hst, hloc, hout⟩ := hhere
      have hpiece : acceptPiece s r j = none := (acceptPiece_free hst hloc hout hclaim).trans (acceptMass_passes hsus hmass)
      have hplace : ∀ code, code < 256 → acceptDest s r j = .inl code → back code p.loc := fun code hc hdest =>
        hback code p.loc hc (acceptOrder_place (s := elementTaken s o r) hres hfind hpiece hdest)
      have htakes : ∀ l, acceptDest s r j = .inr l → takes l (orderSlots o.idx p.id l) (orderBay o.idx p.id l) := fun l hdest =>
        ⟨_, hexec, acceptsOrder_of hres hfind hpiece hdest⟩
      refine ⟨fun b hk hn => ⟨fun hnot => ?_, fun hloc hp => ⟨fun htaken => ?_, fun hfree hbed => ?_⟩⟩, fun hk hn => ?_,
        fun hk => ⟨fun hfull => ?_, fun n hn => ?_⟩,
        fun n hk hn => ⟨fun hnot => ?_, fun hloc hlt hfits => ⟨fun hfree => ?_, fun hfree => ?_⟩⟩,
        fun hk => ⟨fun hloc => ?_, fun hloc hfull => ?_, fun hloc hroom => ?_⟩,
        fun hk => ⟨fun n hloc => ?_, fun hloc hfull => ?_, fun hloc hroom => ?_⟩, fun hk hloc => ?_⟩
      · exact hplace 8 (by decide) (acceptDest_bed_not hk hn hnot)
      · exact hplace 13 (by decide) (acceptDest_bed_taken hk hn hloc hp htaken)
      · exact htakes (.bed b) (acceptDest_bed hk hn hloc hp hfree hbed)
      · exact hplace 8 (by decide) (acceptDest_noBed hk hn)
      · exact hplace 10 (by decide) (acceptDest_autoFull hk hfull)
      · exact htakes (.rack n) (acceptDest_auto hk hn)
      · exact hplace 8 (by decide) (acceptDest_rack_not hk hn hnot)
      · exact hplace 9 (by decide) ((acceptDest_rack hk hn hloc hlt hfits).trans (by simp [hfree]))
      · exact htakes (.rack n) ((acceptDest_rack hk hn hloc hlt hfits).trans (if_pos hfree))
      · exact hplace 8 (by decide) (acceptDest_bay_same hk hloc)
      · exact hplace 11 (by decide) ((acceptDest_bay hk hloc).trans (if_neg (Nat.not_lt.2 hfull)))
      · exact htakes .overflow ((acceptDest_bay hk hloc).trans (if_pos hroom))
      · exact hplace 8 (by decide) (acceptDest_infeed_same hk hloc)
      · exact hplace 12 (by decide) ((acceptDest_infeed hk hloc).trans (if_neg (Nat.not_lt.2 hfull)))
      · exact htakes (.infeed 0) ((acceptDest_infeed hk hloc).trans (if_pos hroom))
      · exact htakes .scrap (acceptDest_scrap hk hloc)
    · rw [exec_craneElementReadAnswer hreq hwhat, craneElementAnswer_refused hstock hstage]
      exact ⟨_, rfl, rfl, rfl, writeBackFlag_hall⟩
  · rw [exec_craneElementReadAnswer hreq hwhat, craneElementAnswer_other hno]
    rfl
  · rw [exec_craneElementReadAnswer hreq hwhat, craneElementAnswer_other hno]
    exact ⟨_, rfl, rfl, rfl, writeBackFlag_hall⟩

end Sys2Proof.Proofs
end

/-! # The verification of an anchor block (R199 to R207) -/

section
namespace Sys2Proof.Machine

variable {s : State} {v : Verif} {d : Line} {f : Fail}

/-! ## A verdict (R205 to R207) -/

theorem giveVerdict_loader (c x y : Nat) : (giveVerdict s v c x y).loader = { s.loader with ver := some { v with
    stage := .writing
    verdict := some ⟨c, c != 0 && s.loader.inForce.isSome, if c == 0 then v.lost else 0, word x, word y, s.loader.commitNo,
      s.loader.commitVal, s.clock⟩ } } := by
  simp [giveVerdict, setVer]
theorem verdictOf_giveVerdict (c x y : Nat) : verdictOf (giveVerdict s v c x y) = some (c, word x, word y) := by
  simp [verdictOf, giveVerdict_loader]
theorem verdictOf_failVerdict : verdictOf (failVerdict s v f) = some (f.1, word f.2.1, word f.2.2) := verdictOf_giveVerdict ..
theorem cand_failVerdict : ((failVerdict s v f).loader.ver.bind (·.cand)) = v.cand := by simp [failVerdict, giveVerdict_loader]

/-! ## The lines of the block (R201) -/

theorem anchorNat_one : anchorNat [d] = d.toNat := by simp [anchorNat]

theorem headChecks_signature {x : Nat} (h : fld x 0 4 ≠ 0x31344850) : headChecks x = some (1, fld x 0 4, 0) := by
  simp [headChecks, Config.signature, h, vSIGNATURE]
theorem headChecks_version {x : Nat} (h : fld x 0 4 = 0x31344850) (h2 : fld x 4 2 ≠ 1) : headChecks x = some (2, fld x 4 2, 0) := by
  simp [headChecks, Config.signature, h, h2, vVERSION]
theorem headChecks_length {x : Nat} (h : fld x 0 4 = 0x31344850) (h2 : fld x 4 2 = 1)
    (h3 : fld x 6 2 < 512 ∨ 960 < fld x 6 2 ∨ fld x 6 2 % 64 ≠ 0) : headChecks x = some (3, fld x 6 2, 0) := by
  have hbad : (fld x 6 2 < 512 || 960 < fld x 6 2 || fld x 6 2 % 64 != 0) = true := by simpa [or_assoc] using h3
  simp only [headChecks, Config.signature, h, h2, hbad]
  rfl
theorem headChecks_pass {x : Nat} (h : fld x 0 4 = 0x31344850) (h2 : fld x 4 2 = 1) (hlo : 512 ≤ fld x 6 2) (hhi : fld x 6 2 ≤ 960)
    (hmod : fld x 6 2 % 64 = 0) : headChecks x = none := by
  simp [headChecks, Config.signature, h, h2, Nat.not_lt.2 hlo, Nat.not_lt.2 hhi, hmod]

/-- The verification with one more line of the block read. -/
def withLine (v : Verif) (d : Line) : Verif := { v with lines := v.lines ++ [d] }

theorem anchorLine_head_fails (hv : v.lines = []) (h : headChecks d.toNat = some f) :
    anchorLine (slotRead s) v 0 d = failVerdict (setVer (slotRead s) (withLine v d)) (withLine v d) f := by
  simp [anchorLine, hv, anchorNat_one, h, withLine]
theorem anchorLine_head (hv : v.lines = []) (h : headChecks d.toNat = none) (hlen : 64 < fld d.toNat 6 2) :
    anchorLine (slotRead s) v 0 d = pushRead (setVer (slotRead s) (withLine v d)) (.anchorLine 1) (s.loader.base + 64) := by
  simp [anchorLine, hv, anchorNat_one, h, hlen, withLine, setVer]

section
variable {n : Nat} (hn : n ≠ 0)
include hn
theorem anchorLine_more (h : 64 * (n + 1) < fld (anchorNat (v.lines ++ [d])) 6 2) : anchorLine (slotRead s) v n d =
    pushRead (setVer (slotRead s) (withLine v d)) (.anchorLine (n + 1)) (s.loader.base + 64 * (n + 1)) := by
  simp [anchorLine, hn, h, withLine, setVer]
variable (hlen : fld (anchorNat (v.lines ++ [d])) 6 2 ≤ 64 * (n + 1))
include hlen
theorem anchorLine_regions_fail (h : regionChecks s.loader.base (anchorNat (v.lines ++ [d])) = some f) :
    anchorLine (slotRead s) v n d = failVerdict (setVer (slotRead s) (withLine v d)) (withLine v d) f := by
  simp [anchorLine, hn, Nat.not_lt.2 hlen, h, withLine, setVer]
/-- The verification with the whole block read and its regions joined to the retry set (R202). -/
def withCand (v : Verif) (d : Line) : Verif := { withLine v d with cand := some (anchorOf (anchorNat (v.lines ++ [d]))) }
variable (hregions : regionChecks s.loader.base (anchorNat (v.lines ++ [d])) = none)
include hregions
theorem anchorLine_values_fail (h : valueChecks (anchorNat (v.lines ++ [d])) = some f) :
    anchorLine (slotRead s) v n d = failVerdict (setVer (slotRead s) (withLine v d)) (withCand v d) f := by
  simp [anchorLine, hn, Nat.not_lt.2 hlen, hregions, h, withLine, withCand, setVer]
theorem anchorLine_scans (h : valueChecks (anchorNat (v.lines ++ [d])) = none) : anchorLine (slotRead s) v n d =
    pushRead (setVer (setVer (slotRead s) (withLine v d)) { withCand v d with stage := .scan 0 }) (.scanRead 0 false)
      (anchorOf (anchorNat (v.lines ++ [d]))).table := by
  simp [anchorLine, hn, Nat.not_lt.2 hlen, hregions, h, withLine, withCand, setVer]
end

/-! ## Checks 4 to 11 (R201, R202) -/

section
variable {a : Anchor} {base x : Nat}

theorem alignCheck_fails {p : Nat × Nat × Nat} (h : (bases a).find? (fun p => p.2.1 % 64 != 0) = some p) :
    alignCheck a = some (5, p.1, p.2.2) := by simp [alignCheck, h, vALIGNMENT]
theorem alignCheck_passes (h : ∀ p ∈ bases a, p.2.1 % 64 = 0) : alignCheck a = none := by
  have hnone : (bases a).find? (fun p => p.2.1 % 64 != 0) = none := List.find?_eq_none.2 fun p hp => by simp [h p hp]
  simp [alignCheck, hnone]
theorem outsideCheck_size (h : a.memMiB < 16 ∨ 4096 < a.memMiB) : outsideCheck base a = some (6, 6, 0) := by
  have hbad : (a.memMiB < 16 || 4096 < a.memMiB) = true := by simpa using h
  simp only [outsideCheck, hbad]
  rfl
theorem outsideCheck_region {r : Nat × Nat × Nat × Nat} (hlo : 16 ≤ a.memMiB) (hhi : a.memMiB ≤ 4096)
    (h : (regionList base a).find? (fun r => 1048576 * a.memMiB < r.2.1 + r.2.2.1) = some r) :
    outsideCheck base a = some (6, r.1, r.2.2.2) := by
  simp [outsideCheck, Nat.not_lt.2 hlo, Nat.not_lt.2 hhi, h, vREGION_OUTSIDE]
theorem craneCount_iff {n : Nat} : (powerOfTwo n && n ≤ 64) = true ↔ n ∈ [4, 8, 16, 32, 64] := by
  simp only [powerOfTwo, Bool.and_eq_true, List.contains_eq_mem, decide_eq_true_eq, List.mem_cons, List.not_mem_nil, or_false]
  omega
theorem countCheck_crane (h : a.craneCount ∉ [4, 8, 16, 32, 64]) : countCheck a = some (8, 11, 0) :=
  if_pos (by simpa only [Bool.not_eq_true', Bool.not_eq_true] using (Bool.not_eq_true _).mp (mt craneCount_iff.1 h))
theorem countCheck_beds (h : a.craneCount ∈ [4, 8, 16, 32, 64]) : countCheck a =
    ((presentBeds a).find? (fun b => !powerOfTwo (a.beds.get b).count)).map (fun b => (8, 14, bedNum b)) :=
  if_neg (by rw [craneCount_iff.2 h]; decide)
theorem capacityCheck_fails (h : a.capacity < 64 ∨ 1024 < a.capacity ∨ a.capacity % 64 ≠ 0) :
    capacityCheck a = some (9, a.capacity, 0) := if_pos (by simpa [or_assoc] using h)

theorem regionChecks_sum (h : checksum x (fld x 6 2) ≠ 0) : regionChecks base x = some (4, checksum x (fld x 6 2), 0) :=
  if_pos (by simpa using h)
theorem regionChecks_rest (h : checksum x (fld x 6 2) = 0) : regionChecks base x = ((alignCheck (anchorOf x)).or <|
    (outsideCheck base (anchorOf x)).or <| (overlapIn (regionList base (anchorOf x))).or <|
      (countCheck (anchorOf x)).or (capacityCheck (anchorOf x))) := if_neg (by simp [h])
theorem valueChecks_param (h : paramCheck x (fld x 6 2) (anchorOf x) = some f) : valueChecks x = some f := by
  simp [valueChecks, h]
theorem valueChecks_beds (h : paramCheck x (fld x 6 2) (anchorOf x) = none) :
    valueChecks x = if (presentBeds (anchorOf x)).isEmpty then some (11, 0, 0) else none := by
  simp [valueChecks, h, vNO_BED]
end

theorem mustRetry_of_cand {a : Anchor} {t : Transaction} (hmode : s.cmd.mode ≠ .startUp) (hver : s.loader.ver = some v)
    (hcand : v.cand = some a) (ht : ∃ r ∈ regionsOf s.loader.base a, touches t r.2.1 r.2.2 = true) : mustRetry s t = true := by
  obtain ⟨r, hr, htouch⟩ := ht
  have hset : retrySet s = watched s ++ (regionsOf s.loader.base a).map (·.2) := by simp [retrySet, hmode, hver, hcand]
  rw [mustRetry, hset, List.any_append, Bool.or_eq_true]
  exact .inr (List.any_eq_true.2 ⟨r.2, List.mem_map.2 ⟨r, hr, rfl⟩, htouch⟩)

/-! ## The collection checks (R204) -/

section
variable {a : Anchor} {t : List Plate}

/-- The first record that has the ID of a lower one. -/
def idClash (t : List Plate) : Option (Nat × Nat) := firstClash t (fun p q => p.st != .empty && q.st != .empty && p.id == q.id)
/-- The first record in a slot beyond those configured. -/
def slotBeyond (slots : Nat) (t : List Plate) : Option (Nat × Nat) :=
  t.zipIdx.findSome? (fun p => match rackOf p.1 with | some n => if slots ≤ n then some (p.2, n) else none | none => none)
/-- The first record in the slot of a lower one. -/
def slotClash (t : List Plate) : Option (Nat × Nat) := firstClash t (fun p q => (rackOf p).isSome && rackOf p == rackOf q)
/-- The places counted in the overflow bay. -/
def inBay (t : List Plate) : Nat := (t.filter (fun p => p.located && p.loc == .overflow)).length
/-- The checks of infeed and overflow bay. -/
def bayChecks (t : List Plate) : Option Fail :=
  if !(List.range (infeedLevels t).length).all (fun k => (infeedLevels t).contains (k + 1)) then some (13, (infeedLevels t).length, 2)
  else if 8 < inBay t then some (13, inBay t, 3) else none
theorem tableChecks_eq : tableChecks a t = (((idClash t).map fun p => (14, p.1, p.2)).or <|
    ((slotBeyond (a.classS.count + a.classM.count + a.classL.count) t).map fun p => (15, p.1, p.2)).or <|
      ((slotClash t).map fun p => (15, p.1, p.2)).or (bayChecks t)) := by
  unfold tableChecks
  dsimp only
  split
  case h_1 i j h =>
    have hid : idClash t = some (i, j) := h
    rw [hid]
    rfl
  case h_2 h =>
    have hid : idClash t = none := h
    rw [hid]
    split
    case h_1 i n h =>
      have hslot : slotBeyond (a.classS.count + a.classM.count + a.classL.count) t = some (i, n) := h
      rw [hslot]
      rfl
    case h_2 h =>
      have hslot : slotBeyond (a.classS.count + a.classM.count + a.classL.count) t = none := h
      rw [hslot]
      split
      case h_1 i j h =>
        have hclash : slotClash t = some (i, j) := h
        rw [hclash]
        rfl
      case h_2 h =>
        have hclash : slotClash t = none := h
        rw [hclash]
        rfl
theorem bayChecks_level (h : ∃ k, k < (infeedLevels t).length ∧ k + 1 ∉ infeedLevels t) :
    bayChecks t = some (13, (infeedLevels t).length, 2) := by
  obtain ⟨k, hk, hno⟩ := h
  refine if_pos ?_
  rw [Bool.not_eq_true', List.all_eq_false]
  exact ⟨k, List.mem_range.2 hk, by simpa using hno⟩
theorem bayChecks_bay (h : ∀ k, k < (infeedLevels t).length → k + 1 ∈ infeedLevels t) :
    bayChecks t = if 8 < inBay t then some (13, inBay t, 3) else none := by
  refine if_neg ?_
  rw [Bool.not_eq_true', Bool.not_eq_false, List.all_eq_true]
  exact fun k hk => by simpa using h k (List.mem_range.1 hk)
end

end Sys2Proof.Machine
end

/-! # The table scan and the end of a verification (R203 to R207) -/

section
namespace Sys2Proof.Machine

variable {s : State} {v : Verif} {a : Anchor} {i : Nat} {l d : Line} {p : Plate}

/-! ## The scan (R203) -/

/-- The verification with record `i` judged. -/
def scanned (v : Verif) (a : Anchor) (i : Nat) (l d : Line) (p : Plate) : Verif :=
  { v with
    stage := .scan (i + 1), first := none, table := v.table ++ [(fixup a p).1]
    changed := if scanChanged l d (fixup a p).2 then v.changed ++ [i] else v.changed
    lost := if (fixup a p).2 then v.lost + 1 else v.lost }
theorem scanLine_form (hfirst : v.first = some l) (h : Plate.scan? l d = none) :
    scanLine (slotRead s) v a i true d = failVerdict (slotRead s) v (13, i, 1) := by
  simp [scanLine, scanSecond, hfirst, h, vTABLE_FORM]
section
variable (hfirst : v.first = some l) (hp : Plate.scan? l d = some p)
include hfirst hp
theorem scanLine_more (h : i + 1 < a.capacity) : scanLine (slotRead s) v a i true d =
    pushRead (setVer (slotRead s) (scanned v a i l d p)) (.scanRead (i + 1) false) (a.table + 128 * (i + 1)) := by
  simp [scanLine, scanSecond, hfirst, hp, h, scanned]
theorem scanLine_last (h : a.capacity ≤ i + 1) : scanLine (slotRead s) v a i true d =
    scanEnd (setVer (slotRead s) (scanned v a i l d p)) (scanned v a i l d p) a := by
  simp [scanLine, scanSecond, hfirst, hp, Nat.not_lt.2 h, scanned]
end
theorem changed_scanned : (marksChanged l d (fixup a p).2 → (scanned v a i l d p).changed = v.changed ++ [i]) ∧
    (¬marksChanged l d (fixup a p).2 → (scanned v a i l d p).changed = v.changed) := by
  refine ⟨fun h => if_pos ((scanChanged_iff ..).2 h), fun h => if_neg fun hc => h ((scanChanged_iff ..).1 hc)⟩
theorem mem_changed_scanned {k : Nat} :
    k ∈ (scanned v a i l d p).changed ↔ k ∈ v.changed ∨ (k = i ∧ marksChanged l d (fixup a p).2) := by
  by_cases h : marksChanged l d (fixup a p).2
  · simp [changed_scanned.1 h, h]
  · simp [changed_scanned.2 h, h]

/-! ## Its end (R204, R205) -/

theorem queued_returnHost {n m idx : Nat} {x : Loc} {k : Bool} (r : RecId) :
    queued (returnHost s idx n x m k) (.writeBack r) = queued s (.writeBack r) ∧ (returnHost s idx n x m k).loader = s.loader := by
  unfold returnHost
  split
  · exact ⟨rfl, rfl⟩
  · dsimp only
    split <;> split <;> split <;> simp [queued, releaseClaim, releaseRes, setOrder]
theorem queued_returnHeld (s : State) (r : RecId) :
    queued (returnHeld s) (.writeBack r) = queued s (.writeBack r) ∧ (returnHeld s).loader = s.loader := by
  have hfold : ∀ (l : List StockOrder) (t : State),
      queued (l.foldl (fun s o => returnHost s o.idx cABORTED_HALT (orderLoc s o) (heldMass s o) false) t) (.writeBack r) =
          queued t (.writeBack r) ∧
        (l.foldl (fun s o => returnHost s o.idx cABORTED_HALT (orderLoc s o) (heldMass s o) false) t).loader = t.loader := fun l => by
    induction l with
    | nil => exact fun t => ⟨rfl, rfl⟩
    | cons o l ih =>
      intro t
      obtain ⟨hq, hl⟩ := queued_returnHost (s := t) (idx := o.idx) (n := cABORTED_HALT) (x := orderLoc t o) (m := heldMass t o)
        (k := false) r
      exact ⟨(ih _).1.trans hq, (ih _).2.trans hl⟩
  exact hfold _ s
theorem queued_foldl_pushWb (f : Nat → RecId) (ks : List Nat) (r : RecId) :
    queued (ks.foldl (fun s i => pushWb s (f i)) s) (.writeBack r) = (queued s (.writeBack r) || decide (r ∈ ks.map f)) ∧
      (ks.foldl (fun s i => pushWb s (f i)) s).loader = s.loader := by
  induction ks generalizing s with
  | nil => simp
  | cons k ks ih =>
    obtain ⟨hq, hl⟩ := ih (s := pushWb s (f k))
    refine ⟨?_, hl.trans (by simp)⟩
    rw [List.foldl_cons, hq, queued_pushWb, Bool.or_assoc]
    by_cases hr : f k = r
    · simp [hr]
    · simp [hr, Ne.symm hr]

theorem scanEnd_fails {f : Fail} (h : tableChecks a v.table = some f) : scanEnd s v a = failVerdict s v f := by simp [scanEnd, h]
/-- The state in which the verdict of a scan that succeeded is given. -/
def scanWritten (s : State) (v : Verif) (a : Anchor) : State :=
  v.changed.foldl (fun s i => pushWb s (.scan i)) (if craneRingChanges s a then returnHeld s else s)
theorem scanEnd_passes (h : tableChecks a v.table = none) : scanEnd s v a = giveVerdict (scanWritten s v a) v 0 0 0 := by
  simp [scanEnd, h, scanWritten]
theorem queued_scanWritten (r : RecId) :
    queued (scanWritten s v a) (.writeBack r) = (queued s (.writeBack r) || decide (r ∈ v.changed.map .scan)) := by
  have hret : queued (if craneRingChanges s a then returnHeld s else s) (.writeBack r) = queued s (.writeBack r) := by
    split
    · exact (queued_returnHeld s r).1
    · rfl
  rw [scanWritten, (queued_foldl_pushWb ..).1, hret]
theorem queued_giveVerdict {c x y : Nat} (r : RecId) :
    queued (giveVerdict s v c x y) (.writeBack r) = (queued s (.writeBack r) || decide (.verdict = r)) := queued_pushWb
theorem giveVerdict_last {c x y : Nat} (h : queued s (.writeBack .verdict) = false) :
    ((giveVerdict s v c x y).engine.queue.getLast?.map (·.what)) = some (.writeBack .verdict) := by
  have hno : ∀ w, queued (setVer s w) (.writeBack .verdict) = false := fun _ => h
  simp [giveVerdict, pushWb, hno]

/-! ## Putting an anchor in force (R205) -/

theorem foldl_pushControl_kept (rs : List RecId) (s : State) :
    (rs.foldl pushControl s).cmd = s.cmd ∧ (rs.foldl pushControl s).loader = s.loader ∧ (rs.foldl pushControl s).stock = s.stock ∧
      (rs.foldl pushControl s).arb = s.arb ∧ (rs.foldl pushControl s).faults = s.faults ∧
      (rs.foldl pushControl s).engine.refused = s.engine.refused := by
  induction rs generalizing s with
  | nil => exact ⟨rfl, rfl, rfl, rfl, rfl, rfl⟩
  | cons r rs ih =>
    obtain ⟨hcmd, hloader, hstock, harb, hfaults, hrefused⟩ := ih (pushControl s r)
    have hkeep : (pushControl s r).engine.refused = s.engine.refused := by
      unfold pushControl pushWb
      split
      · split <;> rfl
      · rfl
    exact ⟨hcmd.trans (by simp), hloader.trans (by simp), hstock.trans (by simp), harb.trans (by simp), hfaults.trans (by simp),
      hrefused.trans hkeep⟩
/-- The beds and the crane controller under a new anchor. -/
def anchorTaken (s : State) (a : Anchor) : State := dropMoveRes (takeBeds (takeCraneCfg s a) a)
theorem anchorTaken_kept : (anchorTaken s a).cmd = s.cmd ∧ (anchorTaken s a).loader = s.loader ∧
    (anchorTaken s a).stock = s.stock ∧ (anchorTaken s a).faults = s.faults ∧ (anchorTaken s a).engine = s.engine := by
  have hcfg : (takeCraneCfg s a).cmd = s.cmd ∧ (takeCraneCfg s a).loader = s.loader ∧ (takeCraneCfg s a).stock = s.stock ∧
      (takeCraneCfg s a).faults = s.faults ∧ (takeCraneCfg s a).engine = s.engine := by
    unfold takeCraneCfg
    dsimp only
    split <;> exact ⟨rfl, rfl, rfl, rfl, rfl⟩
  simpa [anchorTaken, takeBeds] using hcfg
/-- The anchor in force with the table scanned, before its first records are written. -/
def tableTaken (s : State) (a : Anchor) (t : List Plate) : State :=
  let u := setLoader (anchorTaken s a) { (anchorTaken s a).loader with inForce := some a }
  let u := setStock u { u.stock with table := t, reservedIds := [], waiters := [], slotRes := [], overRes := [],
                                     infeedRes := none, releases := [] }
  let u := setEngine u { u.engine with refused := takeRefused u.engine.refused }
  setArb u (.empty (some a.permits))
theorem putInForce_eq (t : List Plate) : putInForce s a t = firstRecords.foldl pushControl (watchStart (tableTaken s a t)) := rfl
theorem putInForce_kept (t : List Plate) : (putInForce s a t).cmd = s.cmd ∧
    (putInForce s a t).loader = { s.loader with inForce := some a } ∧ (putInForce s a t).stock.table = t ∧
    (putInForce s a t).stock.tokenCtr = s.stock.tokenCtr ∧ (putInForce s a t).arb = .empty (some a.permits) ∧
    (putInForce s a t).faults.hall = s.faults.hall ∧ (putInForce s a t).engine.refused = takeRefused s.engine.refused := by
  obtain ⟨hcmd, hloader, hstock, hfaults, hengine⟩ := anchorTaken_kept (s := s) (a := a)
  obtain ⟨kcmd, kloader, kstock, karb, kfaults, krefused⟩ := foldl_pushControl_kept firstRecords (watchStart (tableTaken s a t))
  rw [putInForce_eq, kcmd, kloader, kstock, karb, kfaults, krefused, watchStart_faults]
  simp [tableTaken, hcmd, hloader, hstock, hfaults, hengine]
theorem mem_takeRefused_verdict {rs : List RecId} : RecId.verdict ∈ takeRefused rs ↔ .verdict ∈ rs := by
  simp only [takeRefused, List.mem_filterMap]
  constructor
  · rintro ⟨r, hr, hv⟩
    cases r with
    | verdict => exact hr
    | plate i => simp at hv
    | scan i => simp at hv
    | _ => simp at hv
  · exact fun h => ⟨.verdict, h, rfl⟩

/-! ## The verdict's write answered (R205 to R207) -/

/-- The verification has ended and its verdict is kept. -/
def verdictKept (s : State) (v : Verif) : State :=
  let t := setLoader s { s.loader with ver := none, verdict := v.verdict.or s.loader.verdict }
  pushControl (if t.cmd.mode == .startUp then setMode t .halt .none else t) .hall
theorem endVerification_commits {x : Verdict} (hx : v.verdict = some x) (hc : x.code = 0) (ha : v.cand = some a) :
    endVerification s v = verdictKept (putInForce s a v.table) v := by simp [endVerification, hx, hc, ha, verdictKept]
theorem endVerification_fails {x : Verdict} (hx : v.verdict = some x) (hc : x.code ≠ 0 ∨ v.cand = none) :
    endVerification s v = verdictKept s v := by
  cases hcand : v.cand with
  | none => simp [endVerification, hx, hcand, verdictKept]
  | some a =>
    have hne : x.code ≠ 0 := hc.resolve_right (by simp [hcand])
    simp [endVerification, hx, hcand, hne, verdictKept]
theorem verdictKept_kept {x : Verdict} (hx : v.verdict = some x) :
    (verdictKept s v).loader = { s.loader with ver := none, verdict := some x } ∧ (verdictKept s v).stock = s.stock ∧
      (verdictKept s v).arb = s.arb ∧ (verdictKept s v).faults = s.faults ∧
      (verdictKept s v).engine.refused = s.engine.refused ∧
      (verdictKept s v).cmd.mode = (if s.cmd.mode = .startUp then .halt else s.cmd.mode) ∧
      (s.loader.inForce.isSome = true → queued (verdictKept s v) (.writeBack .hall) = true) := by
  have hmode : ∀ t : State, (if t.cmd.mode == .startUp then setMode t .halt .none else t).cmd.mode =
        (if t.cmd.mode = .startUp then .halt else t.cmd.mode) ∧
      (if t.cmd.mode == .startUp then setMode t .halt .none else t).loader = t.loader ∧
      (if t.cmd.mode == .startUp then setMode t .halt .none else t).stock = t.stock ∧
      (if t.cmd.mode == .startUp then setMode t .halt .none else t).arb = t.arb ∧
      (if t.cmd.mode == .startUp then setMode t .halt .none else t).faults = t.faults ∧
      (if t.cmd.mode == .startUp then setMode t .halt .none else t).engine = t.engine := fun t => by
    by_cases h : t.cmd.mode = .startUp <;> simp [h]
  obtain ⟨tmode, tloader, tstock, tarb, tfaults, tengine⟩ :=
    hmode (setLoader s { s.loader with ver := none, verdict := v.verdict.or s.loader.verdict })
  obtain ⟨kcmd, kloader, kstock, karb, kfaults, krefused⟩ := foldl_pushControl_kept [.hall]
    (if (setLoader s { s.loader with ver := none, verdict := v.verdict.or s.loader.verdict }).cmd.mode == .startUp then
      setMode (setLoader s { s.loader with ver := none, verdict := v.verdict.or s.loader.verdict }) .halt .none
      else setLoader s { s.loader with ver := none, verdict := v.verdict.or s.loader.verdict })
  refine ⟨(kloader.trans tloader).trans (by simp [hx]), kstock.trans tstock, karb.trans tarb, kfaults.trans tfaults,
    krefused.trans (congrArg (·.refused) tengine), (congrArg (·.mode) kcmd).trans tmode, fun h => ?_⟩
  unfold verdictKept
  dsimp only
  rw [pushControl_of_inForce (by rw [tloader]; exact h)]
  exact queued_pushWb_self ..

/-- The verdict's write leaves the engine, refused or not. -/
def verdictWritten (s : State) : Ack → State
  | .done => setEngine (slotRead s) { (slotRead s).engine with refused := s.engine.refused.filter (· != .verdict) }
  | .refused => writeBackFlag (setEngine (slotRead s) { (slotRead s).engine with
      refused := s.engine.refused.filter (· != .verdict) ++ [.verdict] })
theorem verdictAnswer_eq (k : Ack) : verdictAnswer (fresh s) v k = endVerification (verdictWritten s k) v := by cases k <;> rfl

end Sys2Proof.Machine

namespace Sys2Proof.Proofs
open Sys2Proof.Machine

/-- Settles O38: the block's checks, the table scan, and the end of the verification with its verdict. -/
theorem verification : Obligations.Verification := by
  unfold Obligations.Verification
  refine ⟨fun s q v n d hreq hwhat hver => ?_, fun s q v n d hreq hwhat hver hn => ?_,
    fun s v a t hmode hver hcand ht => mustRetry_of_cand hmode hver hcand ht,
    fun s q v a i l d p hreq hver hcand hwhat hfirst hp hcap => ?_, fun s q v a i d hreq hver hcand => ?_,
    fun s q v x hreq hwhat hver hx => ?_⟩
  · have hexec : exec (.anchorReadAnswer (.done d)) s = .next (settle s (anchorLine (slotRead s) v n d)) :=
      exec_anchorReadAnswer hreq hwhat hver
    refine ⟨fun hn hv hsig hvers hlo hhi hmod => ?_, fun hn hv => ?_, ?_⟩
    · subst hn
      have hlen : 64 < fld d.toNat 6 2 := by omega
      rw [hexec, anchorLine_head hv (headChecks_pass hsig hvers hlo hhi hmod) hlen]
      exact ⟨_, rfl, by simp [pushRead, setVer, withLine, hv], rfl⟩
    · subst hn
      have hfails : ∀ c d1, headChecks d.toNat = some (c, d1, 0) →
          ∃ u, exec (.anchorReadAnswer (.done d)) s = .next (settle s u) ∧ verdictOf u = some (c, word d1, word 0) := fun c d1 h =>
        ⟨_, hexec.trans (by rw [anchorLine_head_fails hv h]), verdictOf_failVerdict⟩
      exact ⟨fun h => hfails _ _ (headChecks_signature h), fun h h2 => hfails _ _ (headChecks_version h h2),
        fun h h2 h3 => hfails _ _ (headChecks_length h h2 h3)⟩
    · exact ⟨_, exec_anchorReadAnswer hreq hwhat hver, verdictOf_failVerdict⟩
  · intro x len a base fails failsJoined
    have hexec : exec (.anchorReadAnswer (.done d)) s = .next (settle s (anchorLine (slotRead s) v n d)) :=
      exec_anchorReadAnswer hreq hwhat hver
    refine ⟨fun hmore => ?_, fun hlen => ?_⟩
    · exact ⟨_, hexec.trans (by rw [anchorLine_more hn hmore]), rfl, rfl⟩
    have hregion : ∀ f, regionChecks base x = some f → fails f := fun f h =>
      ⟨_, hexec.trans (by rw [anchorLine_regions_fail hn hlen h]), verdictOf_failVerdict⟩
    refine ⟨fun hsum => hregion _ (regionChecks_sum hsum), fun hsum => ?_, fun hregions => ?_⟩
    · have hrest := regionChecks_rest (base := base) hsum
      refine ⟨fun p hp => hregion _ (hrest.trans (by rw [alignCheck_fails hp]; rfl)), fun halign => ?_⟩
      rw [alignCheck_passes halign, Option.none_or] at hrest
      refine ⟨fun hsize => hregion _ (hrest.trans (by rw [outsideCheck_size hsize]; rfl)),
        fun r hlo hhi hr => hregion _ (hrest.trans (by rw [outsideCheck_region hlo hhi hr]; rfl)), fun hout => ?_⟩
      rw [hout, Option.none_or] at hrest
      refine ⟨fun f hf => hregion _ (hrest.trans (by rw [hf]; rfl)), fun hover => ?_⟩
      rw [hover, Option.none_or] at hrest
      refine ⟨fun hcount => hregion _ (hrest.trans (by rw [countCheck_crane hcount]; rfl)), fun hcount => ?_⟩
      refine ⟨fun b hb => hregion _ (hrest.trans (by rw [countCheck_beds hcount, hb]; rfl)), fun hbeds hcap => ?_⟩
      have hnone : (presentBeds a).find? (fun b => !powerOfTwo (a.beds.get b).count) = none :=
        List.find?_eq_none.2 fun b hb => by simp [hbeds b hb]
      exact hregion _ (hrest.trans (by rw [countCheck_beds hcount, hnone, capacityCheck_fails hcap]; rfl))
    · have hvalue : ∀ f, valueChecks x = some f → failsJoined f := fun f h =>
        ⟨_, hexec.trans (by rw [anchorLine_values_fail hn hlen hregions h]), verdictOf_failVerdict, cand_failVerdict⟩
      refine ⟨fun f hf => hvalue f (valueChecks_param hf), fun hparam hno => ?_, fun hparam hsome => ?_⟩
      · exact hvalue _ ((valueChecks_beds hparam).trans (if_pos (by simpa using hno)))
      · have hpass : valueChecks x = none := (valueChecks_beds hparam).trans (if_neg (by simpa using hsome))
        exact ⟨_, hexec.trans (by rw [anchorLine_scans hn hlen hregions hpass]), rfl, rfl⟩
  · intro tbl slots dup far shared levels bay gives'
    have hexec : exec (.tableScanReadAnswer (.done d)) s =
        .next (settle s (scanEnd (setVer (slotRead s) (scanned v a i l d p)) (scanned v a i l d p) a)) :=
      (exec_tableScanReadAnswer hreq hwhat hver hcand).trans
        (congrArg (fun u => Host.Outcome.next (settle s u)) (scanLine_last hfirst hp hcap))
    have hgives : ∀ f, tableChecks a tbl = some f → gives' f.1 f.2.1 f.2.2 := fun f h =>
      ⟨_, hexec.trans (by rw [scanEnd_fails h]), verdictOf_failVerdict⟩
    refine ⟨fun k j hdup => ?_, fun k n hdup hfar => ?_, fun k j hdup hfar hshared => ?_, fun hdup hfar hshared => ?_⟩
    · have hid : idClash tbl = some (k, j) := hdup
      exact hgives _ (tableChecks_eq.trans (by rw [hid]; rfl))
    all_goals
      have hid : idClash tbl = none := hdup
    · have hslot : slotBeyond slots tbl = some (k, n) := hfar
      exact hgives _ (tableChecks_eq.trans (by rw [hid, hslot]; rfl))
    all_goals
      have hslot : slotBeyond slots tbl = none := hfar
    · have hclash : slotClash tbl = some (k, j) := hshared
      exact hgives _ (tableChecks_eq.trans (by rw [hid, hslot, hclash]; rfl))
    have hclash : slotClash tbl = none := hshared
    have hbay : tableChecks a tbl = bayChecks tbl := tableChecks_eq.trans (by rw [hid, hslot, hclash]; rfl)
    refine ⟨fun hlevel => hgives _ (hbay.trans (bayChecks_level hlevel)), fun hlevels => ⟨fun hfull => ?_, fun hroom => ?_⟩⟩
    · exact hgives _ (hbay.trans ((bayChecks_bay hlevels).trans (if_pos hfull)))
    · have hpass : tableChecks a (scanned v a i l d p).table = none :=
        hbay.trans ((bayChecks_bay hlevels).trans (if_neg (Nat.not_lt.2 hroom)))
      have hbase : ∀ r, queued (setVer (slotRead s) (scanned v a i l d p)) (.writeBack r) = queued s (.writeBack r) := fun _ => rfl
      refine ⟨_, hexec.trans (by rw [scanEnd_passes hpass]), verdictOf_giveVerdict .., ?_, ?_, fun k hk => ?_, fun k hk => ?_,
        fun hno => giveVerdict_last ?_⟩
      · rw [giveVerdict_loader]
        rfl
      · rw [giveVerdict_loader]
        rfl
      · rw [queued_giveVerdict, queued_scanWritten]
        simp [mem_changed_scanned.2 hk]
      · rw [queued_giveVerdict, queued_scanWritten, hbase] at hk
        have hold : queued s (.writeBack (.scan k)) = true ∨ k ∈ (scanned v a i l d p).changed := by simpa using hk
        exact hold.imp_right mem_changed_scanned.1
      · rw [queued_scanWritten, hbase, hno]
        simp
  · refine ⟨fun hwhat => ?_, fun hwhat l p hfirst hp hmore => ?_, fun hwhat l hfirst hp => ?_, fun k hwhat => ?_⟩
    · exact ⟨_, exec_tableScanReadAnswer hreq hwhat hver hcand, rfl⟩
    · refine ⟨_, (exec_tableScanReadAnswer hreq hwhat hver hcand).trans
        (congrArg (fun u => Host.Outcome.next (settle s u)) (scanLine_more hfirst hp hmore)), rfl, fun h => ?_, fun h => ?_⟩
      · exact congrArg some (changed_scanned.1 h)
      · exact congrArg some (changed_scanned.2 h)
    · exact ⟨_, (exec_tableScanReadAnswer hreq hwhat hver hcand).trans
        (congrArg (fun u => Host.Outcome.next (settle s u)) (scanLine_form hfirst hp)), verdictOf_failVerdict⟩
    · exact ⟨_, exec_tableScanReadAnswer hreq hwhat hver hcand, verdictOf_failVerdict⟩
  · refine ⟨fun a hc hcand => ?_, fun hc => ?_, ?_⟩
    · obtain ⟨kloader, kstock, karb, -, -, kmode, kqueued⟩ := verdictKept_kept (s := putInForce (verdictWritten s .done) a v.table) hx
      obtain ⟨pcmd, ploader, ptable, ptoken, parb, -, -⟩ := putInForce_kept (s := verdictWritten s .done) (a := a) v.table
      rw [exec_verdictWriteAnswer hreq hwhat hver, verdictAnswer_eq, endVerification_commits hx hc hcand]
      refine ⟨_, rfl, by rw [kloader, ploader], by rw [kloader], by rw [kloader], by rw [kstock, ptable], ?_,
        by rw [karb, parb], by rw [karb, parb], kqueued (by rw [ploader]; rfl), ?_⟩
      · rw [kstock, ptoken]
        rfl
      · rw [kmode, pcmd]
        rfl
    · obtain ⟨kloader, kstock, karb, -, -, kmode, kqueued⟩ := verdictKept_kept (s := verdictWritten s .done) hx
      rw [exec_verdictWriteAnswer hreq hwhat hver, verdictAnswer_eq, endVerification_fails hx (.inl hc)]
      exact ⟨_, rfl, by rw [kloader]; rfl, by rw [kloader], by rw [kloader], kstock, karb, kqueued, kmode⟩
    · have hwritten : hasBit (verdictWritten s .refused).faults.hall.flags fhWRITE_BACK = true ∧
          RecId.verdict ∈ (verdictWritten s .refused).engine.refused :=
        ⟨writeBackFlag_hall, by simp [verdictWritten, writeBackFlag]⟩
      rw [exec_verdictWriteAnswer hreq hwhat hver, verdictAnswer_eq]
      by_cases hc : x.code ≠ 0 ∨ v.cand = none
      · obtain ⟨kloader, -, -, kfaults, krefused, -⟩ := verdictKept_kept (s := verdictWritten s .refused) hx
        rw [endVerification_fails hx hc]
        exact ⟨_, rfl, by rw [kloader], by rw [kloader], by rw [kfaults]; exact hwritten.1, by rw [krefused]; exact hwritten.2⟩
      · obtain ⟨hzero, hcand⟩ := not_or.1 hc
        obtain ⟨a, ha⟩ := Option.ne_none_iff_exists'.1 hcand
        obtain ⟨kloader, -, -, kfaults, krefused, -⟩ :=
          verdictKept_kept (s := putInForce (verdictWritten s .refused) a v.table) hx
        obtain ⟨-, -, -, -, -, phall, prefused⟩ := putInForce_kept (s := verdictWritten s .refused) (a := a) v.table
        rw [endVerification_commits hx (not_not.1 hzero) ha]
        exact ⟨_, rfl, by rw [kloader], by rw [kloader], by rw [kfaults, phall]; exact hwritten.1,
          by rw [krefused, prefused]; exact mem_takeRefused_verdict.2 hwritten.2⟩

end Sys2Proof.Proofs
end

/-! # Requests to the stock unit and the lock table (R7, R9 to R11, R36, R48 to R50, R52 to R54) -/

section
namespace Sys2Proof.Machine

variable {s : State} {b : BedId} {h : Hand} {i : Nat}

/-! ## The plate lookup (R48, R49) -/

/-- What a lookup tells a bed about record `i`. -/
def lookOf (s : State) (b : BedId) (i : Nat) : Look :=
  ⟨i, (plateAt s i).thickness, (plateAt s i).length, (plateAt s i).width, (plateAt s i).suspect && (plateAt s i).loc != .bed b⟩
/-- The bed with its plate looked up. -/
def lookedUp (s : State) (b : BedId) (h : Hand) (i : Nat) : State :=
  setRun (fresh s) b { runOf s b with hand := some { h with look := some (lookOf s b i) } }
@[simp] theorem runOf_lookedUp : runOf (lookedUp s b h i) b =
    { runOf s b with hand := some { h with look := some (lookOf s b i) } } := by simp [lookedUp]
theorem lookOf_away_true (hs : (plateAt s i).suspect = true) (hl : (plateAt s i).loc ≠ .bed b) : (lookOf s b i).away = true := by
  simp [lookOf, hs, hl]
theorem lookOf_away_false (hs : (plateAt s i).suspect = false ∨ (plateAt s i).loc = .bed b) : (lookOf s b i).away = false := by
  rcases hs with hs | hs <;> simp [lookOf, hs]

theorem plateLookup_unknown (k : Bool) (hf : findPlate s (ordPlate h.order) = none) :
    plateLookup (fresh s) b k h = rejectOrder (fresh s) b 2 := by
  have hf' : findPlate (fresh s) (ordPlate h.order) = none := hf
  simp [plateLookup, hf']
section
variable (k : Bool) (hf : findPlate s (ordPlate h.order) = some i)
include hf
theorem plateLookup_cut (hst : (plateAt s i).st = .skeleton ∨ (plateAt s i).st = .lost) :
    plateLookup (fresh s) b k h = rejectOrder (fresh s) b 3 := by
  have hf' : findPlate (fresh s) (ordPlate h.order) = some i := hf
  have hst' : (plateAt (fresh s) i).st = .skeleton ∨ (plateAt (fresh s) i).st = .lost := hst
  have hbad : ((plateAt (fresh s) i).st == .skeleton || (plateAt (fresh s) i).st == .lost) = true := by simpa using hst'
  simp only [plateLookup, hf', hbad]
  rfl
variable (hst : (plateAt s i).st = .stock)
include hst
theorem plateLookup_thick (ht : (bedCfg s b).thick < (plateAt s i).thickness) :
    plateLookup (fresh s) b k h = rejectOrder (fresh s) b 4 := by
  have hf' : findPlate (fresh s) (ordPlate h.order) = some i := hf
  have hst' : (plateAt (fresh s) i).st = .stock := hst
  simp only [plateLookup, hf', hst']
  exact if_pos ht
variable (ht : (plateAt s i).thickness ≤ (bedCfg s b).thick)
include ht
theorem plateLookup_place : plateLookup (fresh s) b k h = if bedOccupied s b (ordPlate h.order) then rejectOrder (fresh s) b 5
    else if k then check11 (lookedUp s b h i) b
    else listChecks (lookedUp s b h i) b { h with look := some (lookOf s b i) } := by
  have hf' : findPlate (fresh s) (ordPlate h.order) = some i := hf
  have hst' : (plateAt (fresh s) i).st = .stock := hst
  simp only [plateLookup, hf', hst']
  exact if_neg (Nat.not_lt.2 ht)
theorem plateLookup_occupied (ho : bedOccupied s b (ordPlate h.order) = true) :
    plateLookup (fresh s) b k h = rejectOrder (fresh s) b 5 := (plateLookup_place k hf hst ht).trans (if_pos ho)
theorem plateLookup_again (ho : bedOccupied s b (ordPlate h.order) = false) :
    plateLookup (fresh s) b true h = check11 (lookedUp s b h i) b := (plateLookup_place true hf hst ht).trans (by simp [ho])
theorem plateLookup_first (ho : bedOccupied s b (ordPlate h.order) = false) :
    plateLookup (fresh s) b false h = listChecks (lookedUp s b h i) b { h with look := some (lookOf s b i) } :=
  (plateLookup_place false hf hst ht).trans (by simp [ho])
end

/-- The lists of an order lie where they may. -/
def listsPlaced (s : State) (o : Line) : Prop :=
  listAddressOk s (ordSegAddr o) (32 * ordSteps o) = true ∧
    (0 < ordMarks o → listAddressOk s (ordMarkAddr o) (32 * ordMarks o) = true)
theorem listChecks_address (hp : ¬listsPlaced s h.order) : listChecks s b h = rejectOrder s b 6 := by
  refine if_pos ?_
  by_cases hseg : listAddressOk s (ordSegAddr h.order) (32 * ordSteps h.order) = true
  · have hmarks : ¬(0 < ordMarks h.order → listAddressOk s (ordMarkAddr h.order) (32 * ordMarks h.order) = true) := fun hm => hp ⟨hseg, hm⟩
    simpa [hseg, Classical.not_imp] using hmarks
  · simp [hseg]
theorem listChecks_placed (hp : listsPlaced s h.order) : listChecks s b h =
    if ordSteps h.order == 0 then rejectOrder s b 7
    else if 64 < ordMarks h.order then rejectOrder s b 8
    else if ordMarks h.order == 0 then check10 s b h
    else setRun s b { runOf s b with acc := .marks, marks := { (runOf s b).marks with table := [] } } := by
  obtain ⟨hseg, hmarks⟩ := hp
  refine if_neg ?_
  by_cases hm : 0 < ordMarks h.order
  · simp [hseg, hmarks hm]
  · simp [hseg, hm]

/-! ## A remnant plate ID (R7) -/

theorem idReserve_taken {id : Nat} (ht : idTaken s id = true) : idReserve (fresh s) b id = rejectOrder (fresh s) b 10 := if_pos ht
theorem idReserve_free {id : Nat} (ht : idTaken s id = false) : idReserve (fresh s) b id =
    check11 (setStock (fresh s) { s.stock with reservedIds := s.stock.reservedIds ++ [(id, b)] }) b :=
  if_neg (by simp [show idTaken (fresh s) id = false from ht])

/-! ## A BURN request (R9, R10, R36, R50) -/

theorem lookIx_eq (h : Hand) : (h.look.map (·.ix)).getD 0 = lookIx h := rfl
theorem burnRequest_other (hh : holds s (lookIx h) (ordPlate h.order) = false) :
    burnRequest (fresh s) b h = rejectOrder (fresh s) b 2 :=
  if_pos (by simp [show holds (fresh s) (lookIx h) (ordPlate h.order) = false from hh, lookIx_eq])
section
variable (hh : holds s (lookIx h) (ordPlate h.order) = true)
include hh
theorem burnRequest_lost (hst : (plateAt s (lookIx h)).st = .lost) : burnRequest (fresh s) b h = rejectOrder (fresh s) b 3 := by
  have hh' : holds (fresh s) (lookIx h) (ordPlate h.order) = true := hh
  have hst' : (plateAt (fresh s) (lookIx h)).st = .lost := hst
  simp [burnRequest, lookIx_eq, hh', hst']
variable (hst : (plateAt s (lookIx h)).st ≠ .lost)
include hst
theorem burnRequest_remnantOut (ho : (underRemnantOut s (lookIx h)).isSome = true) :
    burnRequest (fresh s) b h = rejectOrder (fresh s) b 13 := by
  have hh' : holds (fresh s) (lookIx h) (ordPlate h.order) = true := hh
  have hst' : (plateAt (fresh s) (lookIx h)).st ≠ .lost := hst
  have ho' : (underRemnantOut (fresh s) (lookIx h)).isSome = true := ho
  simp [burnRequest, lookIx_eq, hh', hst', ho']
variable (ho : underRemnantOut s (lookIx h) = none)
include ho
/-- The claim decides. -/
theorem burnRequest_claim {c : Claim} : (plateAt s (lookIx h)).claim = c → burnRequest (fresh s) b h =
    match c with
    | .none => burnGranted (setPlate (fresh s) (lookIx h) { plateAt s (lookIx h) with claim := .burn b }) b h
    | .hold t _ => if t == ordToken h.order && t != 0 then
        burnGranted (setPlate (fresh s) (lookIx h) { plateAt s (lookIx h) with claim := .burn b }) b h else rejectOrder (fresh s) b 12
    | .burn b' => if b' == b then burnGranted (fresh s) b h else rejectOrder (fresh s) b 13
    | .lift _ => setRun (setStock (fresh s) { s.stock with waiters := s.stock.waiters ++ [(lookIx h, b)] }) b
        { runOf s b with acc := .claimWait } := by
  intro hc
  have hh' : holds (fresh s) (lookIx h) (ordPlate h.order) = true := hh
  have hst' : ((plateAt (fresh s) (lookIx h)).st == .lost) = false := beq_eq_false_iff_ne.2 hst
  have ho' : underRemnantOut (fresh s) (lookIx h) = none := ho
  have hc' : (plateAt (fresh s) (lookIx h)).claim = c := hc
  simp only [burnRequest, lookIx_eq, hh', hst', ho', hc']
  cases c <;> rfl
end
theorem burnGranted_bed : (runOf (burnGranted s b h) b).acc = .lockReq ∧ (runOf (burnGranted s b h) b).hand = some { h with claimed := true } ∧
    (burnGranted s b h).stock = s.stock ∧ (burnGranted s b h).engine = s.engine := by simp [burnGranted]

/-! ## A claim release (R11) -/

section
variable {r : Release} {rest : List Release} (hx : s.stock.releases = r :: rest)
include hx
theorem claimRelease_other (h : holds s r.ix r.plate = false ∨ (plateAt s r.ix).claim ≠ r.claim) :
    claimRelease (fresh s) r = setStock (fresh s) { s.stock with releases := rest } := by
  have hno : ¬(holds s r.ix r.plate && (plateAt s r.ix).claim == r.claim) = true := by
    rcases h with h | h <;> simp [h]
  have hrest : (fresh s).stock.releases.tail = rest := congrArg List.tail hx
  unfold claimRelease
  rw [hrest]
  exact if_neg hno
theorem claimRelease_matches (hh : holds s r.ix r.plate = true) (hc : (plateAt s r.ix).claim = r.claim) :
    (claimRelease (fresh s) r).stock.releases = rest ∧
      (claimRelease (fresh s) r).stock.table = s.stock.table.set r.ix { plateAt s r.ix with claim := .none } ∧
      queued (claimRelease (fresh s) r) (.writeBack (.plate r.ix)) = true ∧
      ∀ e, r.claim = .lift e → (claimRelease (fresh s) r).stock.waiters = s.stock.waiters.filter (·.1 != r.ix) := by
  have hyes : (holds s r.ix r.plate && (plateAt s r.ix).claim == r.claim) = true := by simp [hh, hc]
  have hrest : (fresh s).stock.releases.tail = rest := congrArg List.tail hx
  have hwb : ∀ t : State, queued (setPlate t r.ix { plateAt s r.ix with claim := .none }) (.writeBack (.plate r.ix)) = true := fun t =>
    queued_setPlate_self ..
  have heq : claimRelease (fresh s) r =
      match r.claim with
      | .lift _ => tellWaiters (setPlate (setStock (fresh s) { s.stock with releases := rest }) r.ix
          { plateAt s r.ix with claim := .none }) r.ix
      | _ => setPlate (setStock (fresh s) { s.stock with releases := rest }) r.ix { plateAt s r.ix with claim := .none } := by
    unfold claimRelease
    rw [hrest]
    refine (if_pos hyes).trans ?_
    cases r.claim <;> rfl
  rw [heq]
  cases r.claim with
  | lift e => exact ⟨by simp [tellWaiters], by simp [tellWaiters], hwb _, fun e he => by simp [tellWaiters]⟩
  | none => exact ⟨by simp, by simp, hwb _, fun e he => by simp at he⟩
  | burn b => exact ⟨by simp, by simp, hwb _, fun e he => by simp at he⟩
  | hold t e => exact ⟨by simp, by simp, hwb _, fun e he => by simp at he⟩
end

/-! ## Locks (R52 to R54) -/

section
variable {l : Locks} {rs : List (Nat × Nat)} {es : List LockEntry}
theorem request_granted (hw : l.waits = []) (hr : lockRoom l.entries rs = true) :
    l.request b rs = { l with entries := grantLocks l.entries b rs } := if_pos (by simp [hw, hr])
theorem request_waits (h : l.waits ≠ [] ∨ lockRoom l.entries rs = false) :
    l.request b rs = { l with waits := l.waits ++ [(b, rs)] } := if_neg (by rcases h with h | h <;> simp [h])
theorem length_grantLocks (hr : lockRoom es rs = true) : (grantLocks es b rs).length ≤ Config.lockEntries := by
  simpa [grantLocks, lockRoom] using hr
/-- An entry of the table keeps its range and its owners. -/
theorem mem_grantLocks_old {e : LockEntry} (he : e ∈ es) :
    ∃ e' ∈ grantLocks es b rs, e'.addr = e.addr ∧ e'.len = e.len ∧ (∀ x ∈ e.owners, x ∈ e'.owners) ∧
      (rs.any (lockIs e) = true → b ∈ e'.owners) := by
  refine ⟨_, List.mem_append_left _ (List.mem_map_of_mem he), ?_⟩
  by_cases hnew : (rs.any (lockIs e) && !e.owners.contains b) = true
  · rw [if_pos hnew]
    exact ⟨rfl, rfl, fun x hx => List.mem_append_left _ hx, fun _ => by simp⟩
  · rw [if_neg hnew]
    exact ⟨rfl, rfl, fun x hx => hx, fun hany => by simpa [hany] using hnew⟩
/-- Every range asked for has the bed among its owners. -/
theorem mem_grantLocks_asked {r : Nat × Nat} (hr : r ∈ rs) : ∃ e ∈ grantLocks es b rs, e.addr = r.1 ∧ e.len = r.2 ∧ b ∈ e.owners := by
  by_cases hold : es.any (lockIs · r) = true
  · obtain ⟨e, he, heq⟩ := List.any_eq_true.1 hold
    obtain ⟨e', he', haddr, hlen, -, hb⟩ := mem_grantLocks_old (b := b) (rs := rs) he
    obtain ⟨ha, hl⟩ : e.addr = r.1 ∧ e.len = r.2 := by simpa [lockIs] using heq
    exact ⟨e', he', haddr.trans ha, hlen.trans hl, hb (List.any_eq_true.2 ⟨r, hr, heq⟩)⟩
  · have hmem : r ∈ newRanges es rs := List.mem_eraseDups.2 (List.mem_filter.2 ⟨hr, by simpa using hold⟩)
    exact ⟨⟨r.1, r.2, [b]⟩, List.mem_append_right _ (List.mem_map.2 ⟨r, hmem, rfl⟩), rfl, rfl, by simp⟩
end
theorem leaveAccepting_bed (hhand : (runOf s b).hand = some h) : (runOf (leaveAccepting s b h) b).hand = some h ∧
    (leaveAccepting s b h).locks = s.locks ∧
    (runOf (leaveAccepting s b h) b).state = (if ordFull h.order || (bedCfg s b).full then .checking else .staging) := by
  have hfull : fullCheck s b h = (ordFull h.order || (bedCfg s b).full) := rfl
  unfold leaveAccepting
  rw [hfull]
  cases ordFull h.order || (bedCfg s b).full <;> simp [hhand]

end Sys2Proof.Machine

namespace Sys2Proof.Proofs
open Sys2Proof.Machine

/-- Settles O39: the plate lookup with checks 2 to 11, and the reservation of a remnant's plate ID. -/
theorem lookupAndIdReserve : Obligations.LookupAndIdReserve := by
  unfold Obligations.LookupAndIdReserve
  refine ⟨fun s b h again hhand hstate hacc => ?_, fun s b h d hhand hdesc hstate hacc => ⟨fun ht => ?_, fun ht haway => ?_⟩⟩
  · have hexec := exec_plateLookup hhand hstate hacc
    have hturned : ∀ c, c < 256 → plateLookup (fresh s) b again h = rejectOrder (fresh s) b c →
        ∃ u, exec (.plateLookup b) s = .next (settle s u) ∧ rejects u b h c := fun c hc heq =>
      ⟨_, hexec.trans (by rw [heq]), rejects_rejectOrder (fresh s) b hhand hc⟩
    refine ⟨fun hf => hturned 2 (by decide) (plateLookup_unknown again hf), fun i hf => ?_⟩
    have hread : (runOf (lookedUp s b h i) b).hand = some { h with look := some (lookOf s b i) } := by simp
    have hrejects : ∀ c, c < 256 → rejects (rejectOrder (lookedUp s b h i) b c) b h c := fun c hc => by
      have hlooked := rejects_rejectOrder _ _ hread hc
      exact hlooked
    have haway : ∀ k, (lookOf s b i).away = k →
        ((({ h with look := some (lookOf s b i) } : Hand).look.map (·.away)).getD false) = k := fun k hk => hk
    refine ⟨fun hst => hturned 3 (by decide) (plateLookup_cut again hf hst),
      fun hst ht => hturned 4 (by decide) (plateLookup_thick again hf hst ht),
      fun hst ht ho => hturned 5 (by decide) (plateLookup_occupied again hf hst ht ho), fun hst ht ho hagain => ?_,
      fun hst ht ho hagain => ?_⟩
    · subst hagain
      rw [hexec, plateLookup_again hf hst ht ho]
      refine ⟨fun hsus hloc => ?_, fun hok => ?_⟩
      · rw [check11_away hread (haway true (lookOf_away_true hsus hloc))]
        exact ⟨_, rfl, hrejects 11 (by decide)⟩
      · rw [check11_here hread (haway false (lookOf_away_false hok))]
        exact ⟨_, rfl, by simp, by simp [hstate], rfl, by simp [lookOf]⟩
    · subst hagain
      intro o turned goes placed
      have hreject : ∀ c, c < 256 → listChecks (lookedUp s b h i) b { h with look := some (lookOf s b i) } =
          rejectOrder (lookedUp s b h i) b c → turned c := fun c hc heq =>
        ⟨_, hexec.trans (by rw [plateLookup_first hf hst ht ho, heq]), hrejects c hc⟩
      have hgoes : ∀ acc u, listChecks (lookedUp s b h i) b { h with look := some (lookOf s b i) } = u →
          (runOf u b).state = (runOf s b).state → (runOf u b).acc = acc → u.stock = s.stock →
          (runOf u b).hand = some { h with look := some (lookOf s b i) } → goes acc u := fun acc u heq hs ha hk hh =>
        ⟨hexec.trans (by rw [plateLookup_first hf hst ht ho, heq]), hs.trans hstate, ha, hk, by rw [hh]; rfl⟩
      have hsame : ∀ a n, listAddressOk (lookedUp s b h i) a n = listAddressOk s a n := fun _ _ => rfl
      have hlists := fun hp : placed =>
        listChecks_placed (s := lookedUp s b h i) (b := b) (h := { h with look := some (lookOf s b i) }) hp
      refine ⟨fun hno => hreject 6 (by decide) (listChecks_address hno), fun hp hz => ?_, fun hp hz hm => ?_,
        fun hp hz hm hmax => ?_, fun hp hz hm => ?_⟩
      · exact hreject 7 (by decide) ((hlists hp).trans (if_pos (beq_iff_eq.2 hz)))
      all_goals
        have hsteps := (hlists hp).trans (if_neg (by simpa using hz))
      · exact hreject 8 (by decide) (hsteps.trans (if_pos hm))
      · have hmarks := hsteps.trans ((if_neg (Nat.not_lt.2 hmax)).trans (if_neg (by simpa using Nat.ne_of_gt hm)))
        exact ⟨_, hgoes .marks _ hmarks (by simp) (by simp) rfl (by simp), by simp⟩
      · have h10 := hsteps.trans ((if_neg (Nat.not_lt.2 (hm.le.trans (by decide)))).trans (if_pos (beq_iff_eq.2 hm)))
        refine ⟨fun hd hsus hloc => ?_, fun hd hok => ?_, fun hd haddr => ?_, fun hd haddr => ?_⟩
        · exact hreject 11 (by decide)
            (h10.trans ((check10_none hd).trans (check11_away hread (haway true (lookOf_away_true hsus hloc)))))
        · exact ⟨_, hgoes .burn _ (h10.trans ((check10_none hd).trans (check11_here hread (haway false (lookOf_away_false hok)))))
            (by simp) (by simp) rfl (by simp)⟩
        · exact hreject 10 (by decide) (h10.trans (check10_fails hd ((hsame ..).trans haddr)))
        · exact ⟨_, hgoes .descriptor _ (h10.trans (check10_reads hd ((hsame ..).trans haddr))) (by simp) (by simp) rfl (by simp), rfl⟩
  · rw [exec_remnantIdReserve hhand hstate hacc hdesc, idReserve_taken ht]
    exact ⟨_, rfl, rejects_rejectOrder (fresh s) b hhand (by decide)⟩
  · have hread : (runOf (setStock (fresh s) { s.stock with reservedIds := s.stock.reservedIds ++ [(descId d, b)] }) b).hand = some h := hhand
    rw [exec_remnantIdReserve hhand hstate hacc hdesc, idReserve_free ht, check11_here hread haway]
    exact ⟨_, rfl, rfl, by simp⟩

/-- Settles O40: a BURN request by the claim of its record. -/
theorem burnRequest : Obligations.BurnRequest := by
  unfold Obligations.BurnRequest
  refine fun s b h hhand hstate hacc => ?_
  have hexec := exec_burnRequest hhand hstate hacc
  have hturned : ∀ c, c < 256 → Machine.burnRequest (fresh s) b h = rejectOrder (fresh s) b c →
      ∃ u, exec (.burnRequest b) s = .next (settle s u) ∧ rejects u b h c := fun c hc heq =>
    ⟨_, hexec.trans (by rw [heq]), rejects_rejectOrder (fresh s) b hhand hc⟩
  refine ⟨fun hh => hturned 2 (by decide) (burnRequest_other hh), fun hh => ⟨fun hst => hturned 3 (by decide) (burnRequest_lost hh hst),
    fun hst ho => hturned 13 (by decide) (burnRequest_remnantOut hh hst ho), fun hst ho => ?_⟩⟩
  refine ⟨fun hc => ?_, fun t e hc ht => ?_, fun hc => ?_, fun b' hc hb => ?_, fun e hc => ?_⟩
  · obtain ⟨hacc', hhand', hstock, -⟩ :=
      burnGranted_bed (s := setPlate (fresh s) (lookIx h) { plateAt s (lookIx h) with claim := .burn b }) (b := b) (h := h)
    have hgrant : Machine.burnRequest (fresh s) b h =
        burnGranted (setPlate (fresh s) (lookIx h) { plateAt s (lookIx h) with claim := .burn b }) b h := by
      rcases hc with hc | ⟨t, e, hc, rfl, hne⟩
      · exact burnRequest_claim hh hst ho hc
      · exact (burnRequest_claim hh hst ho hc).trans (if_pos (by simpa using hne))
    rw [hexec, hgrant]
    exact ⟨_, rfl, hstock.trans (setPlate_stock ..), queued_setPlate_self .., hacc', hhand'⟩
  · refine hturned 12 (by decide) ((burnRequest_claim hh hst ho hc).trans (if_neg ?_))
    rcases ht with ht | ht <;> simp [ht]
  · obtain ⟨hacc', hhand', hstock, hengine⟩ := burnGranted_bed (s := fresh s) (b := b) (h := h)
    rw [hexec, (burnRequest_claim hh hst ho hc).trans (if_pos (beq_self_eq_true b))]
    exact ⟨_, rfl, hstock, hengine, hacc', hhand'⟩
  · exact hturned 13 (by decide) ((burnRequest_claim hh hst ho hc).trans (if_neg (by simpa using hb)))
  · rw [hexec, burnRequest_claim hh hst ho hc]
    exact ⟨_, rfl, by simp, rfl⟩

/-- Settles O41: claim releases and those told of them, lock requests, locks granted and released. -/
theorem claimReleaseAndLockRequest : Obligations.ClaimReleaseAndLockRequest := by
  unfold Obligations.ClaimReleaseAndLockRequest
  refine ⟨fun s b hstate hacc => ⟨fun hno => ?_, fun hyes => ?_⟩, fun l b hlen => ?_,
    fun s b h hhand hstate hacc => ⟨fun howns => ?_, fun howns => ?_⟩, fun s r rest hx => ⟨fun hh hc => ?_, fun hno => ?_⟩,
    fun s b h hhand hstate hacc => ⟨fun hw hr => ?_, fun hno => ?_⟩⟩
  · exact if_pos (by simpa [hstate, hacc] using hno)
  · obtain ⟨w, hw, hb⟩ := hyes
    have hany : s.stock.waiters.any (·.2 == b) = true := List.any_eq_true.2 ⟨w, hw, beq_iff_eq.2 hb⟩
    exact if_neg (by simp [hany])
  · exact Locks.examine_grants 4 ⟨_, _⟩ ((List.length_filter_le ..).trans hlen)
  · have hleave : locksTold s b = leaveAccepting s b h := by simp [locksTold, hhand, hstate, hacc, howns]
    rw [hleave]
    exact leaveAccepting_bed hhand
  · simp [locksTold, hhand, howns]
  · rw [exec_claimRelease hx]
    exact ⟨_, rfl, claimRelease_matches hx hh hc⟩
  · rw [exec_claimRelease hx, claimRelease_other hx hno]
  · rw [exec_lockRequest hhand hstate hacc]
    refine ⟨_, rfl, ?_⟩
    have hlocks : (Machine.lockRequest (fresh s) b h).locks = { s.locks with entries := grantLocks s.locks.entries b (orderRanges h.order) } :=
      request_granted hw hr
    rw [hlocks]
    refine ⟨hw, length_grantLocks hr, fun r hr => mem_grantLocks_asked hr, fun e he => ?_⟩
    obtain ⟨e', he', haddr, hlen, howners, -⟩ := mem_grantLocks_old (b := b) (rs := orderRanges h.order) he
    exact ⟨e', he', haddr, hlen, howners⟩
  · rw [exec_lockRequest hhand hstate hacc]
    exact ⟨_, rfl, by simp [Machine.lockRequest], request_waits hno⟩

end Sys2Proof.Proofs
end

/-! # Permits and the token (R13, R82, R83, R94, R112 to R117) -/

section
namespace Sys2Proof.Machine

variable {s : State} {b : BedId} {n : Nat}

/-! ## What a bed asks for (R113, R116, R117) -/

/-- The bed is about to send a PIERCE. -/
theorem askArbiter_pierce (hstate : (runOf s b).state = .burning) (hform : (streamOf s b).form = none)
    (hp : (nextPierce (streamOf s b)).isSome = true) :
    (runOf (askArbiter s b) b).permitAsk = ((runOf s b).permitAsk || (!(runOf s b).permit && !s.arb.waits.contains b &&
        !s.arb.grants.contains b && !s.arb.holders.contains b)) ∧
      (runOf (askArbiter s b) b).tokenAsk = ((runOf s b).tokenAsk || (!(streamOf s b).pausing && (runOf s b).permit &&
        s.arb.token != some b && !s.arb.tokenWaits.contains b)) := by
  have hform' : (runOf s b).stream.form = none := hform
  have hp' : (nextPierce (runOf s b).stream).isSome = true := hp
  simp [askArbiter, hstate, hform', hp', streamOf]

/-! ## Permits (R113) -/

theorem arbGrant_nobody (h : s.arb.waits = []) : arbGrant s = s := by
  have hsame : setArb s s.arb = s := rfl
  simp [arbGrant, Arbiter.grant, h, hsame]
theorem arbGrant_nothing (hpool : s.arb.pool = some n) (h : s.cmd.mode ≠ .run ∨ n ≤ s.arb.holders.length) : arbGrant s = s := by
  have hsame : setArb s s.arb = s := rfl
  by_cases hmode : s.cmd.mode = .run
  · have hfree : freePermits s.arb = 0 := by simp [freePermits, hpool, Nat.sub_eq_zero_of_le (h.resolve_left (not_not_intro hmode))]
    have hgrant : s.arb.grant 4 = s.arb := by
      unfold Arbiter.grant
      cases s.arb.waits with
      | nil => rfl
      | cons c l => simp [hfree]
    simp [arbGrant, hmode, hgrant, hsame]
  · simp [arbGrant, hmode]
theorem arbGrant_one (hmode : s.cmd.mode = .run) (hpool : s.arb.pool = some n) (hw : s.arb.waits = [b])
    (h : s.arb.holders.length < n) :
    (arbGrant s).arb = { s.arb with waits := [], holders := s.arb.holders ++ [b], grants := s.arb.grants ++ [b] } := by
  have hfree : 0 < freePermits s.arb := by simp [freePermits, hpool, h]
  simp [arbGrant, hmode, Arbiter.grant, hw, hpool, hfree]

/-! ## The token (R116, R117) -/

theorem arbOffer_head {l : List BedId} (hw : s.arb.tokenWaits = b :: l) (hmode : s.cmd.mode = .run) (ht : s.arb.token = none)
    (ho : s.arb.offer = none) : arbOffer s = setArb s { s.arb with offer := some b } := by
  simp [arbOffer, hw, hmode, ht, ho]

section
variable {e : Entry}
/-- The state in which a ready bed has sent its PIERCE with the token. -/
def pierceSent (s : State) (b : BedId) (e : Entry) : State :=
  let u := setArb s { s.arb with token := some b, tokenWaits := s.arb.tokenWaits.filter (· != b) }
  let u := sendStep (setStream u b (takePierce (streamOf s b))) b e
  setRun u b { runOf u b with pierce := some ⟨s.clock, (streamOf s b).seq⟩ }
theorem acceptToken_eq : acceptToken s b e =
    if e.synth || (streamOf s b).pierceSent then pierceSent s b e else firstPierce (pierceSent s b e) b := by
  have hclock : ∀ (u : State) (t : Stream), (sendStep (setStream u b t) b e).clock = u.clock := fun _ _ => by simp
  unfold acceptToken pierceSent
  simp only [hclock]
  rfl
theorem takePierce_kept (t : Stream) : (takePierce t).window = t.window ∧ (takePierce t).seq = t.seq ∧
    (takePierce t).pierceSent = t.pierceSent := by
  unfold takePierce
  split
  · exact ⟨rfl, rfl, rfl⟩
  · split <;> exact ⟨rfl, rfl, rfl⟩
theorem runOf_sendStep : runOf (sendStep s b e) b = { runOf s b with stream := { streamOf s b with
    window := (streamOf s b).window ++ [{ e with seq := (streamOf s b).seq }], seq := (streamOf s b).seq + 1, anySent := true,
    endSent := (streamOf s b).endSent || e.step.kind == kEND } } := by simp [sendStep]
theorem sendStep_out (hlive : isLive s b = true) : (sendStep s b e).out = s.out ++ [.step b (streamOf s b).seq e.step] := by
  simp [sendStep, sendBed, hlive, emit]
theorem pierceSent_kept (hlive : isLive s b = true) :
    (pierceSent s b e).arb = { s.arb with token := some b, tokenWaits := s.arb.tokenWaits.filter (· != b) } ∧
      (runOf (pierceSent s b e) b).pierce = some ⟨s.clock, (streamOf s b).seq⟩ ∧
      (streamOf (pierceSent s b e) b).seq = (streamOf s b).seq + 1 ∧
      (streamOf (pierceSent s b e) b).window = (streamOf s b).window ++ [{ e with seq := (streamOf s b).seq }] ∧
      (pierceSent s b e).out = s.out ++ [.step b (streamOf s b).seq e.step] ∧ (pierceSent s b e).stock = s.stock ∧
      (runOf (pierceSent s b e) b).hand = (runOf s b).hand := by
  obtain ⟨hwindow, hseq, -⟩ := takePierce_kept (streamOf s b)
  have htaken : ∀ a, streamOf (setStream (setArb s a) b (takePierce (streamOf s b))) b = takePierce (streamOf s b) := fun a => by
    simp [streamOf]
  have hout : ∀ a, (sendStep (setStream (setArb s a) b (takePierce (streamOf s b))) b e).out =
      s.out ++ [.step b (streamOf s b).seq e.step] := fun a => by
    rw [sendStep_out (by simpa using hlive), htaken, hseq]
    simp
  refine ⟨by simp [pierceSent], by simp [pierceSent], ?_, ?_, hout _, by simp [pierceSent], by simp [pierceSent, runOf_sendStep]⟩
  · simpa [pierceSent, streamOf, runOf_sendStep] using hseq
  · simpa [pierceSent, streamOf, runOf_sendStep] using And.intro hwindow hseq
theorem firstPierce_kept (s : State) (b : BedId) : (firstPierce s b).arb = s.arb ∧ (firstPierce s b).out = s.out ∧
    (runOf (firstPierce s b) b).pierce = (runOf s b).pierce ∧ (streamOf (firstPierce s b) b).seq = (streamOf s b).seq ∧
    (streamOf (firstPierce s b) b).window = (streamOf s b).window := by
  unfold firstPierce
  dsimp only
  split
  · split <;> simp [streamOf]
  · simp [streamOf]
theorem firstPierce_table {h : Hand} (hhand : (runOf s b).hand = some h) (hh : holds s (lookIx h) (ordPlate h.order) = true)
    (hst : (plateAt s (lookIx h)).st = .stock) :
    (firstPierce s b).stock.table = s.stock.table.set (lookIx h) { plateAt s (lookIx h) with st := .skeleton } := by
  have hpass : ∀ r, (holds (setRun s b r) (lookIx h) (ordPlate h.order) && (plateAt (setRun s b r) (lookIx h)).st == .stock) = true :=
    fun r => by
      have hst' : (plateAt (setRun s b r) (lookIx h)).st = .stock := hst
      have hh' : holds (setRun s b r) (lookIx h) (ordPlate h.order) = true := hh
      simp [hst', hh']
  unfold firstPierce
  simp only [hhand, lookIx_eq, hpass, if_true, setPlate_stock]
  rfl
end

/-- The offer of the token is no longer under way. -/
def offerTaken (s : State) : State := setArb (fresh s) { s.arb with offer := none, offerLeft := false }
theorem tokenOffer_left (h : s.arb.offerLeft = true ∨ s.arb.tokenWaits.contains b = false) :
    tokenOffer (fresh s) b = arbOffer (offerTaken s) :=
  if_pos (show (s.arb.offerLeft || !s.arb.tokenWaits.contains b) = true by rcases h with h | h <;> simp only [h] <;> simp)
section
variable (hl : s.arb.offerLeft = false) (hw : s.arb.tokenWaits.contains b = true)
include hl hw
theorem tokenOffer_waits : tokenOffer (fresh s) b =
    match nextPierce (streamOf s b) with
    | some e => if readyNow s b then acceptToken (offerTaken s) b e else offerTaken s
    | none => offerTaken s :=
  if_neg (show ¬(s.arb.offerLeft || !s.arb.tokenWaits.contains b) = true by simp only [hl, hw]; decide)
theorem tokenOffer_unready (hr : readyNow s b = false) : tokenOffer (fresh s) b = offerTaken s := by
  rw [tokenOffer_waits hl hw, hr]
  cases nextPierce (streamOf s b) <;> rfl
theorem tokenOffer_accepts {e : Entry} (hr : readyNow s b = true) (he : nextPierce (streamOf s b) = some e) :
    tokenOffer (fresh s) b = acceptToken (offerTaken s) b e := by
  rw [tokenOffer_waits hl hw, hr, he]
  rfl
end
theorem isLive_of_readyNow (h : readyNow s b = true) : isLive s b = true := by
  have hsend : maySend s b = true := (Bool.and_eq_true_iff.1 h).1
  simp only [maySend, Bool.and_eq_true] at hsend
  exact hsend.1.1.2

end Sys2Proof.Machine

namespace Sys2Proof.Proofs
open Sys2Proof.Machine

/-- Settles O42: requests for a permit and the grants delivered. -/
theorem permitRequestAndGrant : Obligations.PermitRequestAndGrant := by
  unfold Obligations.PermitRequestAndGrant
  refine ⟨fun s b hstate hform hp hno hw hg hh => ?_, fun s b n hask hpool => ⟨fun hmode hw hfree => ?_, fun hno => ?_⟩,
    fun s b hgrant => ⟨fun hended hhand hstate => ?_, fun hstale hw => ?_⟩⟩
  · rw [(askArbiter_pierce hstate hform hp).1]
    simp [hno, hw, hg, hh]
  · rw [exec_permitRequest hask (by simp [hpool])]
    refine ⟨_, rfl, by simp [permitRequest], ?_⟩
    refine (arbGrant_one (s := setArb (setRun (fresh s) b { runOf s b with permitAsk := false })
      { s.arb with waits := s.arb.waits ++ [b] }) (b := b) hmode hpool ?_ hfree).trans ?_
    · exact congrArg (· ++ [b]) hw
    · rw [← hw]
      rfl
  · rw [exec_permitRequest hask (by simp [hpool])]
    refine ⟨_, rfl, by simp [permitRequest], ?_⟩
    exact congrArg (·.arb) (arbGrant_nothing (s := setArb (setRun (fresh s) b { runOf s b with permitAsk := false })
      { s.arb with waits := s.arb.waits ++ [b] }) hpool hno)
  · have hkept : (!s.arb.ended.contains b && (runOf s b).hand.isSome &&
        (activeState (runOf s b).state || (runOf s b).state == .stopping)) = true := by
      rw [hended, hhand]
      simpa using hstate
    have heq : permitGrant (fresh s) b = setRun (setArb (fresh s) { s.arb with
        grants := s.arb.grants.filter (· != b), ended := s.arb.ended.filter (· != b) }) b { runOf s b with permit := true } := if_pos hkept
    rw [exec_permitGrant hgrant, heq]
    exact ⟨_, rfl, by simp, rfl⟩
  · have hback : ¬(!s.arb.ended.contains b && (runOf s b).hand.isSome &&
        (activeState (runOf s b).state || (runOf s b).state == .stopping)) = true := by
      rcases hstale with hstale | hstale <;> simp only [hstale] <;> simp
    have heq : permitGrant (fresh s) b = arbGrant (setArb (fresh s) { s.arb with
        grants := s.arb.grants.filter (· != b), ended := s.arb.ended.filter (· != b),
        holders := s.arb.holders.filter (· != b) }) := if_neg hback
    rw [exec_permitGrant hgrant, heq.trans (arbGrant_nobody hw)]
    exact ⟨_, rfl, rfl, rfl⟩

/-- Settles O43: the token asked for, reported ready for, offered and accepted. -/
theorem token : Obligations.Token := by
  unfold Obligations.Token
  refine ⟨fun s b hstate hform hp hpausing hpermit ht hw => ?_, fun s b hask => ⟨fun hw hmode ht ho => ?_, fun hw => ?_⟩,
    fun s b hrpt => ⟨fun hhead hmode ht ho => ?_, fun hhead => ?_⟩,
    fun s b hoffer => ⟨fun e hl hw hr he => ?_, fun hl hw hr => ?_, fun b' rest hl hw hmode ht => ?_⟩⟩
  · rw [(askArbiter_pierce hstate hform hp).2]
    simp [hpausing, hpermit, ht, hw]
  · rw [exec_tokenRequest hask]
    have hfirst : s.arb.tokenWaits.isEmpty = true := by simp [hw]
    have heq : tokenRequest (fresh s) b = arbOffer (setArb (setRun (fresh s) b { runOf s b with tokenAsk := false })
        { s.arb with tokenWaits := s.arb.tokenWaits ++ [b] }) := if_pos hfirst
    rw [heq.trans (arbOffer_head (b := b) (l := []) (congrArg (· ++ [b]) hw) hmode ht ho)]
    exact ⟨_, rfl, by simp, by simp [hw]⟩
  · rw [exec_tokenRequest hask]
    have hlater : ¬s.arb.tokenWaits.isEmpty = true := by simpa using hw
    have heq : tokenRequest (fresh s) b = setArb (setRun (fresh s) b { runOf s b with tokenAsk := false })
        { s.arb with tokenWaits := s.arb.tokenWaits ++ [b] } := if_neg hlater
    rw [heq]
    exact ⟨_, rfl, by simp, rfl⟩
  · rw [exec_readyReport hrpt]
    have hfirst : (s.arb.tokenWaits.head? == some b) = true := by simp [hhead]
    have heq : readyReport (fresh s) b = arbOffer (setRun (fresh s) b { runOf s b with readyRpt := false }) := if_pos hfirst
    obtain ⟨l, hl⟩ := List.head?_eq_some_iff.1 hhead
    rw [heq.trans (arbOffer_head (b := b) (l := l) hl hmode ht ho)]
    exact ⟨_, rfl, rfl⟩
  · rw [exec_readyReport hrpt]
    have hlater : ¬(s.arb.tokenWaits.head? == some b) = true := by simpa using hhead
    have heq : readyReport (fresh s) b = setRun (fresh s) b { runOf s b with readyRpt := false } := if_neg hlater
    rw [heq]
    exact ⟨_, rfl, rfl, by simp⟩
  · obtain ⟨harb, hpierce, hseq, hwindow, hout, hstock, hhand⟩ :=
      pierceSent_kept (s := offerTaken s) (b := b) (e := e) (isLive_of_readyNow (s := s) hr)
    obtain ⟨farb, fout, fpierce, fseq, fwindow⟩ := firstPierce_kept (pierceSent (offerTaken s) b e) b
    rw [exec_tokenOffer hoffer, tokenOffer_accepts hl hw hr he]
    refine ⟨_, rfl, ?_⟩
    by_cases hlater : e.synth = true ∨ (streamOf s b).pierceSent = true
    · rw [(acceptToken_eq (s := offerTaken s)).trans (if_pos ((Bool.or_eq_true ..).mpr hlater))]
      refine ⟨harb, hpierce, hseq, hwindow, hout, fun _ => hstock, fun h hs hps => ?_⟩
      rcases hlater with hlater | hlater
      · exact absurd (hs.symm.trans hlater) (by decide)
      · exact absurd (hps.symm.trans hlater) (by decide)
    · rw [(acceptToken_eq (s := offerTaken s)).trans (if_neg (mt (Bool.or_eq_true ..).mp hlater))]
      refine ⟨farb.trans harb, fpierce.trans hpierce, fseq.trans hseq, fwindow.trans hwindow, fout.trans hout,
        fun hno => absurd hno hlater, fun h hs hps hh hheld hst => ?_⟩
      have htable := firstPierce_table (s := pierceSent (offerTaken s) b e) (b := b) (hhand.trans hh)
        (by rw [holds, plateAt, hstock]; exact hheld) (by rw [plateAt, hstock]; exact hst)
      rw [htable, plateAt, hstock]
      rfl
  · rw [exec_tokenOffer hoffer, tokenOffer_unready hl hw hr]
    rfl
  · rw [exec_tokenOffer hoffer, tokenOffer_left hl, arbOffer_head (s := offerTaken s) hw hmode ht rfl]
    rfl

end Sys2Proof.Proofs
end

/-! # Marks (R101 to R109) -/

section
namespace Sys2Proof.Machine

variable {s : State} {b : BedId} {i : Nat} {x : Mark}

theorem markAt_of_get {m : Marks} (hx : m.table[i]? = some x) : markAt m i = x := by simp [markAt, hx]

/-! ## A mark sent or failed (R101, R102, R104) -/

theorem failMark_kept (c : MarkCause) (hx : (runOf s b).marks.table[i]? = some x) :
    hasBit ((failMark s b i c).faults.beds.get b).flags fMARK_FAIL = true ∧
      (runOf (failMark s b i c) b).marks.table = (runOf s b).marks.table.set i { x with st := .failed, cause := c } := by
  refine ⟨raise_bed _ _ (by decide), ?_⟩
  simp [failMark, setMark, markAt_of_get hx]
theorem sendMark_kept (h : Option (List Nat)) (hx : (runOf s b).marks.table[i]? = some x) :
    (sendMark s b i h).faults = s.faults ∧
      (runOf (sendMark s b i h) b) = { runOf s b with marks := { (runOf s b).marks with
        table := (runOf s b).marks.table.set i { x with st := .sent, attempts := x.attempts + 1 }
        limit := some s.clock, heatAsk := none } } ∧
      (isLive s b = true → (sendMark s b i h).out = s.out ++
        [.mark b i (markText x.raw h) (markX x.raw) (markY x.raw) (markRot x.raw) (markHeight x.raw)]) := by
  refine ⟨by simp [sendMark], by simp [sendMark, setMark, markAt_of_get hx], fun hlive => ?_⟩
  simp [sendMark, markAt_of_get hx, sendBed, hlive, emit]
theorem heatNumber_eq {h : Hand} {k : Look} (hh : (runOf s b).hand = some h) (hk : h.look = some k) : heatNumber (fresh s) b i =
    if (plateAt s k.ix).heatLen == 0 then
      failMark (setRun (fresh s) b { runOf s b with marks := { (runOf s b).marks with heatAsk := none } }) b i .noHeat
    else sendMark (setRun (fresh s) b { runOf s b with marks := { (runOf s b).marks with heatAsk := none } }) b i
      (some (chars (plateAt s k.ix).heat.toNat (plateAt s k.ix).heatLen)) := by
  have hlook : (runOf s b).hand.bind (·.look) = some k := by simp [hh, hk]
  have hlook' : (runOf (fresh s) b).hand.bind (·.look) = some k := hlook
  simp only [heatNumber, hlook']
  rfl

/-! ## Answers of the gantry (R104) -/

theorem sentMark_active (h : sentMark (runOf s b) = some i) : (runOf s b).state = .marking ∨ (runOf s b).state = .paused := by
  unfold sentMark at h
  dsimp only at h
  split at h
  case isTrue hc =>
    have hstate := (Bool.and_eq_true_iff.1 hc).1
    simpa using hstate
  case isFalse => exact absurd h (by simp)
theorem markDone_eq (h : sentMark (runOf s b) = some i) (hx : (runOf s b).marks.table[i]? = some x) : markDone s b =
    setRun s b { runOf s b with marks := { (runOf s b).marks with
      table := (runOf s b).marks.table.set i { x with st := .done }, limit := none } } := by
  simp [markDone, h, setMark, markAt_of_get hx]
section
variable {c : MarkCause} (h : sentMark (runOf s b) = some i) (hx : (runOf s b).marks.table[i]? = some x)
include h hx
theorem markAttemptFails_again (hn : x.attempts < 1 + param s (·.retries) 0) : markAttemptFails s b c =
    setRun s b { runOf s b with marks := { (runOf s b).marks with
      table := (runOf s b).marks.table.set i { x with st := .pending, cause := c }, limit := none } } := by
  simp [markAttemptFails, h, setMark, markAt_of_get hx, hn]
theorem markAttemptFails_last (hn : 1 + param s (·.retries) 0 ≤ x.attempts) : markAttemptFails s b c = failMark s b i c := by
  simp [markAttemptFails, h, markAt_of_get hx, Nat.not_lt.2 hn]
end

/-! ## The marking cursor (R103, R105) -/

/-- The mark is at its end. -/
def markAtEnd (x : Mark) : Prop := x.st = .done ∨ x.st = .failed ∨ x.st = .waived
theorem advanceMarks_stays (n : Nat) {r : BedRun} (h : ∀ x, r.marks.table[r.marks.cursor]? = some x → ¬markAtEnd x) :
    advanceMarks n r = r := by
  cases n with
  | zero => rfl
  | succ n =>
    refine if_neg ?_
    cases hx : r.marks.table[r.marks.cursor]? with
    | none => simp
    | some x => simpa [markAtEnd, or_assoc] using h x hx
/-- The bed with its marking cursor here. -/
def atCursor (r : BedRun) (c : Nat) : BedRun := { r with marks := { r.marks with cursor := c } }
/-- With every mark from the cursor on at its end the cursor passes the last one. -/
theorem advanceMarks_passes (n : Nat) (r : BedRun) (hn : r.marks.table.length ≤ r.marks.cursor + n)
    (h : ∀ x ∈ r.marks.table.drop r.marks.cursor, markAtEnd x) :
    ∃ c, advanceMarks n r = atCursor r c ∧ r.marks.table.length ≤ c := by
  induction n generalizing r with
  | zero => exact ⟨r.marks.cursor, rfl, hn⟩
  | succ n ih =>
    by_cases hend : r.marks.table.length ≤ r.marks.cursor
    · have hnone : r.marks.table[r.marks.cursor]? = none := List.getElem?_eq_none hend
      exact ⟨r.marks.cursor, advanceMarks_stays _ (by simp [hnone]), hend⟩
    · have hlt : r.marks.cursor < r.marks.table.length := Nat.lt_of_not_le hend
      have hdrop := List.drop_eq_getElem_cons hlt
      have hx : markAtEnd r.marks.table[r.marks.cursor] := h _ (by rw [hdrop]; exact List.mem_cons_self)
      have hstep : advanceMarks (n + 1) r = advanceMarks n (atCursor r (r.marks.cursor + 1)) :=
        if_pos (by simpa [hlt, markAtEnd, or_assoc] using hx)
      rw [hstep]
      exact ih (atCursor r (r.marks.cursor + 1)) (by simp only [atCursor]; omega)
        fun x hmem => h x (by rw [hdrop]; exact List.mem_cons_of_mem _ hmem)
theorem choosePass_none {r : BedRun} (h : r.marks.pass = none) : choosePass r = r := by simp [choosePass, h]
theorem endPass_none {r : BedRun} (h : r.marks.pass = none) : endPass r = r := by simp [endPass, h]

section
variable (hstate : (runOf s b).state = .marking) (hpausing : (streamOf s b).pausing = false) (hpass : (runOf s b).marks.pass = none)
  (hsent : ∀ x ∈ (runOf s b).marks.table, x.st ≠ .sent)
include hstate hpausing hpass hsent

theorem markingStep_pending (hx : (runOf s b).marks.table[(runOf s b).marks.cursor]? = some x) (hst : x.st = .pending) :
    markingStep s b = if markAddHeat x.raw then
        setRun s b { runOf s b with marks := { (runOf s b).marks with heatAsk := some (runOf s b).marks.cursor } }
      else sendMark s b (runOf s b).marks.cursor none := by
  have hpausing' : (runOf s b).stream.pausing = false := hpausing
  have hlt : (runOf s b).marks.cursor < (runOf s b).marks.table.length := (List.getElem?_eq_some_iff.1 hx).1
  have hstay : ∀ n, advanceMarks n (runOf s b) = runOf s b := fun n => advanceMarks_stays n fun y hy => by
    obtain rfl : x = y := Option.some.inj (hx.symm.trans hy)
    simp [markAtEnd, hst]
  have hno : (runOf s b).marks.table.any (·.st == .sent) = false := by simpa using hsent
  have hdue : markDue (runOf s b) = some (runOf s b).marks.cursor := by simp [markDue, hno, hstate, hpausing', hlt]
  have hsame : setRun s b (runOf s b) = s := by
    rw [setRun, runOf]
    cases b <;> rfl
  obtain ⟨-, hrun, -⟩ := sendMark_kept none hx
  unfold markingStep
  simp only [hstay, choosePass_none hpass, endPass_none hpass, hdue, markAt_of_get hx, hsame]
  cases markAddHeat x.raw
  · simp [hrun, Nat.not_le.2 hlt]
  · simp [Nat.not_le.2 hlt]
theorem markingStep_ends (hlen : (runOf s b).marks.table.length ≤ 64)
    (hall : ∀ x ∈ (runOf s b).marks.table.drop (runOf s b).marks.cursor, markAtEnd x) :
    (runOf (markingStep s b) b).state = .burning ∧ (runOf (markingStep s b) b).marks.table = (runOf s b).marks.table := by
  have hpausing' : (runOf s b).stream.pausing = false := hpausing
  obtain ⟨c, hc, hend⟩ := advanceMarks_passes 65 (runOf s b) (by omega) hall
  have hstay : advanceMarks 65 (atCursor (runOf s b) c) = atCursor (runOf s b) c :=
    advanceMarks_stays 65 (by simp [atCursor, List.getElem?_eq_none hend])
  have hno : (runOf s b).marks.table.any (·.st == .sent) = false := by simpa using hsent
  unfold markingStep
  rw [hc, choosePass_none (r := atCursor (runOf s b) c) hpass, endPass_none (r := atCursor (runOf s b) c) hpass, hstay]
  simp [atCursor, markDue, hno, hstate, Nat.not_lt.2 hend, hend, hpausing']
end

/-! ## Remark passes (R108, R109) -/

section
variable {r : BedRun}

/-- The marks that a pass chooses. -/
def toRemark (m : Marks) : List Nat :=
  (List.range m.table.length).filter fun i => (markAt m i).st == .failed && !(markAt m i).unmarked
theorem mem_toRemark {m : Marks} : i ∈ toRemark m ↔ ∃ x, m.table[i]? = some x ∧ x.st = .failed ∧ x.unmarked = false := by
  simp only [toRemark, List.mem_filter, List.mem_range, Bool.and_eq_true, beq_iff_eq, Bool.not_eq_true']
  constructor
  · rintro ⟨hlt, hst, hu⟩
    have hx : m.table[i]? = some m.table[i] := List.getElem?_eq_getElem hlt
    rw [markAt_of_get hx] at hst hu
    exact ⟨_, hx, hst, hu⟩
  · rintro ⟨x, hx, hst, hu⟩
    exact ⟨(List.getElem?_eq_some_iff.1 hx).1, by rw [markAt_of_get hx]; exact hst, by rw [markAt_of_get hx]; exact hu⟩
theorem choosePass_waits (hp : r.marks.pass = some .waiting) (h : ∃ x ∈ r.marks.table, x.st = .sent) : choosePass r = r := by
  obtain ⟨x, hx, hst⟩ := h
  have hany : r.marks.table.any (·.st == .sent) = true := List.any_eq_true.2 ⟨x, hx, beq_iff_eq.2 hst⟩
  simp [choosePass, hp, hany]
theorem choosePass_chooses (hp : r.marks.pass = some .waiting) (h : ∀ x ∈ r.marks.table, x.st ≠ .sent) : choosePass r =
    { r with marks := { r.marks with
      pass := some (.chosen (toRemark r.marks))
      table := r.marks.table.map (fun x =>
        if x.st == .failed && !x.unmarked then { x with st := .pending, attempts := 0, cause := .none } else x) } } := by
  have hany : r.marks.table.any (·.st == .sent) = false := by simpa using h
  simp only [choosePass, hp, hany]
  rfl
variable {l : List Nat} (hp : r.marks.pass = some (.chosen l))
include hp
theorem endPass_ends (h : ∀ i ∈ l, (markAt r.marks i).st = .done ∨ (markAt r.marks i).st = .failed) : endPass r =
    { r with
      marks := { r.marks with pass := none, heatAsk := none }, pause := clearBits r.pause (byte (2 ^ pMARK))
      remarkEnd := some (.finished (l.filter (fun i => (markAt r.marks i).st == .failed)).length) } := by
  have hall : l.all (fun i => (markAt r.marks i).st == .done || (markAt r.marks i).st == .failed) = true := by simpa using h
  simp [endPass, hp, hall]
theorem endPass_goes_on (h : ∃ i ∈ l, (markAt r.marks i).st ≠ .done ∧ (markAt r.marks i).st ≠ .failed) : endPass r = r := by
  obtain ⟨i, hi, hd, hf⟩ := h
  have hnot : ¬l.all (fun i => (markAt r.marks i).st == .done || (markAt r.marks i).st == .failed) = true := fun hall => by
    simpa [hd, hf] using List.all_eq_true.1 hall i hi
  simp only [endPass, hp]
  exact if_neg hnot
end
theorem remarkDone_eq (h : stageOf s = .remark b) : remarkDone s =
    match (runOf s b).remarkEnd with
    | some (.finished n) => give s oDONE (setSize (runOf s b).pause) n 0 [.writeBack (.bed b)]
    | some (.early n) => give s oSTATE (runOf s b).state.num n 0 [.writeBack (.bed b)]
    | none => s := by
  simp only [remarkDone, h] <;> rfl

end Sys2Proof.Machine

namespace Sys2Proof.Proofs
open Sys2Proof.Machine

/-- Settles O44: heat numbers, the gantry's answers to a MARK, the marking cursor and remark passes. -/
theorem marksAnswered : Obligations.MarksAnswered := by
  unfold Obligations.MarksAnswered
  refine ⟨fun s b i x h k hask hdue hx hh hk => ⟨fun hlen => ?_, fun hlen hlive => ?_⟩,
    fun s b i x hsent hx => ⟨fun hlive => ?_, fun c cause hc => ?_⟩,
    fun s b hstate hpausing hpass hsent => ⟨fun x hx hst => ⟨fun hheat => ?_, fun hheat hlive => ?_⟩, fun hlen hall => ?_⟩,
    fun r hp => ⟨choosePass_waits hp, fun hsent => ?_⟩, fun r l hp => ⟨fun hall => ?_, endPass_goes_on hp⟩,
    fun s b hstage => ⟨fun n hn => ?_, fun n hn => ?_, fun hn => ?_⟩⟩
  · have hx' : (runOf (setRun (fresh s) b { runOf s b with marks := { (runOf s b).marks with heatAsk := none } }) b).marks.table[i]? =
        some x := by simpa using hx
    obtain ⟨hbit, htable⟩ := failMark_kept .noHeat hx'
    rw [exec_heatNumberRequest hask hdue, heatNumber_eq hh hk, if_pos (by simpa using hlen)]
    exact ⟨_, rfl, hbit, htable.trans (by simp)⟩
  · have hx' : (runOf (setRun (fresh s) b { runOf s b with marks := { (runOf s b).marks with heatAsk := none } }) b).marks.table[i]? =
        some x := by simpa using hx
    obtain ⟨hfaults, hrun, hout⟩ := sendMark_kept (some (chars (plateAt s k.ix).heat.toNat (plateAt s k.ix).heatLen)) hx'
    rw [exec_heatNumberRequest hask hdue, heatNumber_eq hh hk, if_neg (by simpa using hlen)]
    exact ⟨_, rfl, hfaults, by simp [hrun], by simp [hrun], hout (by simpa using hlive)⟩
  · have hhears : bedHears s b (runOf s b).state := ⟨hlive, rfl, by rcases sentMark_active hsent with h | h <;> simp [h]⟩
    have hsent' : sentMark (runOf (heard s b) b) = some i := by rw [runOf_heard]; exact hsent
    rw [exec_gantryMarkDone hhears, markDone_eq hsent' (by rw [runOf_heard]; exact hx)]
    exact ⟨_, rfl, by simp, by simp⟩
  · have hexec : ∃ t : State, exec c s = .next (settle s (markAttemptFails t b cause)) ∧ runOf t b = runOf s b ∧
        param t (·.retries) 0 = param s (·.retries) 0 := by
      rcases hc with ⟨rfl, rfl, hlive⟩ | ⟨t, rfl, rfl, hlimit, hdue⟩
      · have hhears : bedHears s b (runOf s b).state := ⟨hlive, rfl, by rcases sentMark_active hsent with h | h <;> simp [h]⟩
        exact ⟨heard s b, exec_gantryMarkFail hhears, runOf_heard s b b, rfl⟩
      · have hdue' : due s t Config.markReply = true := decide_eq_true hdue
        have hover : markLimitDue s b = true := by simp [markLimitDue, hsent, hlimit, hdue']
        exact ⟨fresh s, exec_markReplyLimit hover, rfl, rfl⟩
    obtain ⟨t, hexec, hrun, hretries⟩ := hexec
    have hx' : (runOf t b).marks.table[i]? = some x := by rw [hrun]; exact hx
    rw [← hrun] at hsent
    refine ⟨fun hn => ?_, fun hn => ?_⟩
    · rw [hexec, markAttemptFails_again hsent hx' (by rw [hretries]; exact hn)]
      exact ⟨_, rfl, by simp, by simp [hrun]⟩
    · obtain ⟨hbit, htable⟩ := failMark_kept cause hx'
      rw [hexec, markAttemptFails_last hsent hx' (by rw [hretries]; exact hn)]
      exact ⟨_, rfl, hbit, by rw [htable, hrun]⟩
  · rw [markingStep_pending hstate hpausing hpass hsent hx hst, if_pos hheat]
    simp [hstate]
  · obtain ⟨-, hrun, hout⟩ := sendMark_kept none hx
    rw [markingStep_pending hstate hpausing hpass hsent hx hst, if_neg (by simp [hheat]), hrun]
    exact ⟨rfl, rfl, hstate, hout hlive⟩
  · exact markingStep_ends hstate hpausing hpass hsent hlen hall
  · rw [choosePass_chooses hp hsent]
    exact ⟨_, rfl, fun i => mem_toRemark, by simp⟩
  · rw [endPass_ends hp hall]
    exact ⟨rfl, by rw [hasBit_clearBits _ _ (by decide)]; simp [pMARK, hasBit, bit, byte], rfl⟩
  · rw [remarkDone_eq hstage, hn]
  · rw [remarkDone_eq hstage, hn]
  · rw [remarkDone_eq hstage, hn]

end Sys2Proof.Proofs
end

/-! # Remnant creation and the end of UNLOADING (R35, R36, R60, R61) -/

section
namespace Sys2Proof.Machine

variable {s t : State} {b : BedId} {h : Hand} {d : Line} {j n : Nat}

/-! ## The end of UNLOADING (R61) -/

theorem unloadEnd_ends (hstate : (runOf s b).state = .unloading) (hunl : (runOf s b).unl = .posted) (hlive : liveRequests s b = false) :
    unloadEnd s b = enter (returnOrder s b .done 0 none false) b .waiting := if_pos (by simp [hstate, hunl, hlive])
theorem unloadEnd_stays (h : (runOf s b).state ≠ .unloading ∨ (runOf s b).unl ≠ .posted ∨ liveRequests s b = true) :
    unloadEnd s b = s := if_neg (by rcases h with h | h | h <;> simp [h])

/-! ## A new record takes no place in the stock area (R36) -/

theorem filter_set_of_not {α : Type} {p : α → Bool} {x : α} (hx : p x = false) (l : List α) (k : Nat)
    (hk : ∀ y, l[k]? = some y → p y = false) : (l.set k x).filter p = l.filter p := by
  induction l generalizing k with
  | nil => rfl
  | cons y l ih =>
    cases k with
    | zero => simp [hx, hk y rfl]
    | succ k =>
      have htail := ih k fun z hz => hk z (by simpa using hz)
      simp [List.filter_cons, htail]
theorem lowestEmpty_empty (hj : lowestEmpty s = some j) : ∀ p, s.stock.table[j]? = some p → p.st = .empty := by
  intro p hp
  unfold lowestEmpty at hj
  dsimp only at hj
  split at hj
  case isTrue hlt =>
    obtain rfl := Option.some.inj hj
    have hget := List.findIdx_getElem (xs := s.stock.table) (p := (·.st == .empty)) (w := hlt)
    rw [List.getElem?_eq_getElem hlt] at hp
    rw [← Option.some.inj hp]
    simpa using hget
  case isFalse => exact absurd hj (by simp)
/-- The stock area sees the records and reservations of `t` as those of `s`. -/
structure SameArea (s t : State) : Prop where
  loader : t.loader = s.loader
  located : ∀ l, (∀ b, l ≠ .bed b) → locatedAt t l = locatedAt s l
  slotRes : t.stock.slotRes = s.stock.slotRes
  overRes : t.stock.overRes = s.stock.overRes
theorem SameArea.slotFree (h : SameArea s t) (n : Nat) : slotFree t n = Machine.slotFree s n := by
  rw [Machine.slotFree, slotReserved, h.slotRes, h.located _ (by simp), Machine.slotFree, slotReserved]
theorem SameArea.autoSlot (h : SameArea s t) (len wid : Nat) : autoSlot t len wid = Machine.autoSlot s len wid := by
  have hfree : Machine.slotFree t = Machine.slotFree s := funext h.slotFree
  have hslots : ∀ lo n, freeSlots t lo n = freeSlots s lo n := fun lo n => by rw [freeSlots, hfree, freeSlots]
  unfold Machine.autoSlot
  rw [h.loader]
  simp only [hslots]
theorem SameArea.overflowUsed (h : SameArea s t) : overflowUsed t = Machine.overflowUsed s := by
  rw [Machine.overflowUsed, h.overRes, h.located _ (by simp), Machine.overflowUsed]

/-! ## The record and its place (R35, R36) -/

/-- The reservation of the remnant's plate ID ends. -/
def idFreed (s : State) (d : Line) : State :=
  setStock (fresh s) { s.stock with reservedIds := s.stock.reservedIds.filter (fun e => e.1 != descId d) }
/-- The remnant's record is filled. -/
def recordFilled (s : State) (b : BedId) (p : Plate) (d : Line) (j : Nat) : State :=
  setPlate (setStock (idFreed s d) { (idFreed s d).stock with created := s.stock.created + 1 }) j (remnantRecord s b p d)
theorem createRemnant_none (hno : holds s (lookIx h) (ordPlate h.order) = false ∨ (plateAt s (lookIx h)).st = .stock) :
    createRemnant (fresh s) b h d = (idFreed s d, .none, 0, .none) := by
  have hskip : (!holds s (lookIx h) (ordPlate h.order) || (plateAt s (lookIx h)).st == .stock) = true := by
    rcases hno with hno | hno <;> simp [hno]
  exact if_pos hskip
section
variable (hh : holds s (lookIx h) (ordPlate h.order) = true) (hst : (plateAt s (lookIx h)).st ≠ .stock)
include hh hst
theorem createRemnant_full (hempty : lowestEmpty s = none) : createRemnant (fresh s) b h d =
    (setStock (idFreed s d) { (idFreed s d).stock with unregistered := s.stock.unregistered + 1 }, .notRegistered, 0, .none) := by
  have hgo : ¬(!holds s (lookIx h) (ordPlate h.order) || (plateAt s (lookIx h)).st == .stock) = true := by simp [hh, hst]
  have hempty' : lowestEmpty (idFreed s d) = none := hempty
  refine Eq.trans (show createRemnant (fresh s) b h d = _ from if_neg hgo) ?_
  split
  case h_1 => rfl
  case h_2 j hj => exact absurd (hj.symm.trans hempty') (by simp)
theorem createRemnant_placed (hempty : lowestEmpty s = some j) :
    let out := placeRemnant (recordFilled s b (plateAt s (lookIx h)) d j) b (remnantRecord s b (plateAt s (lookIx h)) d)
    createRemnant (fresh s) b h d = (out.1, out.2.1, j, out.2.2) := by
  have hgo : ¬(!holds s (lookIx h) (ordPlate h.order) || (plateAt s (lookIx h)).st == .stock) = true := by simp [hh, hst]
  have hempty' : lowestEmpty (idFreed s d) = some j := hempty
  refine Eq.trans (show createRemnant (fresh s) b h d = _ from if_neg hgo) ?_
  split
  case h_1 hj => exact absurd (hj.symm.trans hempty') (by simp)
  case h_2 i hi =>
    obtain rfl : i = j := Option.some.inj (hi.symm.trans hempty')
    rfl
end
section
variable {q : Plate}
theorem placeRemnant_rack (hn : autoSlot s q.length q.width = some n) : placeRemnant s b q =
    (setStock s { s.stock with slotRes := s.stock.slotRes ++ [⟨n, q.id, .bed b .remnantOut q.id⟩], toRack := s.stock.toRack + 1 },
      .rack n, .rack n) := by
  simp [placeRemnant, hn, reserve, setStock]
theorem placeRemnant_bay (hn : autoSlot s q.length q.width = none) (hroom : overflowUsed s < 8) : placeRemnant s b q =
    (setStock s { s.stock with
      overRes := s.stock.overRes ++ [⟨q.id, .bed b .remnantOut q.id⟩], toOverflow := s.stock.toOverflow + 1 }, .overflow, .overflow) := by
  simp [placeRemnant, hn, Config.overflow, hroom, reserve, setStock]
theorem placeRemnant_scrap (hn : autoSlot s q.length q.width = none) (hfull : 8 ≤ overflowUsed s) : placeRemnant s b q =
    (setStock s { s.stock with scrapped := s.stock.scrapped + 1 }, .scrapped, .scrap) := by
  simp [placeRemnant, hn, Config.overflow, Nat.not_lt.2 hfull]
end
theorem placeRemnant_kept (s : State) (b : BedId) (q : Plate) : (placeRemnant s b q).1.stock.table = s.stock.table ∧
    (placeRemnant s b q).1.stock.created = s.stock.created ∧ (placeRemnant s b q).1.stock.reservedIds = s.stock.reservedIds ∧
    (placeRemnant s b q).1.engine = s.engine := by
  unfold placeRemnant
  dsimp only
  split
  · exact ⟨rfl, rfl, rfl, rfl⟩
  · split <;> exact ⟨rfl, rfl, rfl, rfl⟩
theorem recordFilled_stock {p : Plate} : (recordFilled s b p d j).stock = { s.stock with
    reservedIds := s.stock.reservedIds.filter (fun e => e.1 != descId d), created := s.stock.created + 1
    table := s.stock.table.set j (remnantRecord s b p d) } := by simp [recordFilled, idFreed]
theorem sameArea_recordFilled {p : Plate} (hj : lowestEmpty s = some j) : SameArea s (recordFilled s b p d j) := by
  refine ⟨by simp [recordFilled, idFreed], fun l hl => ?_, by rw [recordFilled_stock], by rw [recordFilled_stock]⟩
  have hne : (remnantRecord s b p d).loc ≠ l := (hl b).symm
  rw [locatedAt, recordFilled_stock, locatedAt]
  exact filter_set_of_not (by simp [hne]) _ _ fun q hq => by simp [Plate.located, lowestEmpty_empty hj q hq]

/-! ## What follows the creation (R60, R61) -/

/-- The bed goes on with its order after the remnant's creation. -/
def unloadWith (s : State) (b : BedId) (h : Hand) : State :=
  let u := setRun s b { runOf s b with hand := some h }
  if ordPartsHold h.order then setRun u b { runOf u b with unl := .release } else postUnload u b h
theorem remnantCreation_bare (hdesc : h.desc = none) : remnantCreation (fresh s) b h =
    unloadWith (fresh s) b { h with remnant := .none, remRec := 0, remDest := .none } := by
  simp only [remnantCreation, hdesc]
  rfl
theorem remnantCreation_desc {out : State × RemnantResult × Nat × Loc} (hdesc : h.desc = some d)
    (hc : createRemnant (fresh s) b h d = out) : remnantCreation (fresh s) b h =
      unloadWith out.1 b { h with remnant := out.2.1, remRec := out.2.2.1, remDest := out.2.2.2 } := by
  simp only [remnantCreation, hdesc, hc]
  rfl
theorem unloadWith_kept (s : State) (b : BedId) (h : Hand) : (runOf (unloadWith s b h) b).hand = some h ∧
    (runOf (unloadWith s b h) b).unl = (if ordPartsHold h.order then .release else .posted) ∧
    (unloadWith s b h).stock = s.stock ∧ (unloadWith s b h).engine = s.engine ∧
    (unloadWith s b h).crane.inbox.get b =
      s.crane.inbox.get b ++ (if ordPartsHold h.order = false then remnantPosts h ++ skeletonPosts s h else []) := by
  unfold unloadWith
  cases ordPartsHold h.order
  · refine ⟨by simp, by simp, ?_, ?_, ?_⟩
    · simp [postUnload_eq, postSkeleton, apply_ite State.stock]
    · have hremnant : ∀ u : State, (postRemnant u b h).engine = u.engine := fun u => by
        unfold postRemnant
        split <;> simp
      simp [postUnload_eq, postSkeleton, apply_ite State.engine, hremnant]
    · have hposts := inbox_postUnload (setRun s b { runOf s b with hand := some h }) b h
      rw [skeletonPosts_congr (s := s) (by simp)] at hposts
      simpa using hposts
  · simp
theorem unloadWith_crane (hrem : h.remnant = .none)
    (hno : holds s (lookIx h) (ordPlate h.order) = false ∨ (plateAt s (lookIx h)).st = .stock) : (unloadWith s b h).crane = s.crane := by
  have hskeleton : ∀ u : State, u.stock = s.stock → postSkeleton u b h = u := fun u hu => by
    have hholds : holds u (lookIx h) (ordPlate h.order) = holds s (lookIx h) (ordPlate h.order) := by rw [holds, plateAt, hu]; rfl
    have hplate : plateAt u (lookIx h) = plateAt s (lookIx h) := by rw [plateAt, hu, plateAt]
    refine if_neg ?_
    rw [lookIx_eq, hholds, hplate]
    rcases hno with hno | hno <;> simp [hno]
  have hremnant : ∀ u : State, postRemnant u b h = u := fun u => by simp [postRemnant, hrem]
  unfold unloadWith
  cases ordPartsHold h.order
  · rw [if_neg (by decide), postUnload_eq, hremnant, hskeleton _ (by simp)]
    simp
  · simp

end Sys2Proof.Machine

namespace Sys2Proof.Proofs
open Sys2Proof.Machine

/-- Settles O45: the remnant's record and place, and the end of UNLOADING. -/
theorem remnantCreation : Obligations.RemnantCreation := by
  unfold Obligations.RemnantCreation
  refine ⟨fun s b h hhand => ⟨fun hstate hunl hlive => ?_, unloadEnd_stays⟩, fun s b h hhand hstate hunl =>
    ⟨fun hdesc => ?_, fun d hdesc hno => ?_, fun d hdesc hh hst => ⟨fun j hj => ?_, fun hempty => ?_⟩⟩⟩
  · rw [unloadEnd_ends hstate hunl hlive]
    exact ⟨by simp, returnsWith_returnOrder s b .done 0 none false .waiting hhand (by decide)⟩
  · obtain ⟨khand, kunl, kstock, -, kinbox⟩ := unloadWith_kept (fresh s) b { h with remnant := .none, remRec := 0, remDest := .none }
    rw [exec_remnantCreation hhand hstate hunl, remnantCreation_bare hdesc]
    refine ⟨_, _, rfl, kstock, khand, rfl, kunl, kinbox.trans ?_⟩
    cases hparts : ordPartsHold h.order
    · simp [remnantPosts, skeletonPosts, lookIx_eq]
      rfl
    · simp
  · obtain ⟨khand, kunl, kstock, -, -⟩ := unloadWith_kept (idFreed s d) b { h with remnant := .none, remRec := 0, remDest := .none }
    rw [exec_remnantCreation hhand hstate hunl, remnantCreation_desc hdesc (createRemnant_none hno)]
    exact ⟨_, _, rfl, khand, rfl, kunl, unloadWith_crane (s := idFreed s d) rfl hno, kstock⟩
  · have hplaced := createRemnant_placed (b := b) (d := d) hh hst hj
    have hqueued : queued (recordFilled s b (plateAt s (lookIx h)) d j) (.writeBack (.plate j)) = true := queued_setPlate_self ..
    have harea := sameArea_recordFilled (b := b) (d := d) (p := plateAt s (lookIx h)) hj
    have hstock := recordFilled_stock (s := s) (b := b) (d := d) (j := j) (p := plateAt s (lookIx h))
    generalize recordFilled s b (plateAt s (lookIx h)) d j = t at *
    obtain ⟨ptable, pcreated, pids, pengine⟩ := placeRemnant_kept t b (remnantRecord s b (plateAt s (lookIx h)) d)
    obtain ⟨khand, kunl, kstock, kengine, -⟩ := unloadWith_kept (placeRemnant t b (remnantRecord s b (plateAt s (lookIx h)) d)).1 b
      { h with
        remnant := (placeRemnant t b (remnantRecord s b (plateAt s (lookIx h)) d)).2.1, remRec := j
        remDest := (placeRemnant t b (remnantRecord s b (plateAt s (lookIx h)) d)).2.2 }
    rw [exec_remnantCreation hhand hstate hunl, remnantCreation_desc hdesc hplaced]
    refine ⟨_, _, rfl, khand, rfl, kunl, by rw [kstock, pcreated, hstock], by rw [kstock, ptable, hstock], ?_, fun e he => ?_,
      fun n hn => ?_, fun hn => ⟨fun hroom => ?_, fun hfull => ?_⟩⟩
    · rw [queued, kengine, pengine]
      exact hqueued
    · rw [kstock, pids, hstock] at he
      simpa using (List.mem_filter.1 he).2
    · have hrack := placeRemnant_rack (s := t) (b := b) (q := remnantRecord s b (plateAt s (lookIx h)) d) ((harea.autoSlot ..).trans hn)
      rw [kstock, hrack, hstock]
      exact ⟨rfl, rfl, rfl, rfl⟩
    · have hbay := placeRemnant_bay (s := t) (b := b) (q := remnantRecord s b (plateAt s (lookIx h)) d) ((harea.autoSlot ..).trans hn)
        (by rw [harea.overflowUsed]; exact hroom)
      rw [kstock, hbay, hstock]
      exact ⟨rfl, rfl⟩
    · have hscrap := placeRemnant_scrap (s := t) (b := b) (q := remnantRecord s b (plateAt s (lookIx h)) d)
        ((harea.autoSlot ..).trans hn) (by rw [harea.overflowUsed]; exact hfull)
      rw [kstock, hscrap, hstock]
      exact ⟨rfl, rfl, rfl⟩
  · obtain ⟨khand, -, kstock, -, -⟩ :=
      unloadWith_kept (setStock (idFreed s d) { (idFreed s d).stock with unregistered := s.stock.unregistered + 1 }) b
        { h with remnant := .notRegistered, remRec := 0, remDest := .none }
    rw [exec_remnantCreation hhand hstate hunl, remnantCreation_desc hdesc (createRemnant_full hh hst hempty)]
    exact ⟨_, _, rfl, khand, rfl, by rw [kstock]; rfl, by rw [kstock]; rfl⟩

end Sys2Proof.Proofs
end

/-! # STAGING, postings and withdrawals (R56, R58, R59, R129, R130, R144) -/

section
namespace Sys2Proof.Machine

variable {s : State} {b : BedId} {h : Hand}

/-! ## STAGING (R56, R58, R59) -/

section
variable (hhand : (runOf s b).hand = some h)
include hhand

/-- The bed draws: its zone is TORCH, and its marks start anew. -/
def drawStarted (s : State) (b : BedId) (h : Hand) : State :=
  let u := enter (setZone s b .torch) b (if 0 < ordMarks h.order then .marking else .burning)
  setRun u b { runOf u b with
    stream := .empty, arc := ⟨0, 0⟩, hand := some { h with burnStart := some s.clock },
    marks := { (runOf u b).marks with
      begun := true, cursor := 0, limit := none, pass := none, heatAsk := none
      table := (runOf u b).marks.table.map (fun x => ⟨x.raw, .pending, 0, .none, false⟩) } }
theorem stagingStep_starts (hready : stagingReady s b h = true) : stagingStep s b = drawStarted s b h := by
  simp only [stagingStep, hhand, hready, drawStarted]
  simp
theorem stagingStep_waits (hready : stagingReady s b h = false) (hno : plateHere s b h = true ∨ hasRequests s b = true) :
    stagingStep s b = s := by
  have hskip : (!plateHere s b h && !hasRequests s b) = false := by rcases hno with hno | hno <;> simp [hno]
  simp [stagingStep, hhand, hready, hskip]
theorem stagingStep_posts (hhere : plateHere s b h = false) (hno : hasRequests s b = false) :
    stagingStep s b = postRequest s b .loadBed (lookIx h) (ordPlate h.order) (.bed b) := by
  have hready : stagingReady s b h = false := by simp [stagingReady, hhere]
  simp [stagingStep, hhand, hready, hhere, hno, lookIx_eq]
end
theorem drawStarted_kept (s : State) (b : BedId) (h : Hand) : zoneOf (drawStarted s b h) b = .torch ∧
    (runOf (drawStarted s b h) b).state = (if 0 < ordMarks h.order then .marking else .burning) ∧
    (runOf (drawStarted s b h) b).hand = some { h with burnStart := some s.clock } ∧
    (runOf (drawStarted s b h) b).stream = .empty ∧ (runOf (drawStarted s b h) b).arc = ⟨0, 0⟩ ∧
    (runOf (drawStarted s b h) b).marks.begun = true ∧ (runOf (drawStarted s b h) b).marks.cursor = 0 ∧
    (runOf (drawStarted s b h) b).marks.table = (runOf s b).marks.table.map (fun x => ⟨x.raw, .pending, 0, .none, false⟩) := by
  refine ⟨?_, by simp [drawStarted], by simp [drawStarted], by simp [drawStarted], by simp [drawStarted], by simp [drawStarted],
    by simp [drawStarted], by simp [drawStarted]⟩
  simp [drawStarted, enter]

/-! ## The bed's list at the crane controller (R130, R144) -/

theorem backToBank_bed {m : Move} {k : ReqKind} {id : Nat} {q : BedReq} {rest : List BedReq} (hm : m.req = .bed b k id)
    (hbank : s.crane.bank.get b = q :: rest) (hq : q.inFlight = true) : backToBank s m = setCrane s { s.crane with
      bank := s.crane.bank.set b ({ q with inFlight := false } :: rest)
      inbox := s.crane.inbox.set b (s.crane.inbox.get b ++ (if q.orphan then [.withdraw] else [])) } := by
  cases horphan : q.orphan <;> simp [backToBank, hm, hbank, hq, horphan]
theorem foldl_releaseRes (f : BedReq → ReqId) (l : List BedReq) (s : State) :
    (l.foldl (fun s q => releaseRes s (f q)) s).crane = s.crane ∧ (l.foldl (fun s q => releaseRes s (f q)) s).stock.table = s.stock.table ∧
      (∀ r ∈ (l.foldl (fun s q => releaseRes s (f q)) s).stock.slotRes, r ∈ s.stock.slotRes ∧ ∀ q ∈ l, r.req ≠ f q) ∧
      (∀ r ∈ (l.foldl (fun s q => releaseRes s (f q)) s).stock.overRes, r ∈ s.stock.overRes ∧ ∀ q ∈ l, r.req ≠ f q) := by
  induction l generalizing s with
  | nil => exact ⟨rfl, rfl, fun r hr => ⟨hr, by simp⟩, fun r hr => ⟨hr, by simp⟩⟩
  | cons q l ih =>
    obtain ⟨hcrane, htable, hslots, hbay⟩ := ih (releaseRes s (f q))
    refine ⟨hcrane, htable, fun r hr => ?_, fun r hr => ?_⟩
    · obtain ⟨hmem, hl⟩ := hslots r hr
      obtain ⟨hmem, hq⟩ := List.mem_filter.1 hmem
      exact ⟨hmem, fun x hx => (List.mem_cons.1 hx).elim (fun h => h ▸ by simpa using hq) (hl x)⟩
    · obtain ⟨hmem, hl⟩ := hbay r hr
      obtain ⟨hmem, hq⟩ := List.mem_filter.1 hmem
      exact ⟨hmem, fun x hx => (List.mem_cons.1 hx).elim (fun h => h ▸ by simpa using hq) (hl x)⟩
theorem takeWithdraw_kept (s : State) (b : BedId) :
    (takeWithdraw s b).crane = { s.crane with
      bank := s.crane.bank.set b ((s.crane.bank.get b).filter (·.inFlight)), inbox := s.crane.inbox.set b (s.crane.inbox.get b).tail } ∧
    (∀ q ∈ s.crane.bank.get b, q.inFlight = false →
      (∀ r ∈ (takeWithdraw s b).stock.slotRes, r.req ≠ .bed b q.kind q.plate) ∧
      (∀ r ∈ (takeWithdraw s b).stock.overRes, r.req ≠ .bed b q.kind q.plate)) ∧
    (takeWithdraw s b).stock.table = s.stock.table := by
  obtain ⟨hcrane, htable, hslots, hbay⟩ := foldl_releaseRes (fun q => .bed b q.kind q.plate)
    ((s.crane.bank.get b).filter (!·.inFlight)) (setCrane s { s.crane with
      bank := s.crane.bank.set b ((s.crane.bank.get b).filter (·.inFlight)), inbox := s.crane.inbox.set b (s.crane.inbox.get b).tail })
  have hgone : ∀ q ∈ s.crane.bank.get b, q.inFlight = false → q ∈ (s.crane.bank.get b).filter (!·.inFlight) := fun q hq hf =>
    List.mem_filter.2 ⟨hq, by simp [hf]⟩
  exact ⟨hcrane, fun q hq hf => ⟨fun r hr => (hslots r hr).2 q (hgone q hq hf), fun r hr => (hbay r hr).2 q (hgone q hq hf)⟩, htable⟩

end Sys2Proof.Machine

namespace Sys2Proof.Proofs
open Sys2Proof.Machine

/-- Settles O46: STAGING's step, and postings and withdrawals taken. -/
theorem craneRequests : Obligations.CraneRequests := by
  unfold Obligations.CraneRequests
  refine ⟨fun s b h hhand => ⟨fun hhere hother hzone hmode => ?_, fun hhere hno => ?_, fun hhere => ⟨fun hreq => ?_, fun hreq => ?_⟩⟩,
    fun s m b k id q rest hm hbank hq => ?_, fun s b => ⟨fun q rest hinbox => ?_, fun rest hinbox => ?_⟩⟩
  · intro u
    have hu : u = drawStarted s b h := stagingStep_starts hhand (by simp [stagingReady, hhere, hother, hzone, hmode])
    rw [hu]
    exact drawStarted_kept s b h
  · refine stagingStep_waits hhand ?_ (.inl hhere)
    rcases hno with hno | hno | hno <;> simp [stagingReady, hno]
  · exact stagingStep_posts hhand hhere hreq
  · exact stagingStep_waits hhand (by simp [stagingReady, hhere]) (.inr hreq)
  · rw [backToBank_bed hm hbank hq]
    rfl
  · rw [exec_craneRequestPost hinbox]
    have htail : (s.crane.inbox.get b).tail = rest := by rw [hinbox, List.tail_cons]
    exact congrArg (fun l => Host.Outcome.next (settle s (setCrane (fresh s) { s.crane with
      bank := s.crane.bank.set b (s.crane.bank.get b ++ [q]), inbox := s.crane.inbox.set b l }))) htail
  · obtain ⟨hcrane, hgone, htable⟩ := takeWithdraw_kept (fresh s) b
    have htail : (s.crane.inbox.get b).tail = rest := by rw [hinbox, List.tail_cons]
    rw [exec_craneRequestWithdraw hinbox]
    exact ⟨_, rfl, by rw [hcrane, ← htail]; rfl, hgone, htable⟩

end Sys2Proof.Proofs
end

/-! # Steps sent, held and executed (R46, R60, R77, R80 to R83, R93, R106, R113) -/

section
namespace Sys2Proof.Machine

variable {s u : State} {b : BedId} {e : Entry}

theorem draw_bad {c : FormCfg} {cur : Cursor} {r : Raw} {code : Nat} (hexp : cur.exp = none)
    (hcode : formCode c cur.geo cur.recent cur.idx r = some code) : draw c true cur (some r) = (.bad ⟨cur.idx, 0, code⟩,
      { cur with recent := if rawKind r = kREPEAT then cur.recent else remember cur.recent cur.idx r }, true) := by
  simp [draw, hexp, hcode]

/-! ## A step judged by the interlock (R82, R106) -/

theorem maySend_cases (h : maySend s b = true) :
    (runOf s b).state = .burning ∧ (streamOf s b).pausing = false ∧ isLive s b = true := by
  simp only [maySend, Bool.and_eq_true, Bool.not_eq_true', beq_iff_eq, decide_eq_true_eq] at h
  obtain ⟨⟨⟨⟨⟨hstate, hpausing⟩, -⟩, hlive⟩, -⟩, -⟩ := h
  exact ⟨hstate, hpausing, hlive⟩
/-- The step `e` has been sent from the state `s`; without it the stream was `left`. -/
def stepSent (s u : State) (b : BedId) (e : Entry) (left : Stream) : Prop :=
  u.out = s.out ++ [.step b (streamOf s b).seq e.step] ∧
    streamOf u b = { left with
      window := (streamOf s b).window ++ [{ e with seq := (streamOf s b).seq }], seq := (streamOf s b).seq + 1, anySent := true
      endSent := (streamOf s b).endSent || e.step.kind == kEND }
/-- A step waits in the stream `left` with cause MARK_INTERLOCK, PAUSE sent where it is the first cause. -/
def stepWaits (s u : State) (b : BedId) (left : Stream) : Prop :=
  hasBit (runOf u b).pause pMARK = true ∧
    ((runOf s b).pause = 0 → u.out = s.out ++ [.pause b] ∧ streamOf u b = { left with pausing := true }) ∧
    ((runOf s b).pause ≠ 0 → u.out = s.out ∧ streamOf u b = left)
/-- What the interlock makes of the step `e`, taken from the stream as `out` or left there as `keep`. -/
def stepJudged (s : State) (b : BedId) (w : State × Bool) (e : Entry) (out keep : Stream) : Prop :=
  (interlock (runOf s b) e.step = .pass → w.2 = true ∧ stepSent s w.1 b e out) ∧
  (interlock (runOf s b) e.step = .hold → w.2 = false ∧ stepWaits s w.1 b keep) ∧
  ∀ k, interlock (runOf s b) e.step = .unmarked k → (w.2 = true ∧ stepSent s w.1 b e out) ∧
    (runOf w.1 b).marks.table = (runOf s b).marks.table.set k { markAt (runOf s b).marks k with unmarked := true }

theorem streamOf_setStream (t : Stream) : streamOf (setStream s b t) b = t := by simp [streamOf]
theorem setStream_streamOf (s : State) (b : BedId) : setStream s b (streamOf s b) = s := by
  cases b <;> rfl
theorem streamOf_sendPause : streamOf (sendPause s b) b = { streamOf s b with pausing := true } := by
  rw [streamOf, runOf_sendPause]
  rfl
theorem sendPause_live (h : isLive s b = true) : (sendPause s b).out = s.out ++ [.pause b] := by
  simp [sendPause, sendBed, h, emit]
theorem stepWaits_addPause {left : Stream} (hstate : (runOf s b).state = .burning) (hlive : isLive s b = true)
    (hp : left.pausing = false) : stepWaits s (addPause (setStream s b left) b pMARK) b left := by
  have hstate' : (runOf (setStream s b left) b).state = .burning := by simp [hstate]
  have hstream : ∀ x, streamOf (setRun (setStream s b left) b { runOf (setStream s b left) b with pause := x }) b = left := fun x => by
    simp [streamOf]
  rw [addPause_cutting (.inr hstate')]
  refine ⟨?_, fun hzero => ?_, fun hsome => ?_⟩
  · split <;> simp [runOf_sendPause, pMARK]
  · rw [if_pos ⟨by simp [hzero], by simp [hp]⟩, sendPause_live (by simpa using hlive)]
    refine ⟨by simp, ?_⟩
    rw [streamOf_sendPause, hstream]
  · rw [if_neg fun h => hsome (by simpa using h.1)]
    exact ⟨by simp, hstream _⟩
/-- The interlock's judgement of a step that is taken from a stream, be it drawn just before. -/
theorem stepJudged_sendJudged {t : Stream} {out keep : Stream → Stream} (hmay : maySend s b = true)
    (hwindow : (out t).window = (streamOf s b).window) (hseq : (out t).seq = (streamOf s b).seq)
    (hend : (out t).endSent = (streamOf s b).endSent) (hp : (keep t).pausing = false) :
    stepJudged s b (sendJudged (setStream s b t) b e out keep) e (out t) (keep t) := by
  obtain ⟨hstate, -, hlive⟩ := maySend_cases hmay
  have hstream : streamOf (setStream s b t) b = t := by simp [streamOf]
  have hlock : interlock (runOf (setStream s b t) b) e.step = interlock (runOf s b) e.step := by rw [runOf_setStream]; rfl
  have hset : ∀ x, setStream (setStream s b t) b x = setStream s b x := fun x => by simp [setStream]
  have hsent : ∀ v : State, v.out = s.out → isLive v b = true → streamOf v b = t →
      stepSent s (sendStep (setStream v b (out (streamOf v b))) b e) b e (out t) := fun v ho hl ht => by
    have htaken : streamOf (setStream v b (out (streamOf v b))) b = out t := by simp [streamOf, ← ht]
    refine ⟨?_, ?_⟩
    · rw [sendStep_out (by simpa using hl), htaken, hseq]
      simp [ho]
    · rw [streamOf, runOf_sendStep, htaken, hwindow, hseq, hend]
  unfold sendJudged
  rw [hlock]
  refine ⟨fun h => ?_, fun h => ?_, fun k h => ?_⟩
  · rw [h]
    exact ⟨rfl, hsent _ (by simp) (by simpa using hlive) hstream⟩
  · rw [h]
    refine ⟨rfl, ?_⟩
    dsimp only
    rw [hstream, hset]
    exact stepWaits_addPause hstate hlive hp
  · rw [h]
    refine ⟨⟨rfl, hsent _ (by simp) (by simpa using hlive) (by simp [streamOf])⟩, ?_⟩
    simp [runOf_sendStep, setMark]

/-! ## What a bed sends or draws (R77, R81, R93, R113) -/

theorem pumpOnce_none (h : maySend s b = false ∨ (nextPierce (streamOf s b)).isSome = true) : pumpOnce s b = (s, false) := by
  rcases h with h | h
  · simp [pumpOnce, h]
  · have h' : (nextPierce (runOf s b).stream).isSome = true := h
    by_cases hmay : maySend s b = true
    · simp [pumpOnce, hmay, h']
    · simp [pumpOnce, hmay]

section
variable (hmay : maySend s b = true) (hpierce : nextPierce (streamOf s b) = none) (hsynth : (streamOf s b).synth = false)
include hmay hpierce hsynth

theorem pumpOnce_resend {rest : List Entry} (hr : (streamOf s b).resend = e :: rest) :
    pumpOnce s b = sendJudged s b e (fun t => { t with resend := rest }) (fun t => t) := by
  have hpierce' : nextPierce (runOf s b).stream = none := hpierce
  have hsynth' : (runOf s b).stream.synth = false := hsynth
  have hr' : (runOf s b).stream.resend = e :: rest := hr
  simp [pumpOnce, hmay, hpierce', hsynth', hr']
theorem pumpOnce_resend_judged {rest : List Entry} (hr : (streamOf s b).resend = e :: rest) :
    stepJudged s b (pumpOnce s b) e { streamOf s b with resend := rest } (streamOf s b) := by
  have hj := stepJudged_sendJudged (e := e) (t := streamOf s b) (out := fun t => { t with resend := rest }) (keep := fun t => t)
    hmay rfl rfl rfl (maySend_cases hmay).2.1
  rw [setStream_streamOf, ← pumpOnce_resend hmay hpierce hsynth hr] at hj
  exact hj
variable (hr : (streamOf s b).resend = [])
include hr
theorem pumpOnce_held (hh : (streamOf s b).held = some e) :
    pumpOnce s b = sendJudged s b e (fun t => { t with held := none }) (fun t => t) := by
  have hpierce' : nextPierce (runOf s b).stream = none := hpierce
  have hsynth' : (runOf s b).stream.synth = false := hsynth
  have hr' : (runOf s b).stream.resend = [] := hr
  have hh' : (runOf s b).stream.held = some e := hh
  simp [pumpOnce, hmay, hpierce', hsynth', hr', hh']
theorem pumpOnce_held_judged (hh : (streamOf s b).held = some e) :
    stepJudged s b (pumpOnce s b) e { streamOf s b with held := none } (streamOf s b) := by
  have hj := stepJudged_sendJudged (e := e) (t := streamOf s b) (out := fun t => { t with held := none }) (keep := fun t => t)
    hmay rfl rfl rfl (maySend_cases hmay).2.1
  rw [setStream_streamOf, ← pumpOnce_held hmay hpierce hsynth hr hh] at hj
  exact hj
/-- What drawing gives, and the stream behind it. -/
def drawn (s : State) (b : BedId) (h : Hand) : Drawn × Cursor × Bool :=
  draw (formCfg s b h) (!fullCheck s b h) (streamOf s b).cursor (streamOf s b).fifo.head?
def drawnStream (s : State) (b : BedId) (h : Hand) : Stream :=
  { streamOf s b with
    cursor := (drawn s b h).2.1, fifo := if (drawn s b h).2.2 then (streamOf s b).fifo.tail else (streamOf s b).fifo }
variable {h : Hand} (hh : (streamOf s b).held = none) (hend : (streamOf s b).endSent = false) (hhand : (runOf s b).hand = some h)
include hh hend hhand
theorem pumpOnce_draws {w : Drawn} : (drawn s b h).1 = w → pumpOnce s b =
      match w with
      | .wait => (setStream s b (drawnStream s b h), false)
      | .taken => (setStream s b (drawnStream s b h), true)
      | .bad f => (sendPause (setStream s b { drawnStream s b h with form := some f }) b, false)
      | .step e =>
        if e.step.kind == kPIERCE then (setStream s b { drawnStream s b h with held := some e }, false)
        else sendJudged (setStream s b (drawnStream s b h)) b e (fun t => t) (fun t => { t with held := some e }) := by
  intro hw
  have hpierce' : nextPierce (runOf s b).stream = none := hpierce
  have hsynth' : (runOf s b).stream.synth = false := hsynth
  have hr' : (runOf s b).stream.resend = [] := hr
  have hh' : (runOf s b).stream.held = none := hh
  have hend' : (runOf s b).stream.endSent = false := hend
  have hset : ∀ x y, setStream (setStream s b x) b y = setStream s b y := fun x y => by simp [setStream]
  have hw' : (draw (formCfg s b h) (!fullCheck s b h) (runOf s b).stream.cursor (runOf s b).stream.fifo.head?).1 = w := hw
  simp only [pumpOnce, drawnStream, drawn, streamOf, hmay, hpierce', hsynth', hr', hh', hend', hhand, hset, hw']
  cases w <;> rfl
theorem pumpOnce_drawn_judged (he : (drawn s b h).1 = .step e) (hkind : e.step.kind ≠ kPIERCE) :
    stepJudged s b (pumpOnce s b) e (drawnStream s b h) { drawnStream s b h with held := some e } := by
  have hj := stepJudged_sendJudged (e := e) (t := drawnStream s b h) (out := fun t => t) (keep := fun t => { t with held := some e })
    hmay rfl rfl rfl (maySend_cases hmay).2.1
  have heq := (pumpOnce_draws hmay hpierce hsynth hr hh hend hhand he).trans (if_neg (by simpa using hkind))
  rw [← heq] at hj
  exact hj
theorem pumpOnce_drawn_bad {f : FormStop} (hf : (drawn s b h).1 = .bad f) : (pumpOnce s b).2 = false ∧
    (pumpOnce s b).1.out = s.out ++ [.pause b] ∧
    streamOf (pumpOnce s b).1 b = { drawnStream s b h with form := some f, pausing := true } := by
  obtain ⟨-, -, hlive⟩ := maySend_cases hmay
  rw [pumpOnce_draws hmay hpierce hsynth hr hh hend hhand hf]
  refine ⟨rfl, ?_, ?_⟩
  · rw [sendPause_live (by simpa using hlive)]
    simp
  · rw [streamOf_sendPause, streamOf_setStream]
end

/-! ## What a STEP_DONE executes (R46, R60, R82, R83) -/

/-- The state with the head of the window taken, the token released where it was the outstanding PIERCE. -/
def stepTaken (s : State) (b : BedId) (e : Entry) (rest : List Entry) : State :=
  let u := if endsPierce (runOf s b) e then releaseToken s b else s
  setStream u b { streamOf u b with window := rest }
theorem stepTaken_kept (s : State) (b : BedId) (e : Entry) (rest : List Entry) :
    runOf (stepTaken s b e rest) b = { runOf s b with
      pierce := if endsPierce (runOf s b) e then none else (runOf s b).pierce, stream := { streamOf s b with window := rest } } ∧
    (stepTaken s b e rest).faults = s.faults ∧ (stepTaken s b e rest).clock = s.clock ∧
    (endsPierce (runOf s b) e = true → (stepTaken s b e rest).arb.token ≠ some b) := by
  unfold stepTaken
  split
  case isTrue h => exact ⟨by simp [streamOf], by simp, by simp, fun _ => by simpa using releaseToken_token s b⟩
  case isFalse h => exact ⟨by simp [streamOf], by simp, by simp, fun h' => absurd h' h⟩
theorem stepDone_head {rest : List Entry} (hstate : (runOf s b).state = .burning ∨ (runOf s b).state = .stopping)
    (hw : (streamOf s b).window = e :: rest) : stepDone s b e.seq = execEntry (stepTaken s b e rest) b e := by
  have hw' : (runOf s b).stream.window = e :: rest := hw
  rcases hstate with hstate | hstate
  all_goals
    simp only [stepDone, hstate, hw', beq_self_eq_true, if_true]
    rfl
theorem stepDone_other {n : Byte} (hstate : (runOf s b).state = .marking ∨ (runOf s b).state = .burning)
    (hne : (streamOf s b).window.head?.map (·.seq) ≠ some n) : stepDone s b n = gantryFault s b := by
  cases hw : (runOf s b).stream.window with
  | nil => rcases hstate with h | h <;> simp [stepDone, h, hw]
  | cons e rest =>
    have hseq : e.seq ≠ n := fun hseq => hne (by simp [streamOf, hw, hseq])
    rcases hstate with h | h <;> simp [stepDone, h, hw, hseq]
theorem stepDone_paused {n : Byte} (h : (runOf s b).state = .paused) : stepDone s b n = gantryFault s b := by
  simp only [stepDone, h]

theorem enterUnloading_kept (s : State) (b : BedId) :
    let u := enterUnloading s b
    (runOf u b).state = .unloading ∧ (runOf u b).unl = .creation ∧ (streamOf u b).exArc = (streamOf s b).exArc ∧
      (runOf u b).permit = false ∧ zoneOf u b = .free ∧ u.locks.owns b = false ∧
      (runOf u b).hand = (runOf s b).hand.map (fun h => { h with burnEnd := some s.clock, unloading := true }) :=
  ⟨by simp [enterUnloading, emptyFifo, dropFetch], by simp [enterUnloading], by simp [enterUnloading, streamOf, emptyFifo, dropFetch],
    by simp [enterUnloading, emptyFifo, dropFetch], by simp [enterUnloading, enter], by simp [enterUnloading, releaseLocks_owns],
    by simp [enterUnloading, emptyFifo, dropFetch]⟩
/-- The run of bed `b` with the entry's effect on its stream and arc counters. -/
def entryRun (r : BedRun) (e : Entry) : BedRun := { r with stream := executed r.stream e, arc := if arcOff e then ⟨0, 0⟩ else r.arc }
theorem execEntry_step (h : e.step.kind ≠ kEND) : execEntry s b e = setRun s b (entryRun (runOf s b) e) := by
  simp only [execEntry]
  exact if_pos (by simpa using h)
theorem execEntry_end (h : e.step.kind = kEND) (hstate : (runOf s b).state ≠ .stopping) :
    execEntry s b e = enterUnloading (setRun s b (entryRun (runOf s b) e)) b := by
  simp only [execEntry]
  rw [if_neg (by simp [h]), if_pos (by simpa using hstate)]
  rfl
theorem execEntry_end_stopping (h : e.step.kind = kEND) (hstate : (runOf s b).state = .stopping) :
    execEntry s b e = setRun s b { entryRun (runOf s b) e with
      hand := (runOf s b).hand.map (fun h => { h with burnEnd := some s.clock }) } := by
  simp only [execEntry]
  rw [if_neg (by simp [h]), if_neg (by simp [hstate])]
  simp [entryRun]

/-! ## STEP_DONE of the window's head, by the bed's state -/

section
variable {rest : List Entry} (hw : (streamOf s b).window = e :: rest)
include hw

theorem stepDone_stopping {h : Hand} (hstate : (runOf s b).state = .stopping) (hhand : (runOf s b).hand = some h) :
    let u := stepDone s b e.seq
    (runOf u b).state = .stopping ∧ (streamOf u b).window = rest ∧
      (runOf u b).hand = some (if e.step.kind = kEND then { h with burnEnd := some s.clock } else h) := by
  obtain ⟨hrun, -, hclock, -⟩ := stepTaken_kept s b e rest
  dsimp only
  rw [stepDone_head (.inr hstate) hw]
  by_cases hkind : e.step.kind = kEND
  · rw [execEntry_end_stopping hkind (by simpa [hrun] using hstate)]
    exact ⟨by simpa [entryRun, hrun] using hstate, by simp [streamOf, entryRun, executed, hrun], by simp [hrun, hhand, hkind, hclock]⟩
  · rw [execEntry_step hkind]
    exact ⟨by simpa [entryRun, hrun] using hstate, by simp [streamOf, entryRun, executed, hrun], by simp [entryRun, hrun, hhand, hkind]⟩

variable (hstate : (runOf s b).state = .burning)
include hstate

theorem stepDone_burning (hkind : e.step.kind ≠ kEND) :
    let u := stepDone s b e.seq
    (runOf u b).state = .burning ∧ (streamOf u b).window = rest ∧
      (streamOf u b).steps = (if e.synth then (streamOf s b).steps else (streamOf s b).steps + 1) ∧
      (streamOf u b).exArc = (if e.step.kind = kPIERCE then true else if e.step.kind = kTORCH_OFF then false
        else (streamOf s b).exArc) ∧
      (∀ p, (runOf s b).pierce = some p → p.seq = e.seq → (runOf u b).pierce = none ∧ u.arb.token ≠ some b) ∧
      u.faults = s.faults := by
  obtain ⟨hrun, hfaults, -, htoken⟩ := stepTaken_kept s b e rest
  dsimp only
  rw [stepDone_head (.inl hstate) hw, execEntry_step hkind]
  refine ⟨by simpa [entryRun, hrun] using hstate, by simp [streamOf, entryRun, executed, hrun],
    by simp [streamOf, entryRun, executed, hrun], by simp [streamOf, entryRun, executed, arcOff, hrun, hkind],
    fun p hp hs => ?_, hfaults⟩
  have hends : endsPierce (runOf s b) e = true := by simp [endsPierce, hp, hs]
  exact ⟨by simp [entryRun, hrun, hends], by simpa using htoken hends⟩
theorem stepDone_burning_end (hkind : e.step.kind = kEND) :
    let u := stepDone s b e.seq
    (runOf u b).state = .unloading ∧ (runOf u b).unl = .creation ∧ (streamOf u b).exArc = false ∧ (runOf u b).permit = false ∧
      zoneOf u b = .free ∧ u.locks.owns b = false ∧
      (∀ h, (runOf s b).hand = some h → ((runOf u b).hand.map fun x => (x.burnEnd, x.unloading)) = some (some s.clock, true)) := by
  obtain ⟨hrun, -, hclock, -⟩ := stepTaken_kept s b e rest
  obtain ⟨hst, hunl, harc, hpermit, hzone, howns, hh⟩ :=
    enterUnloading_kept (setRun (stepTaken s b e rest) b (entryRun (runOf (stepTaken s b e rest) b) e)) b
  dsimp only
  rw [stepDone_head (.inl hstate) hw, execEntry_end hkind (by simp [hrun, hstate])]
  refine ⟨hst, hunl, harc.trans ?_, hpermit, hzone, howns, fun h hhand => ?_⟩
  · simp [streamOf, entryRun, executed, arcOff, hkind, kEND, kPIERCE]
  · rw [hh]
    simp [entryRun, hrun, hhand, hclock]
end

end Sys2Proof.Machine

namespace Sys2Proof.Proofs
open Sys2Proof.Machine

/-- Settles O47: each draw and each send by its case of `pumpOnce`, and STEP_DONE by what the head of the window executes. -/
theorem stepDone : Obligations.StepDone := by
  refine ⟨fun c u r code => draw_bad, fun s b => pumpOnce_none, ?_, ?_, fun s b n => ⟨?_, ?_, ?_⟩⟩
  · intro s b hmay hpierce hsynth
    refine ⟨fun e rest => pumpOnce_resend_judged hmay hpierce hsynth, fun e => pumpOnce_held_judged hmay hpierce hsynth,
      fun h hr hh hend hhand => ?_⟩
    have hdraws := fun w => pumpOnce_draws (w := w) hmay hpierce hsynth hr hh hend hhand
    exact ⟨fun e => pumpOnce_drawn_judged hmay hpierce hsynth hr hh hend hhand,
      fun e he hkind => (hdraws (.step e) he).trans (if_pos (by simpa using hkind)),
      fun f => pumpOnce_drawn_bad hmay hpierce hsynth hr hh hend hhand, hdraws .taken, hdraws .wait⟩
  · intro s b n e rest h hhears hw hseq hhand
    subst hseq
    have hclock : (heard s b).clock = s.clock := rfl
    exact ⟨_, exec_gantryStepDone hhears, by
      simpa [hclock] using stepDone_stopping (s := heard s b) (by simpa [streamOf] using hw) (by simpa using hhears.2.1) (by simpa using hhand)⟩
  · intro e rest hhears hw hseq
    subst hseq
    have hclock : (heard s b).clock = s.clock := rfl
    have hfaults : (heard s b).faults = s.faults := rfl
    have hw' : (streamOf (heard s b) b).window = e :: rest := by simpa [streamOf] using hw
    have hstate : (runOf (heard s b) b).state = .burning := by simpa using hhears.2.1
    exact ⟨fun hkind => ⟨_, exec_gantryStepDone hhears, by simpa [streamOf, hfaults] using stepDone_burning hw' hstate hkind⟩,
      fun hkind => ⟨_, exec_gantryStepDone hhears, by simpa [hclock] using stepDone_burning_end hw' hstate hkind⟩⟩
  · intro hhears hne
    have hears : ∃ t, bedHears s b t ∧ (t = .marking ∨ t = .burning) :=
      hhears.elim (fun h => ⟨_, h, .inl rfl⟩) (fun h => ⟨_, h, .inr rfl⟩)
    obtain ⟨t, hears, ht⟩ := hears
    refine ⟨_, exec_gantryStepDone hears, ?_⟩
    rw [stepDone_other (by simpa [hears.2.1] using ht) (by simpa [streamOf] using hne)]
    exact faultBed_faulted _ _ _ (by decide) (by decide)
  · intro hhears
    refine ⟨_, exec_gantryStepDone hhears, ?_⟩
    rw [stepDone_paused (by simpa using hhears.2.1)]
    exact faultBed_faulted _ _ _ (by decide) (by decide)

end Sys2Proof.Proofs
end

/-! # The ends of a PIERCE (R64, R118 to R121) -/

section
namespace Sys2Proof.Machine

variable {s : State} {b : BedId}

/-- The first pause cause of a bed that cuts leaves a PAUSE outstanding (R90). -/
theorem addPause_pausing {i : Nat} (h : (runOf s b).state = .burning) (hzero : (runOf s b).pause = 0) :
    (streamOf (addPause s b i) b).pausing = true := by
  rw [addPause_cutting (.inr h)]
  split
  case isTrue => simp [streamOf_sendPause]
  case isFalse hnot =>
    have hpausing : (runOf s b).stream.pausing = true := by
      by_contra hp
      exact hnot ⟨hzero, by simpa using hp⟩
    simpa [streamOf] using hpausing
theorem pierceFails_kept (h : (runOf s b).state = .burning) :
    let u := pierceFails s b
    (runOf u b).pierce = none ∧ u.arb.token ≠ some b ∧ hasBit (u.faults.beds.get b).flags fPIERCE_FAIL = true ∧
      hasBit (runOf u b).pause pPIERCE = true ∧ (runOf u b).state = .burning ∧
      ((runOf s b).pause = 0 → (streamOf u b).pausing = true) := by
  have hrun : runOf (bedFlag (releaseToken s b) b fPIERCE_FAIL) b = { runOf s b with pierce := none } := by simp
  obtain ⟨hpause, hstate, -, -, hpierce, -⟩ := addPause_run (bedFlag (releaseToken s b) b fPIERCE_FAIL) b pPIERCE (by
    simp [h, activeState])
  refine ⟨by simp [pierceFails, hpierce], ?_, ?_, ?_, by simp [pierceFails, hstate, h],
    fun hzero => addPause_pausing (by simp [h]) (by simp [hzero])⟩
  · simpa [pierceFails] using releaseToken_token s b
  · simp [pierceFails, bedFlag, fPIERCE_FAIL]
  · simp only [pierceFails, hpause]
    exact hasBit_setBit_self _ (by decide)
theorem pierceDue_iff {p : Pierce} (hp : (runOf s b).pierce = some p) : pierceDue s b = true ↔
    ((runOf s b).state = .burning ∨ (runOf s b).state = .stopping) ∧ 8000 ≤ (s.clock - p.start).toNat := by
  simp [pierceDue, hp, due_iff, Config.pierce]

end Sys2Proof.Machine

namespace Sys2Proof.Proofs
open Sys2Proof.Machine

/-- Settles O48: a pierce done or over releases the token, and its failure in BURNING pauses the bed. -/
theorem pierceEnds : Obligations.PierceEnds := by
  intro s b p hp
  refine ⟨fun h => ⟨_, exec_gantryPierceDone h, ?_⟩, fun c hc => ?_, fun c hc => ?_⟩
  · have heq : pierceDone (heard s b) b = releaseToken (heard s b) b := by simp [pierceDone, h.2.1, hp]
    rw [heq]
    exact ⟨by simp, releaseToken_token _ b, by simp; rfl, by simp⟩
  · have hfails : ∃ v, exec c s = .next (settle s (pierceFails v b)) ∧ runOf v b = runOf s b ∧ (runOf s b).state = .burning := by
      rcases hc with ⟨rfl, h⟩ | ⟨rfl, h, hdue⟩
      · refine ⟨heard s b, ?_, by simp, h.2.1⟩
        rw [exec_gantryPierceFail h]
        simp [pierceFail, h.2.1, hp]
      · refine ⟨fresh s, ?_, rfl, h⟩
        rw [exec_pierceTimeout ((pierceDue_iff hp).2 ⟨.inl h, hdue⟩), if_pos (by simp [h])]
    obtain ⟨v, hexec, hrun, hstate⟩ := hfails
    refine ⟨_, hexec, ?_⟩
    rw [← hrun] at hstate ⊢
    exact pierceFails_kept hstate
  · have hreleases : ∃ v, exec c s = .next (settle s (releaseToken v b)) ∧ runOf v b = runOf s b ∧ v.faults = s.faults ∧
        (runOf s b).state = .stopping := by
      rcases hc with ⟨rfl | rfl, h⟩ | ⟨rfl, h, hdue⟩
      · refine ⟨heard s b, ?_, by simp, rfl, h.2.1⟩
        rw [exec_gantryPierceDone h]
        simp [pierceDone, h.2.1]
      · refine ⟨heard s b, ?_, by simp, rfl, h.2.1⟩
        rw [exec_gantryPierceFail h]
        simp [pierceFail, h.2.1]
      · refine ⟨fresh s, ?_, rfl, rfl, h⟩
        rw [exec_pierceTimeout ((pierceDue_iff hp).2 ⟨.inr h, hdue⟩), if_neg (by simp [h])]
    obtain ⟨v, hexec, hrun, hfaults, hstate⟩ := hreleases
    exact ⟨_, hexec, by simp, releaseToken_token v b, by simpa using hfaults, by simpa [hrun] using hstate, by simp [hrun],
      by simp [hrun], by simp [hrun], by simp [hrun]⟩

end Sys2Proof.Proofs
end

/-! # The arc monitor and the link of a bed (R85, R87, R123 to R126) -/

section
namespace Sys2Proof.Machine

variable {s : State} {b : BedId} {v : Nat}

/-! ## A sample of the arc voltage -/

theorem arcSample_idle (h : arcCounted (runOf s b) = false) : arcSample s b v = s := by
  simp [arcSample, h]
section
variable (hc : arcCounted (runOf s b) = true) (hn : 1 ≤ (bedCfg s b).arcN)
include hc

theorem arcSample_high (hv : (bedCfg s b).arcHigh < v) (hle : (bedCfg s b).arcN ≤ (runOf s b).arc.high + 1) :
    arcSample s b v = addPause (setRun (bedFlag s b fARC_HIGH) b { runOf s b with arc := ⟨0, 0⟩ }) b pARC := by
  simp [arcSample, hc, arcNext, hv, hle]
include hn
theorem arcSample_above (hv : (bedCfg s b).arcHigh < v) (hlt : (runOf s b).arc.high + 1 < (bedCfg s b).arcN) :
    arcSample s b v = setRun s b { runOf s b with arc := ⟨(runOf s b).arc.high + 1, 0⟩ } := by
  have hzero : ¬(bedCfg s b).arcN ≤ 0 := by omega
  simp [arcSample, hc, arcNext, hv, hlt, hzero]
theorem arcSample_low (hv : v ≤ (bedCfg s b).arcHigh) (hv' : v < (bedCfg s b).arcLow)
    (hle : (bedCfg s b).arcN ≤ (runOf s b).arc.low + 1) :
    arcSample s b v = faultBed (setRun s b { runOf s b with arc := ⟨0, 0⟩ }) b fARC_LOW dARC_LOW := by
  have hzero : ¬(bedCfg s b).arcN ≤ 0 := by omega
  simp [arcSample, hc, arcNext, hv', hle, hzero, Nat.not_lt.2 hv]
theorem arcSample_below (hv : v ≤ (bedCfg s b).arcHigh) (hv' : v < (bedCfg s b).arcLow)
    (hlt : (runOf s b).arc.low + 1 < (bedCfg s b).arcN) :
    arcSample s b v = setRun s b { runOf s b with arc := ⟨0, (runOf s b).arc.low + 1⟩ } := by
  have hzero : ¬(bedCfg s b).arcN ≤ 0 := by omega
  simp [arcSample, hc, arcNext, hv', hlt, hzero, Nat.not_lt.2 hv]
theorem arcSample_inside (hv : v ≤ (bedCfg s b).arcHigh) (hv' : (bedCfg s b).arcLow ≤ v) :
    arcSample s b v = setRun s b { runOf s b with arc := ⟨0, 0⟩ } := by
  have hzero : ¬(bedCfg s b).arcN ≤ 0 := by omega
  simp [arcSample, hc, arcNext, hzero, Nat.not_lt.2 hv, Nat.not_lt.2 hv']
end
theorem arcCounted_cut {e : Entry} {rest : List Entry} (h : (runOf s b).state = .burning) (hw : (streamOf s b).window = e :: rest)
    (hk : e.step.kind = kLINE ∨ e.step.kind = kARC) (hsynth : e.synth = false) : arcCounted (runOf s b) = true := by
  have hw' : (runOf s b).stream.window = e :: rest := hw
  simpa [arcCounted, h, hw', isCut, hsynth] using hk
theorem arcCounted_no (h : (runOf s b).state ≠ .burning ∨ (streamOf s b).window = [] ∨ ∃ e rest, (streamOf s b).window = e :: rest ∧
    (e.synth = true ∨ (e.step.kind ≠ kLINE ∧ e.step.kind ≠ kARC))) : arcCounted (runOf s b) = false := by
  rcases h with h | h | ⟨e, rest, h, hno⟩
  · simp [arcCounted, h]
  · have hw : (runOf s b).stream.window = [] := h
    simp [arcCounted, hw]
  · have hw : (runOf s b).stream.window = e :: rest := h
    rcases hno with hno | ⟨hline, harc⟩
    · simp [arcCounted, hw, hno]
    · simp [arcCounted, hw, isCut, hline, harc]

/-! ## The link of a bed (R85) -/

theorem linkLost_stopped (h : (runOf s b).state = .stopped ∨ (runOf s b).state = .faulted) :
    linkLost s b = bedFlag (setLink s b { (bedOf s b).lk with live := false, hold := false }) b fLINK_LOST := by
  rcases h with h | h <;> simp [linkLost, h, cuttingState]
theorem linkLost_stopping (h : (runOf s b).state = .stopping) : linkLost s b =
    endStopping (bedFlag (setLink s b { (bedOf s b).lk with live := false, hold := false }) b fLINK_LOST) b
      (((runOf s b).stop.map (·.outcome)).getD .stopped) .other := by
  simp [linkLost, h, cuttingState]
theorem lk_of_quiet {t : State} (h : quiet t = quiet s) (b : BedId) : (bedOf t b).lk = (bedOf s b).lk := by
  cases b
  · exact congrArg (·.beds.b0.lk) h
  · exact congrArg (·.beds.b1.lk) h
  · exact congrArg (·.beds.b2.lk) h
  · exact congrArg (·.beds.b3.lk) h
/-- FAULTED ends the link hold, and leaves the rest of the link (R63). -/
theorem lk_enterFaulted (o : Outcome) (c : Nat) (p : Option (Nat × Nat)) :
    (bedOf (enterFaulted s b o c p) b).lk = { (bedOf s b).lk with hold := false } := by
  have hgive : ∀ u : State, (bedOf (giveUp (withdrawAll u b) b) b).lk = (bedOf u b).lk := fun u =>
    (lk_of_quiet (quiet_giveUp (withdrawAll u b) b) b).trans rfl
  unfold enterFaulted
  dsimp only
  split <;> split <;> simp [hgive]
theorem lk_faultBed {i d : Nat} : (bedOf (faultBed s b i d) b).lk = { (bedOf s b).lk with hold := false } := by
  simp [faultBed, lk_enterFaulted]
/-- The link of a bed that works is lost: a form stop that waits sets its flag too (R77, R85). -/
theorem linkLost_works (hstate : (runOf s b).state ≠ .stopped ∧ (runOf s b).state ≠ .faulted ∧ (runOf s b).state ≠ .absent ∧
    (runOf s b).state ≠ .stopping) : ∃ u, linkLost s b = faultBed u b fLINK_LOST dLINK_LOST ∧ isLive u b = false := by
  obtain ⟨hstopped, hfaulted, habsent, hstopping⟩ := hstate
  let v := setLink s b { (bedOf s b).lk with live := false, hold := false }
  refine ⟨if (runOf v b).stream.form.isSome && cuttingState (runOf v b).state then bedFlag v b fSTEP_FORM else v, ?_, ?_⟩
  · have hrun : (runOf v b).state = (runOf s b).state := by simp [v]
    unfold linkLost
    dsimp only
    split
    case h_1 h => exact absurd (hrun ▸ h) hstopped
    case h_2 h => exact absurd (hrun ▸ h) hfaulted
    case h_3 h => exact absurd (hrun ▸ h) habsent
    case h_4 h => exact absurd (hrun ▸ h) hstopping
    case h_5 => rfl
  · split <;> simp [v, isLive]

/-- What the end of STOPPING leaves, of the bed and of its link (R64, R70). -/
theorem endStopping_stopped (o : Outcome) (how : ResetEnd) : (bedOf (endStopping s b o how) b).lk = (bedOf s b).lk ∧
    (runOf (endStopping s b o how) b).state = .stopped ∧ (runOf (endStopping s b o how) b).hand = none := by
  have hreturn : ∀ k, (runOf (returnOrder s b o 0 none k) b).hand = none := fun k => by
    cases hhand : (runOf s b).hand with
    | none => rw [returnOrder_none _ _ _ _ _ _ hhand, hhand]
    | some h => simp [runOf_returnOrder _ _ _ _ _ _ hhand, afterReturn, BedRun.cleared]
  have hreset : ∀ u : State, (bedOf (bedResetEnd u b how) b).lk = (bedOf u b).lk := fun u => by
    have hgive := lk_of_quiet (quiet_giveUp u b) b
    simpa [bedResetEnd] using hgive
  unfold endStopping
  dsimp only
  split
  · obtain ⟨-, -, -, -, hstate, hhand⟩ := bedResetEnd_kept
      (s := enter (returnOrder s b o 0 none (((runOf s b).hand.map (·.unloading)).getD false)) b .stopped) (b := b) (how := how)
    exact ⟨(hreset _).trans (by simp), hstate, hhand⟩
  · exact ⟨by simp, by simp, by simp [hreturn]⟩
/-- The link of a present bed is lost, whatever the bed does (R85). -/
theorem linkLost_kept (h : (runOf s b).state ≠ .absent) :
    let u := linkLost s b
    isLive u b = false ∧ (bedOf u b).lk.hold = false ∧ hasBit (u.faults.beds.get b).flags fLINK_LOST = true ∧
      ((runOf s b).state = .stopped → (runOf u b).state = .stopped) ∧
      ((runOf s b).state ≠ .stopped → (runOf s b).state ≠ .stopping → (runOf u b).state = .faulted) ∧
      ((runOf s b).state = .stopping → (runOf u b).state = .stopped ∧ (runOf u b).hand = none) := by
  by_cases hidle : (runOf s b).state = .stopped ∨ (runOf s b).state = .faulted
  · rw [linkLost_stopped hidle]
    refine ⟨by simp [isLive], by simp, by simp [bedFlag, fLINK_LOST], fun ht => by simp [ht], fun ht _ => ?_, fun ht => ?_⟩
    · simpa using hidle.resolve_left ht
    · simp [ht] at hidle
  by_cases hstopping : (runOf s b).state = .stopping
  · rw [linkLost_stopping hstopping]
    obtain ⟨hlk, hend⟩ := endStopping_stopped (s := bedFlag (setLink s b { (bedOf s b).lk with live := false, hold := false }) b fLINK_LOST)
      (b := b) (((runOf s b).stop.map (·.outcome)).getD .stopped) .other
    exact ⟨by simp [isLive, hlk], by simp [hlk], by simp [bedFlag, fLINK_LOST], fun ht => by simp [ht] at hstopping,
      fun _ ht => absurd hstopping ht, fun _ => hend⟩
  · obtain ⟨u, heq, hlive⟩ := linkLost_works ⟨fun h => hidle (.inl h), fun h => hidle (.inr h), h, hstopping⟩
    obtain ⟨hstate, -, hflag⟩ := faultBed_faulted u b (flag := fLINK_LOST) dLINK_LOST (by decide) (by decide)
    have hlive' : (bedOf u b).lk.live = false := hlive
    rw [heq]
    exact ⟨by simp [isLive, lk_faultBed, hlive'], by simp [lk_faultBed], hflag, fun ht => absurd (.inl ht) hidle, fun _ _ => hstate,
      fun ht => absurd ht hstopping⟩

end Sys2Proof.Machine

namespace Sys2Proof.Proofs
open Sys2Proof.Machine

/-- Settles O49: each sample by where its voltage lies, on a bed that the gantry lets draw. -/
theorem arcMonitor : Obligations.ArcMonitor := by
  refine fun s b v => ⟨fun e rest h hw hk hsynth hn => ?_, fun t h hno => ?_⟩
  · have hc : arcCounted (runOf (heard s b) b) = true := by simpa using arcCounted_cut h.2.1 hw hk hsynth
    have hcfg : bedCfg (heard s b) b = bedCfg s b := rfl
    refine ⟨fun hv hle => ⟨_, exec_gantryArc h, ?_⟩, fun hv hlt => ?_, fun hv hv' hle => ⟨_, exec_gantryArc h, ?_⟩,
      fun hv hv' hlt => ?_, fun hv hv' => ?_⟩
    · rw [arcSample_high hc hv (by simpa [hcfg] using hle)]
      obtain ⟨hpause, hstate, -, harc, -⟩ := addPause_run
        (setRun (bedFlag (heard s b) b fARC_HIGH) b { runOf (heard s b) b with arc := ⟨0, 0⟩ }) b pARC (by simp [h.2.1, activeState])
      refine ⟨by simp [bedFlag, fARC_HIGH], ?_, hstate.trans (by simp [h.2.1]), harc.trans (by simp)⟩
      rw [hpause]
      exact hasBit_setBit_self _ (by decide)
    · rw [exec_gantryArc h, arcSample_above hc hn hv (by simpa [hcfg] using hlt)]
      simp
    · rw [arcSample_low hc hn hv hv' (by simpa [hcfg] using hle)]
      exact faultBed_faulted _ _ _ (by decide) (by decide)
    · rw [exec_gantryArc h, arcSample_below hc hn hv hv' (by simpa [hcfg] using hlt)]
      simp
    · rw [exec_gantryArc h, arcSample_inside hc hn hv hv']
      simp
  · rw [exec_gantryArc h, arcSample_idle (by simpa using arcCounted_no (h.2.1 ▸ hno))]

/-- Settles O50: ALIVE, HOLD and GO set the link's fields, its loss is told by the bed's state, and a DOWN link takes no message. -/
theorem bedLink : Obligations.BedLink := by
  refine fun s b => ⟨exec_gantryAlive, fun t h hne => ⟨?_, ?_⟩, fun t h hdue => ?_, fun hdown n v c i hi => ?_⟩
  · rw [exec_gantryHold h]
    simp [setHold, heard, h.2.1, hne]
  · rw [exec_gantryGo h]
    simp [setHold, heard, h.2.1, hne]
  · have hstate : (runOf (fresh s) b).state = t := h.2.1
    obtain ⟨hlive, hhold, hflag, hstopped, hfaulted, hstopping⟩ := linkLost_kept (s := fresh s) (b := b) (fun ha => h.2.2 (hstate ▸ ha))
    refine ⟨_, exec_bedLinkTimeout h (due_iff.2 hdue), hlive, hhold, hflag, fun ht => hstopped (hstate.trans ht), fun ht => ?_,
      fun ht => hstopping (hstate.trans ht)⟩
    refine hfaulted (fun hs => ?_) (fun hs => ?_)
    · simp [hstate.symm.trans hs] at ht
    · simp [hstate.symm.trans hs] at ht
  · simp only [gantryMessages, List.mem_cons, List.not_mem_nil, or_false] at hi
    rcases hi with rfl | rfl | rfl | rfl | rfl | rfl | rfl | rfl | rfl | rfl | rfl
    all_goals
      rw [exec]
      exact gantry_down hdown

end Sys2Proof.Proofs
end

/-! # PAUSED, RESUME and the end of STOPPING (R63, R64, R70, R77, R91, R93, R94) -/

section
namespace Sys2Proof.Machine

variable {s : State} {b : BedId} {n : Byte}

/-! ## The trim at the PAUSED reply (R91) -/

theorem foldl_executed_kept (l : List Entry) (t : Stream) : (l.foldl executed t).resend = t.resend ∧ (l.foldl executed t).form = t.form := by
  induction l generalizing t with
  | nil => exact ⟨rfl, rfl⟩
  | cons e l ih => exact ih (executed t e)
theorem trim_kept (t : Stream) (n : Byte) : (trim t n).window = [] ∧ (trim t n).form = t.form ∧
    (trim t n).resend = (t.window.drop (doneCount t n)).map (fun e => { e with seq := 0 }) ++ t.resend := by
  obtain ⟨hresend, hform⟩ := foldl_executed_kept (t.window.take (doneCount t n)) t
  exact ⟨rfl, hform, congrArg _ hresend⟩
/-- The stream of a bed that has been told PAUSED. -/
def pausedStream (r : BedRun) (n : Byte) : Stream :=
  { trim r.stream n with pausing := false, fromMarking := r.state == .marking, arcAtPause := (trim r.stream n).exArc, synth := false }
/-- The state with the bed PAUSED, before a form stop that waits is told. -/
def pausedAt (s : State) (b : BedId) (n : Byte) : State :=
  let u := enter (setStream (leaveTokenList (releaseToken s b) b) b (pausedStream (runOf s b) n)) b .paused
  setRun u b { runOf u b with ready := false }
theorem pausedAt_kept (s : State) (b : BedId) (n : Byte) :
    let u := pausedAt s b n
    (runOf u b).state = .paused ∧ streamOf u b = pausedStream (runOf s b) n ∧ (runOf u b).hand = (runOf s b).hand ∧
      u.arb.token ≠ some b ∧ u.faults = s.faults ∧ u.out = s.out :=
  ⟨by simp [pausedAt], by simp [pausedAt, streamOf], by simp [pausedAt],
    by simpa [pausedAt] using leaveTokenList_token (releaseToken s b) b (some b) (releaseToken_token s b), by simp [pausedAt],
    by simp [pausedAt]⟩
theorem pausedReply_bad (hstate : (runOf s b).state = .burning ∨ (runOf s b).state = .marking)
    (h : (streamOf s b).pausing = false ∨ pausedNumberOk (streamOf s b) n = false) : pausedReply s b n = gantryFault s b := by
  have hcutting : cuttingState (runOf s b).state = true := by rcases hstate with h | h <;> simp [cuttingState, h]
  have h' : (runOf s b).stream.pausing = false ∨ pausedNumberOk (runOf s b).stream n = false := h
  unfold pausedReply
  dsimp only
  rw [if_neg (by simp [hcutting]), if_pos (by simpa using h')]
theorem pausedReply_trims (hstate : (runOf s b).state = .burning ∨ (runOf s b).state = .marking) (hp : (streamOf s b).pausing = true)
    (hn : pausedNumberOk (streamOf s b) n = true) (hend : trimEnds (streamOf s b) n = false) : pausedReply s b n =
      match (streamOf s b).form with
      | some f => enterFaulted (bedFlag (pausedAt s b n) b fSTEP_FORM) b .formAbort f.code (some (f.idx, f.rep))
      | none => pausedAt s b n := by
  have hcutting : cuttingState (runOf s b).state = true := by rcases hstate with h | h <;> simp [cuttingState, h]
  have hp' : (runOf s b).stream.pausing = true := hp
  have hn' : pausedNumberOk (runOf s b).stream n = true := hn
  have hend' : trimEnds (runOf s b).stream n = false := hend
  have hform : (trim (runOf s b).stream n).form = (streamOf s b).form := (trim_kept (runOf s b).stream n).2.1
  rw [← hform]
  unfold pausedReply
  dsimp only
  rw [if_neg (by simp [hcutting]), if_neg (by simp [hp', hn']), if_neg (by simp [hend'])]
  rfl

/-! ## A form stop at the PAUSED reply (R63, R77) -/

theorem put_mod (o n v : Nat) : put o n (v % 2 ^ (8 * n)) = put o n v := by simp [put]
theorem returnLine_mod (r : BedRun) (h : Hand) (o : Outcome) (c : Nat) (p : Nat × Nat) (k : Bool) :
    returnLine s r h o (c % 2 ^ 8) p k = returnLine s r h o c p k := by
  simp only [returnLine, put_mod 0x21 1 c]
theorem returnLine_place (r : BedRun) (h : Hand) (o : Outcome) (c : Nat) (p : Nat × Nat) (k : Bool) :
    fld (returnLine s r h o c p k).toNat 0x24 2 = p.1 % 2 ^ 16 ∧ fld (returnLine s r h o c p k).toNat 0x26 1 = p.2 % 2 ^ 8 := by
  simp only [returnLine, lineOf, fld, put, BitVec.toNat_ofNat, Nat.shiftLeft_eq, Nat.shiftRight_eq_div_pow]
  constructor <;> omega

theorem enterFaulted_mod (o : Outcome) (c : Nat) (p : Option (Nat × Nat)) :
    enterFaulted s b o (c % 2 ^ 8) p = enterFaulted s b o c p := by
  simp only [enterFaulted, returnOrder, returnLine_mod]
theorem returnOrder_place {h : Hand} (o : Outcome) (c : Nat) (q : Nat × Nat) (k : Bool) (e : (runOf s b).hand = some h) :
    returnPlace (returnOrder s b o c (some q) k) = some (q.1 % 2 ^ 16, q.2 % 2 ^ 8) := by
  unfold returnOrder
  simp only [e]
  split <;> simp [returnPlace, returnLine_place]
/-- From PAUSED no ABORT goes out with FAULTED, and the return names the step's position. -/
theorem enterFaulted_paused {h : Hand} (o : Outcome) (c : Nat) (q : Nat × Nat) (hstate : (runOf s b).state = .paused)
    (hhand : (runOf s b).hand = some h) : returnPlace (enterFaulted s b o c (some q)) = some (q.1 % 2 ^ 16, q.2 % 2 ^ 8) ∧
      (enterFaulted s b o c (some q)).out = s.out := by
  have hcut : ∀ r : BedRun, (cutPass r).hand = r.hand := fun r => by
    unfold cutPass
    split <;> rfl
  let v := setLink s b { (bedOf s b).lk with hold := false }
  have hhand' : (runOf (setRun v b (cutPass (runOf v b))) b).hand = some h := by simp [v, hcut, hhand]
  have heq : ∃ k, enterFaulted s b o c (some q) =
      let u := returnOrder (setRun v b (cutPass (runOf v b))) b o c (some q) k
      enter (setRun u b (emptyFifo (runOf u b))) b .faulted := by
    unfold enterFaulted
    dsimp only
    rw [if_pos (by simp [hhand]), if_neg (by simp [hstate, cuttingState])]
    exact ⟨_, rfl⟩
  obtain ⟨k, heq⟩ := heq
  rw [heq]
  refine ⟨?_, by simp [v]⟩
  rw [← returnOrder_place o c q k hhand']
  simp [returnPlace]

/-! ## RESUME and the synthetic PIERCE (R93, R94) -/

theorem resume_kept (s : State) (b : BedId) :
    let u := resume s b
    (runOf u b).state = (if (streamOf s b).fromMarking then .marking else .burning) ∧
      u.out = (if isLive s b then s.out ++ [.resume b] else s.out) ∧
      streamOf u b = { streamOf s b with
        synth := !(streamOf s b).fromMarking && (streamOf s b).arcAtPause, fromMarking := false, arcAtPause := false } := by
  refine ⟨?_, ?_, by simp [resume, streamOf]⟩
  · simp [resume, streamOf] <;> rfl
  · simp only [resume, sendBed]
    split <;> simp
theorem synthDue_cut {t : Stream} {k i r : Nat} {p : Step} (hsynth : t.synth = true) (hf : firstAfterPause t = some (k, i, r))
    (hp : t.lastPierce = some p) : synthDue t = if isCut k then some ⟨i, r, p, 0, true⟩ else none := by
  simp [synthDue, hsynth, hf, hp]

/-! ## The end of STOPPING (R64, R70) -/

theorem stoppedReply_works (h : (runOf s b).state = .marking ∨ (runOf s b).state = .burning ∨ (runOf s b).state = .paused) :
    stoppedReply s b = gantryFault s b := by
  rcases h with h | h | h <;> simp [stoppedReply, h]
theorem stoppedReply_stopping (h : (runOf s b).state = .stopping) :
    stoppedReply s b = endStopping s b (((runOf s b).stop.map (·.outcome)).getD .stopped) .stopped := by
  simp [stoppedReply, h]
theorem endStopping_hall {o : Outcome} {how : ResetEnd} (h : s.cmd.mode ≠ .resetting) : endStopping s b o how =
    enter (returnOrder s b o 0 none (((runOf s b).hand.map (·.unloading)).getD false)) b .stopped := by
  unfold endStopping
  dsimp only
  rw [if_neg (by simpa [returnOrder_kept] using h)]
theorem returnsWith_bedResetEnd {u : State} {h : Hand} {o c : Nat} {how : ResetEnd} (hr : returnsWith u b h o c) :
    returnsWith (bedResetEnd u b how) b h o c :=
  ⟨by simp [bedResetEnd, BedRun.cleared, dropFetch], by simpa [bedResetEnd] using hr.2⟩
theorem ring_of_quiet {t : State} (h : quiet t = quiet s) (b : BedId) : (bedOf t b).ring = (bedOf s b).ring := by
  cases b
  · exact congrArg (·.beds.b0.ring) h
  · exact congrArg (·.beds.b1.ring) h
  · exact congrArg (·.beds.b2.ring) h
  · exact congrArg (·.beds.b3.ring) h
theorem bedResetEnd_reset (u : State) (b : BedId) (how : ResetEnd) :
    let v := bedResetEnd u b how
    (runOf v b).pause = 0 ∧ (runOf v b).resetEnd = some how ∧ v.crane.bank.get b = [] ∧ v.crane.inbox.get b = [] ∧
      (bedOf v b).ring = (bedOf u b).ring ∧ v.cmd.resetStopped = u.cmd.resetStopped + (if how = .stopped then 1 else 0) ∧
      v.cmd.resetOther = u.cmd.resetOther + (if how = .other then 1 else 0) := by
  refine ⟨by simp [bedResetEnd, BedRun.cleared, dropFetch], by simp [bedResetEnd], by simp [bedResetEnd], by simp [bedResetEnd],
    ?_, ?_, ?_⟩
  · have hring : (bedOf (giveUp u b) b).ring = (bedOf u b).ring := ring_of_quiet (quiet_giveUp u b) b
    simpa [bedResetEnd] using hring
  · cases how <;> simp [bedResetEnd]
  · cases how <;> simp [bedResetEnd]
theorem returnOrder_counters (o : Outcome) (c : Nat) (p : Option (Nat × Nat)) (k : Bool) :
    (returnOrder s b o c p k).cmd.resetStopped = s.cmd.resetStopped ∧ (returnOrder s b o c p k).cmd.resetOther = s.cmd.resetOther := by
  unfold returnOrder
  dsimp only
  split
  · exact ⟨rfl, rfl⟩
  · split <;> simp

/-- STOPPING that ends in a hall reset ends the bed's part of it (R70). -/
theorem endsBedReset_endStopping {o : Outcome} {how : ResetEnd} (hmode : s.cmd.mode = .resetting) :
    endsBedReset s (endStopping s b o how) b how o.num := by
  let u := enter (returnOrder s b o 0 none (((runOf s b).hand.map (·.unloading)).getD false)) b .stopped
  have heq : endStopping s b o how = bedResetEnd u b how := by
    unfold endStopping
    dsimp only
    rw [if_pos (by simp [returnOrder_kept, hmode])]
  obtain ⟨hpause, hend, hbank, hinbox, hring, hstopped, hother⟩ := bedResetEnd_reset u b how
  obtain ⟨-, hstate, hhand⟩ := endStopping_stopped (s := s) (b := b) o how
  rw [heq] at hstate hhand ⊢
  obtain ⟨gstopped, gother⟩ := returnOrder_counters (s := s) (b := b) o 0 none (((runOf s b).hand.map (·.unloading)).getD false)
  refine ⟨hstate, hpause, hhand, hend, hbank, hinbox, hring.trans (by simp [u]), ?_, ?_, fun h e => ?_⟩
  · rw [hstopped, ← gstopped]
    simp [u]
  · rw [hother, ← gother]
    simp [u]
  · exact returnsWith_bedResetEnd (returnsWith_returnOrder s b o 0 none _ .stopped e (by decide))
theorem endsBedReset_congr {v u : State} {how : ResetEnd} {o : Nat} (hrun : runOf v b = runOf s b)
    (hring : (bedOf v b).ring = (bedOf s b).ring) (hcmd : v.cmd = s.cmd) (h : endsBedReset v u b how o) : endsBedReset s u b how o := by
  unfold endsBedReset at h ⊢
  rwa [hrun, hring, hcmd] at h
theorem stopDue_of {o : Outcome} {t : Word} (hstate : (runOf s b).state = .stopping) (hstop : (runOf s b).stop = some ⟨o, t⟩)
    (hdue : 10000 ≤ (s.clock - t).toNat) : stopDue s b = true := by
  simpa [stopDue, hstate, hstop, due_iff, Config.stopLimit] using hdue

end Sys2Proof.Machine

namespace Sys2Proof.Proofs
open Sys2Proof.Machine

section
variable {s : State} {b : BedId} {n : Byte}

/-- A message heard by a bed in BURNING or MARKING. -/
theorem exec_paused_heard (h : bedHears s b .burning ∨ bedHears s b .marking) :
    exec (.gantryPaused b n) s = .next (settle s (pausedReply (heard s b) b n)) ∧
      ((runOf (heard s b) b).state = .burning ∨ (runOf (heard s b) b).state = .marking) := by
  rcases h with h | h
  · exact ⟨exec_gantryPaused h, .inl (by simpa using h.2.1)⟩
  · exact ⟨exec_gantryPaused h, .inr (by simpa using h.2.1)⟩
theorem streamOf_heard : streamOf (heard s b) b = streamOf s b := by simp [streamOf]
section
variable (h : bedHears s b .burning ∨ bedHears s b .marking) (hp : (streamOf s b).pausing = true)
  (hn : pausedNumberOk (streamOf s b) n = true) (hend : trimEnds (streamOf s b) n = false)
include h hp hn hend

theorem gantryPaused_trims (hform : (streamOf s b).form = none) : ∃ u, exec (.gantryPaused b n) s = .next (settle s u) ∧
    (runOf u b).state = .paused ∧ (streamOf u b).pausing = false ∧ (streamOf u b).window = [] ∧ u.arb.token ≠ some b ∧
    u.faults = s.faults ∧ ((streamOf u b).resend.map (fun e => (e.idx, e.rep, e.step))) =
      ((streamOf s b).window.drop (doneCount (streamOf s b) n) ++ (streamOf s b).resend).map (fun e => (e.idx, e.rep, e.step)) := by
  obtain ⟨hexec, hcutting⟩ := exec_paused_heard (n := n) h
  rw [← streamOf_heard] at hp hn hend hform
  refine ⟨_, hexec, ?_⟩
  obtain ⟨hst, hu, -, htoken, hfaults, -⟩ := pausedAt_kept (heard s b) b n
  obtain ⟨hwindow, -, hresend⟩ := trim_kept (streamOf (heard s b) b) n
  rw [pausedReply_trims hcutting hp hn hend, hform]
  dsimp only
  rw [hu]
  refine ⟨hst, rfl, hwindow, htoken, hfaults, ?_⟩
  rw [← streamOf_heard]
  have hr : (pausedStream (runOf (heard s b) b) n).resend = (trim (streamOf (heard s b) b) n).resend := rfl
  rw [hr, hresend]
  simp [Function.comp_def]
theorem gantryPaused_form {hand : Hand} {f : FormStop} (hform : (streamOf s b).form = some f) (hhand : (runOf s b).hand = some hand) :
    ∃ u, exec (.gantryPaused b n) s = .next (settle s u) ∧ faulted u b fSTEP_FORM ∧ returnsWith u b hand 3 (f.code % 2 ^ 8) ∧
      returnPlace u = some (f.idx % 2 ^ 16, f.rep % 2 ^ 8) ∧ Output.abort b ∉ u.out := by
  obtain ⟨hexec, hcutting⟩ := exec_paused_heard (n := n) h
  rw [← streamOf_heard] at hp hn hend hform
  refine ⟨_, hexec, ?_⟩
  obtain ⟨hst, -, hh, -, -, hout⟩ := pausedAt_kept (heard s b) b n
  have hhand' : (runOf (bedFlag (pausedAt (heard s b) b n) b fSTEP_FORM) b).hand = some hand := by simpa [hh] using hhand
  have hst' : (runOf (bedFlag (pausedAt (heard s b) b n) b fSTEP_FORM) b).state = .paused := by simpa using hst
  obtain ⟨hfaulted, hret, -⟩ := enterFaulted_hand (bedFlag (pausedAt (heard s b) b n) b fSTEP_FORM) b .formAbort (f.code % 2 ^ 8)
    (some (f.idx, f.rep)) hhand' (Nat.mod_lt _ (by decide))
  obtain ⟨hplace, hsame⟩ := enterFaulted_paused .formAbort f.code (f.idx, f.rep) hst' hhand'
  rw [enterFaulted_mod] at hfaulted hret
  rw [pausedReply_trims hcutting hp hn hend, hform]
  dsimp only
  refine ⟨⟨hfaulted, hret.1, by simp [bedFlag, fSTEP_FORM]⟩, hret, hplace, ?_⟩
  have hout' : (pausedAt (heard s b) b n).out = [] := hout
  simp [hsame, hout']
end
/-- The three ends of STOPPING in a hall reset: STOPPED, the link's loss, the stop limit. -/
theorem stopping_ends_in_reset {o : Outcome} {t : Word} (hmode : s.cmd.mode = .resetting) (hstate : (runOf s b).state = .stopping)
    (hstop : (runOf s b).stop = some ⟨o, t⟩) :
    (bedHears s b .stopping → ∃ u, exec (.gantryStopped b) s = .next (settle s u) ∧ endsBedReset s u b .stopped o.num ∧
      u.faults = s.faults) ∧
    (bedHears s b .stopping → 50 ≤ (s.clock - (bedOf s b).lk.since).toNat →
      ∃ u, exec (.bedLinkTimeout b) s = .next (settle s u) ∧ endsBedReset s u b .other o.num ∧ isLive u b = false ∧
        hasBit (u.faults.beds.get b).flags fLINK_LOST = true) ∧
    (10000 ≤ (s.clock - t).toNat →
      ∃ u, exec (.stopLimit b) s = .next (settle s u) ∧ endsBedReset s u b .other 6 ∧
        hasBit (u.faults.beds.get b).flags fGANTRY = true) := by
  refine ⟨fun h => ?_, fun h hdue => ?_, fun hdue => ?_⟩
  · refine ⟨_, exec_gantryStopped h, ?_⟩
    rw [stoppedReply_stopping (by simpa using hstate)]
    refine ⟨endsBedReset_congr (v := heard s b) (by simp) (by simp [heard]) rfl ?_, by simp [heard]⟩
    have hend := endsBedReset_endStopping (s := heard s b) (b := b) (o := o) (how := .stopped) hmode
    simpa [hstop] using hend
  · obtain ⟨hlive, -, hflag, -⟩ := linkLost_kept (s := fresh s) (b := b) (fun ha => h.2.2 (h.2.1 ▸ ha))
    refine ⟨_, exec_bedLinkTimeout h (due_iff.2 hdue), ?_, hlive, hflag⟩
    rw [linkLost_stopping (s := fresh s) hstate]
    let v := bedFlag (setLink (fresh s) b { (bedOf (fresh s) b).lk with live := false, hold := false }) b fLINK_LOST
    have hend := endsBedReset_endStopping (s := v) (b := b) (o := o) (how := .other) (by simpa [v] using hmode)
    refine endsBedReset_congr (v := v) (by simp [v]) (by simp [v]) (by simp [v]) ?_
    simpa [v, hstop] using hend
  · refine ⟨_, exec_stopLimit (stopDue_of hstate hstop hdue), ?_⟩
    let v := sendBed (bedFlag (fresh s) b fGANTRY) b (.abort b)
    have heq : stopLimit (fresh s) b = endStopping v b .abortedReset .other := if_pos (by simpa using hmode)
    have hend := endsBedReset_endStopping (s := v) (b := b) (o := .abortedReset) (how := .other) (by simpa [v] using hmode)
    rw [heq]
    exact ⟨endsBedReset_congr (by simp [v]) (by simp [v]) (by simp [v]) hend, by simp [v, bedFlag, fGANTRY]⟩
end

/-- Settles O51: the PAUSED reply by its trim, RESUME by what it restores, and the ends of STOPPING by the hall's mode. -/
theorem pausedAndStopped : Obligations.PausedAndStopped := by
  refine ⟨fun s b n => gantryPaused_trims, fun s b n hand f h hp hn hend => gantryPaused_form h hp hn hend,
    fun s b hstate => ⟨fun hzero hpass => ?_, fun h => ?_⟩,
    fun t => ⟨fun k i r p hsynth hf hp => ⟨fun hk => ?_, fun hline harc => ?_⟩, fun h => by simp [synthDue, h]⟩,
    fun s b n h hbad => ?_,
    fun s b => ⟨fun h => ?_, fun hand o t h hmode hhand hstop => ?_, fun o t hstate hmode hstop hdue => ?_⟩,
    fun s b o t => stopping_ends_in_reset⟩
  · have heq : resumeDue s b = resume s b := by simp [resumeDue, hstate, hzero, hpass]
    rw [heq]
    exact resume_kept s b
  · unfold resumeDue
    refine if_neg fun hall => ?_
    simp [hstate] at hall
    rcases h with h | h
    · exact h hall.1
    · exact h hall.2
  · have hcut : isCut k = true := by simpa [isCut] using hk
    simp [nextPierce, synthDue_cut hsynth hf hp, hcut]
  · have hcut : isCut k = false := by simp [isCut, hline, harc]
    simp [synthDue_cut hsynth hf hp, hcut]
  · obtain ⟨hexec, hcutting⟩ := exec_paused_heard (n := n) h
    refine ⟨_, hexec, ?_⟩
    rw [pausedReply_bad hcutting (by simpa [streamOf_heard] using hbad)]
    exact faultBed_faulted _ _ _ (by decide) (by decide)
  · have hears : ∃ t, bedHears s b t ∧ (t = .marking ∨ t = .burning ∨ t = .paused) := by
      rcases h with h | h | h
      · exact ⟨_, h, .inl rfl⟩
      · exact ⟨_, h, .inr (.inl rfl)⟩
      · exact ⟨_, h, .inr (.inr rfl)⟩
    obtain ⟨t, hears, ht⟩ := hears
    refine ⟨_, exec_gantryStopped hears, ?_⟩
    rw [stoppedReply_works (by simpa [hears.2.1] using ht)]
    exact faultBed_faulted _ _ _ (by decide) (by decide)
  · refine ⟨_, exec_gantryStopped h, ?_⟩
    rw [stoppedReply_stopping (by simpa using h.2.1), endStopping_hall (s := heard s b) hmode]
    refine ⟨by simp, ?_⟩
    have hret := returnsWith_returnOrder (heard s b) b o 0 none (((runOf (heard s b) b).hand.map (·.unloading)).getD false) .stopped
      (h := hand) (by simpa using hhand) (by decide)
    simpa [hstop] using hret
  · refine ⟨_, exec_stopLimit (stopDue_of hstate hstop hdue), ?_⟩
    have heq : stopLimit (fresh s) b = gantryFault (fresh s) b := if_neg (by simpa using hmode)
    rw [heq]
    exact faultBed_faulted _ _ _ (by decide) (by decide)

end Sys2Proof.Proofs
end

/-! # FAULT of a gantry (R63, R86) -/

section
namespace Sys2Proof.Machine

variable {s : State} {b : BedId} {cause : Byte}

theorem faultBed_givesUp {i d : Nat} (hd : d < 256) : (runOf (faultBed s b i d) b).permit = false ∧
    (faultBed s b i d).locks.owns b = false ∧ ∀ h, (runOf s b).hand = some h → returnsWith (faultBed s b i d) b h 7 d := by
  cases hhand : (runOf s b).hand with
  | none =>
    obtain ⟨-, -, hpermit, howns⟩ := enterFaulted_noHand (bedFlag s b i) b .faultAbort d none (by simpa using hhand)
    exact ⟨hpermit, howns, fun h e => by simp at e⟩
  | some h =>
    obtain ⟨-, hret, hpermit, howns, -⟩ := enterFaulted_hand (bedFlag s b i) b .faultAbort d none (h := h) (by simpa using hhand) hd
    refine ⟨hpermit, howns, fun h' e => ?_⟩
    obtain rfl : h = h' := by simpa using e
    exact hret
theorem gantryFaultMessage_idle (h : (runOf s b).state = .stopped ∨ (runOf s b).state = .stopping ∨ (runOf s b).state = .faulted) :
    gantryFaultMessage s b cause = bedFlag (setLink s b { (bedOf s b).lk with lastFault := cause }) b fGANTRY := by
  rcases h with h | h | h <;> simp [gantryFaultMessage, h]
theorem gantryFaultMessage_works (h : (runOf s b).state ≠ .stopped ∧ (runOf s b).state ≠ .stopping ∧ (runOf s b).state ≠ .faulted)
    (hpresent : (runOf s b).state ≠ .absent) :
    gantryFaultMessage s b cause = gantryFault (setLink s b { (bedOf s b).lk with lastFault := cause }) b := by
  obtain ⟨hstopped, hstopping, hfaulted⟩ := h
  simp only [gantryFaultMessage, runOf_setLink]

end Sys2Proof.Machine

namespace Sys2Proof.Proofs
open Sys2Proof.Machine

/-- Settles O52: the cause is kept with the link, and the bed's state decides whether the bed is faulted. -/
theorem gantryFault : Obligations.GantryFault := by
  refine fun s b cause t h => ⟨fun ht => ⟨_, exec_gantryFault h, ?_⟩, fun ht => ⟨_, exec_gantryFault h, ?_⟩⟩
  · rw [gantryFaultMessage_idle (by simpa [h.2.1] using ht)]
    exact ⟨by simp, by simp, by simp [bedFlag, fGANTRY]⟩
  · rw [gantryFaultMessage_works (by simpa [h.2.1] using ht) (by simpa [h.2.1] using h.2.2)]
    obtain ⟨hpermit, howns, hret⟩ := faultBed_givesUp (s := setLink (heard s b) b { (bedOf (heard s b) b).lk with lastFault := cause })
      (b := b) (i := fGANTRY) (d := dGANTRY) (by decide)
    refine ⟨faultBed_faulted _ _ _ (by decide) (by decide), ?_, ?_, hpermit, howns, fun h e => hret h (by simpa using e)⟩
    · simp [Machine.gantryFault, lk_faultBed]
    · simp [Machine.gantryFault, lk_faultBed]

end Sys2Proof.Proofs
end

/-! # The crane's selection and dispatch (R137 to R140) -/

section
namespace Sys2Proof.Machine

variable {s : State}

/-! ## Selection (R139) -/

/-- The order has waited to the aging limit, and is feasible. -/
def agedOrder (s : State) (o : StockOrder) : Prop :=
  param s (·.aging) 0 ≠ 0 ∧ param s (·.aging) 0 ≤ o.age ∧ hostFeasible s o = true
/-- The first order of the bank at the aging limit. -/
def firstAged (s : State) : Option StockOrder :=
  if param s (·.aging) 0 == 0 then none else s.crane.stock.find? (fun o => param s (·.aging) 0 ≤ o.age && hostFeasible s o)
def bedRound (s : State) : Option (BedId × BedReq) :=
  (bedsAfter s.crane.lastServed).findSome? (fun b => (bedFeasible s b).map (fun q => (b, q)))

theorem craneSelect_busy (h : craneFree s = false) : craneSelect s = s := by simp [craneSelect, h]
theorem craneSelect_eq (h : craneFree s = true) : craneSelect s =
    match firstAged s with
    | some o => dispatchHost s o
    | none =>
      match bedRound s with
      | some (b, q) => dispatchBed s b q
      | none =>
        match s.crane.stock.find? (hostFeasible s) with
        | some o => dispatchHost s o
        | none => s := by
  unfold craneSelect
  rw [if_neg (by simp [h])]
  rfl
theorem firstAged_some {o : StockOrder} {before rest : List StockOrder} (hs : s.crane.stock = before ++ o :: rest)
    (hbefore : ∀ o' ∈ before, ¬agedOrder s o') (ho : agedOrder s o) : firstAged s = some o := by
  obtain ⟨hne, hage, hfeasible⟩ := ho
  have hnone : before.find? (fun o => decide (param s (·.aging) 0 ≤ o.age) && hostFeasible s o) = none :=
    List.find?_eq_none.2 fun o' ho' hp => hbefore o' ho' ⟨hne, by simpa using hp⟩
  rw [firstAged, if_neg (by simpa using hne), hs, List.find?_append, hnone]
  simp [hage, hfeasible]
theorem firstAged_none (h : ∀ o ∈ s.crane.stock, ¬agedOrder s o) : firstAged s = none := by
  unfold firstAged
  split
  case isTrue => rfl
  case isFalse hne => exact List.find?_eq_none.2 fun o ho hp => h o ho ⟨by simpa using hne, by simpa using hp⟩
theorem findSome?_of_find? {α β : Type} {f : α → Option β} {l : List α} {a : α} {y : β} (h : l.find? (fun a => (f a).isSome) = some a)
    (hy : f a = some y) : l.findSome? (fun a => (f a).map (fun y => (a, y))) = some (a, y) := by
  induction l with
  | nil => simp at h
  | cons x l ih =>
    cases hx : f x with
    | none => simpa [hx] using ih (by simpa [hx] using h)
    | some z =>
      obtain rfl : x = a := by simpa [hx] using h
      simp [hy]
theorem bedRound_none (h : ∀ b, bedFeasible s b = none) : bedRound s = none := by simp [bedRound, h]

/-! ## Dispatch (R138, R140) -/

theorem takeZones_frame (l : List BedId) (s : State) : ∃ z, takeZones s l = { s with zones := z } := by
  induction l generalizing s with
  | nil => exact ⟨s.zones, rfl⟩
  | cons b l ih =>
    obtain ⟨z, h⟩ := ih (setZone s b .crane)
    exact ⟨z, h⟩
theorem zoneOf_setZone_ne {b c : BedId} (z : Zone) (h : b ≠ c) : zoneOf (setZone s c z) b = zoneOf s b :=
  PerBed.get_set_ne _ _ h
theorem zoneOf_takeZones (l : List BedId) (s : State) (b : BedId) :
    zoneOf (takeZones s l) b = if b ∈ l then .crane else zoneOf s b := by
  induction l generalizing s with
  | nil => rfl
  | cons c l ih =>
    have hstep := ih (setZone s c .crane)
    by_cases hl : b ∈ l
    · exact hstep.trans (by simp [hl])
    · refine hstep.trans ?_
      by_cases hb : b = c
      · simp [hb]
      · simp [hl, hb, zoneOf_setZone_ne _ hb]
theorem mem_bedsOfLoc {l : Loc} {b : BedId} : b ∈ bedsOfLoc l ↔ l = .bed b := by
  cases l <;> simp [bedsOfLoc, eq_comm]
section
variable (s : State) (q : ReqId) (k : ReqKind) (i id : Nat) (dest : Loc)

/-- The state with the zones of a dispatch taken, and the place of an INFEED destination reserved. -/
def placesTaken : State := reserveInfeed (takeZones s (bedsOfLoc (plateAt s i).loc ++ bedsOfLoc dest)) q id dest
theorem placesTaken_kept : (placesTaken s q i id dest).crane = s.crane ∧ (placesTaken s q i id dest).clock = s.clock ∧
    (placesTaken s q i id dest).out = s.out := by
  obtain ⟨z, hz⟩ := takeZones_frame (bedsOfLoc (plateAt s i).loc ++ bedsOfLoc dest) s
  rw [placesTaken, hz]
  cases dest <;> exact ⟨rfl, rfl, rfl⟩
theorem placesTaken_stock : (placesTaken s q i id dest).stock = match dest with
    | .infeed _ => { s.stock with infeedRes := some q }
    | _ => s.stock := by
  obtain ⟨z, hz⟩ := takeZones_frame (bedsOfLoc (plateAt s i).loc ++ bedsOfLoc dest) s
  rw [placesTaken, hz]
  cases dest <;> rfl
theorem zoneOf_placesTaken (b : BedId) : zoneOf (placesTaken s q i id dest) b =
    if (plateAt s i).loc = .bed b ∨ dest = .bed b then .crane else zoneOf s b := by
  have hreserve : ∀ u : State, zoneOf (reserveInfeed u q id dest) b = zoneOf u b := fun u => by cases dest <;> rfl
  rw [placesTaken, hreserve, zoneOf_takeZones]
  simp [mem_bedsOfLoc]
/-- The mass a dispatch expects, none where it is not known (R140). -/
def expectedMass : Option Nat := if (plateAt s i).st == .stock && !(plateAt s i).suspect then some (plateAt s i).mass else none
/-- The move of a dispatch (R138, R140). -/
def dispatchMove : Move :=
  { id := s.crane.nextId, kind := k, req := q, live := true, ix := i, plate := id, src := (plateAt s i).loc, dst := dest
    expected := expectedMass s i, measured := none, abort := false, turned := false, massBad := false, confirmed := false
    lifted := false, zones := bedsOfLoc (plateAt s i).loc ++ bedsOfLoc dest, reserves := true, phase := none }
theorem dispatch_eq : dispatch s q k i id dest = sendCrane (setCrane (placesTaken s q i id dest)
    { s.crane with
      move := some (dispatchMove s q k i id dest), nextId := if s.crane.nextId == 255 then 1 else s.crane.nextId + 1
      state := .dispatched, phaseSince := s.clock }) (.craneMove s.crane.nextId (plateAt s i).loc dest (expectedMass s i)) := by
  obtain ⟨hcrane, hclock, -⟩ := placesTaken_kept s q i id dest
  have heq : dispatch s q k i id dest = sendCrane (setCrane (placesTaken s q i id dest)
      { (placesTaken s q i id dest).crane with
        move := some (dispatchMove s q k i id dest), nextId := if s.crane.nextId == 255 then 1 else s.crane.nextId + 1
        state := .dispatched, phaseSince := (placesTaken s q i id dest).clock })
      (.craneMove s.crane.nextId (plateAt s i).loc dest (expectedMass s i)) := rfl
  rw [heq, hcrane, hclock]
theorem dispatch_crane : (dispatch s q k i id dest).crane = { s.crane with
    move := some (dispatchMove s q k i id dest), nextId := if s.crane.nextId == 255 then 1 else s.crane.nextId + 1
    state := .dispatched, phaseSince := s.clock } := by
  simp [dispatch_eq]
end
/-- The order is marked in flight. -/
theorem dispatchHost_crane (s : State) (o : StockOrder) : (dispatchHost s o).crane =
    { (dispatch s (.host o.idx) .move o.ix (crPlate o.order) o.dest).crane with
      stock := s.crane.stock.map (fun x => if x.idx == o.idx then { x with stage := .inFlight } else x) } := by
  simp [dispatchHost, setOrder, dispatch_crane]
theorem dispatchBed_crane {b : BedId} {r : BedReq} {rest : List BedReq} (q : BedReq) (h : s.crane.bank.get b = r :: rest) :
    ∃ c : Crane, (dispatchBed s b q).crane = c ∧ c.lastServed = b ∧ c.bank = s.crane.bank.set b ({ r with inFlight := true } :: rest) ∧
      c.stock = s.crane.stock.map (fun o => if hostFeasible s o then { o with age := min (o.age + 1) Config.agingMax } else o) ∧
      c.move.map (·.req) = some (.bed b q.kind q.plate) := by
  refine ⟨_, rfl, ?_⟩
  simp [dispatchBed, dispatch_crane, h, dispatchMove]

end Sys2Proof.Machine

namespace Sys2Proof.Proofs
open Sys2Proof.Machine

/-- The crane's choice, by the first list that has something feasible (R137, R139). -/
theorem craneSelect_chooses (s : State) (h : craneFree s = true) :
    (∀ o before rest, s.crane.stock = before ++ o :: rest → (∀ o' ∈ before, ¬agedOrder s o') → agedOrder s o →
      craneSelect s = dispatchHost s o) ∧
    (∀ b q, (∀ o ∈ s.crane.stock, ¬agedOrder s o) →
      (bedsAfter s.crane.lastServed).find? (fun b => (bedFeasible s b).isSome) = some b → bedFeasible s b = some q →
      craneSelect s = dispatchBed s b q) ∧
    (∀ o, (∀ o ∈ s.crane.stock, ¬agedOrder s o) → (∀ b, bedFeasible s b = none) → s.crane.stock.find? (hostFeasible s) = some o →
      craneSelect s = dispatchHost s o) ∧
    ((∀ o ∈ s.crane.stock, ¬agedOrder s o) → (∀ b, bedFeasible s b = none) → (∀ o ∈ s.crane.stock, hostFeasible s o = false) →
      craneSelect s = s) := by
  refine ⟨fun o before rest hs hbefore ho => ?_, fun b q hnone hb hq => ?_, fun o hnone hbeds ho => ?_, fun hnone hbeds hos => ?_⟩
  · rw [craneSelect_eq h, firstAged_some hs hbefore ho]
  · have hround : bedRound s = some (b, q) := findSome?_of_find? hb hq
    rw [craneSelect_eq h, firstAged_none hnone, hround]
  · rw [craneSelect_eq h, firstAged_none hnone, bedRound_none hbeds, ho]
  · have hfind : s.crane.stock.find? (hostFeasible s) = none := List.find?_eq_none.2 fun o ho => by simp [hos o ho]
    rw [craneSelect_eq h, firstAged_none hnone, bedRound_none hbeds, hfind]
/-- What a dispatch does to crane, zones and places (R138, R140). -/
theorem dispatch_does (s : State) (q : ReqId) (k : ReqKind) (i id : Nat) (dest : Loc) :
    let u := dispatch s q k i id dest
    let p := plateAt s i
    let exp := if p.st = .stock ∧ p.suspect = false then some p.mass else none
    (u.crane.move.map fun m => (m.id, m.kind, m.req, m.ix, m.plate, m.src, m.dst, m.expected)) =
        some (s.crane.nextId, k, q, i, id, p.loc, dest, exp) ∧
      u.crane.state = .dispatched ∧ u.crane.phaseSince = s.clock ∧
      u.crane.nextId = (if s.crane.nextId = 255 then 1 else s.crane.nextId + 1) ∧
      (∀ b, (p.loc = .bed b ∨ dest = .bed b) → zoneOf u b = .crane) ∧
      (∀ b, p.loc ≠ .bed b → dest ≠ .bed b → zoneOf u b = zoneOf s b) ∧
      (∀ n, dest = .infeed n → u.stock = { s.stock with infeedRes := some q }) ∧
      ((∀ n, dest ≠ .infeed n) → u.stock = s.stock) ∧
      (s.crane.lk.live = true → u.out = s.out ++ [.craneMove s.crane.nextId p.loc dest exp]) := by
  have hexp : expectedMass s i = if (plateAt s i).st = .stock ∧ (plateAt s i).suspect = false then some (plateAt s i).mass else none := by
    simp [expectedMass]
  have hzone : ∀ b, zoneOf (dispatch s q k i id dest) b = zoneOf (placesTaken s q i id dest) b := fun b => by simp [dispatch_eq]
  have hstock : (dispatch s q k i id dest).stock = (placesTaken s q i id dest).stock := by simp [dispatch_eq]
  dsimp only
  rw [dispatch_crane, hstock, placesTaken_stock]
  refine ⟨by simp [dispatchMove, hexp], rfl, rfl, by simp, fun b hb => ?_, fun b hp hd => ?_, ?_, fun hno => ?_, fun hlive => ?_⟩
  · rw [hzone, zoneOf_placesTaken, if_pos hb]
  · rw [hzone, zoneOf_placesTaken, if_neg (by simp [hp, hd])]
  · rintro n rfl
    rfl
  · cases dest
    case infeed n => exact absurd rfl (hno n)
    all_goals rfl
  · obtain ⟨-, -, hout⟩ := placesTaken_kept s q i id dest
    simp [dispatch_eq, sendCrane, hlive, hout, hexp]

end Sys2Proof.Proofs
end

/-! # ACCEPT, REFUSE, LIFTED and ARRIVED (R138, R142, R144, R145) -/

section
namespace Sys2Proof.Machine

variable {s : State} {m : Move}

/-! ## A crane message that is heard -/

theorem resetting_craneHeardAt : resetting (craneHeardAt s) = s.crane.resetAt.isSome := rfl

theorem craneAccept_lifts (hstate : s.crane.state = .dispatched) (hreset : s.crane.resetAt = none) :
    craneAccept s = setCrane s { s.crane with state := .lifting, phaseSince := s.clock, refusals := 0 } := by
  have hdue : (s.crane.state == .dispatched && !resetting s) = true := by simp [resetting, hstate, hreset]
  exact (if_pos hdue).trans rfl
theorem craneArrived_sets (hstate : s.crane.state = .travelling) :
    craneArrived s = setCrane s { s.crane with state := .setting, phaseSince := s.clock } := by
  simp [craneArrived, hstate, craneTo]

/-! ## The zones of a move that ends (R138) -/

theorem freeZones_not_crane (l : List BedId) (s : State) (b : BedId) :
    (b ∈ l ∨ zoneOf s b ≠ .crane) → zoneOf (freeZones s l) b ≠ .crane := by
  induction l generalizing s with
  | nil => exact fun h => h.resolve_left (by simp)
  | cons c l ih =>
    intro h
    refine ih _ ?_
    by_cases hl : b ∈ l
    · exact .inl hl
    right
    by_cases hb : b = c
    · subst hb
      dsimp only
      split
      case isTrue => simp
      case isFalse hne => simpa using hne
    · have hzone : zoneOf s b ≠ .crane := h.resolve_left (by simp [hl, hb])
      dsimp only
      split
      · rwa [zoneOf_setZone_ne _ hb]
      · exact hzone
theorem craneRest_crane : (craneRest s m).crane = { s.crane with state := .idle, move := none } := by simp [craneRest]
theorem craneRest_zones {b : BedId} (h : b ∈ m.zones) : zoneOf (craneRest s m) b ≠ .crane := by
  simpa [craneRest] using freeZones_not_crane m.zones s b (.inl h)

/-! ## The host's orders queued at a halt (R154) -/

theorem returnHost_refusals {i n k : Nat} {l : Loc} {a : Bool} : (returnHost s i n l k a).crane.refusals = s.crane.refusals := by
  unfold returnHost
  split
  · rfl
  · dsimp only
    split <;> split <;> split <;> simp [releaseClaim, releaseRes, setOrder]
/-- From `s` to `t` a halt of the crane returned orders of the bank, and did nothing else to crane, zones and flags. -/
structure OrdersHalted (s t : State) : Prop where
  state : t.crane.state = s.crane.state
  move : t.crane.move = s.crane.move
  refusals : t.crane.refusals = s.crane.refusals
  faults : t.faults = s.faults
  zones : t.zones = s.zones
  stock : ∀ o ∈ t.crane.stock, o.stage = .returning ∨ o ∈ s.crane.stock

theorem OrdersHalted.refl (s : State) : OrdersHalted s s := ⟨rfl, rfl, rfl, rfl, rfl, fun _ h => .inr h⟩
theorem OrdersHalted.trans {t u : State} (h : OrdersHalted s t) (g : OrdersHalted t u) : OrdersHalted s u :=
  ⟨g.state.trans h.state, g.move.trans h.move, g.refusals.trans h.refusals, g.faults.trans h.faults, g.zones.trans h.zones,
    fun o ho => (g.stock o ho).elim .inl (h.stock o)⟩
theorem ordersHalted_returnHost {i n k : Nat} {l : Loc} {a : Bool} : OrdersHalted s (returnHost s i n l k a) := by
  obtain ⟨-, -, -, -, hstate, hmove⟩ := returnHost_kept (s := s) (i := i) (n := n) (m := k) (l := l) (k := a)
  exact ⟨hstate, hmove, returnHost_refusals, by simp, by simp, fun o ho => (mem_returnHost ho).imp_right And.left⟩
theorem ordersHalted_haltOrder (o : StockOrder) : OrdersHalted s (haltOrder s o) := by
  unfold haltOrder
  split
  · exact ordersHalted_returnHost
  · split
    · exact ordersHalted_returnHost
    · exact .refl s
theorem ordersHalted_haltCrane (s : State) : OrdersHalted s (haltCrane s) := by
  have hfold : ∀ (l : List StockOrder) (s : State), OrdersHalted s (l.foldl haltOrder s) := fun l => by
    induction l with
    | nil => exact OrdersHalted.refl
    | cons o l ih => exact fun s => (ordersHalted_haltOrder o).trans (ih _)
  exact hfold s.crane.stock s

/-! ## REFUSE (R144) -/

/-- The state with the request of a refused move back in its bank, and the crane at rest. -/
def refusedAt (s : State) (m : Move) : State :=
  let v := convertRes (backToBank (craneFlag s fcREFUSED) m) m.req (infeedOnly m.dst)
  setCrane (craneRest v m) { (craneRest v m).crane with refusals := v.crane.refusals + 1 }
theorem backToBank_kept : (backToBank s m).crane.refusals = s.crane.refusals ∧ (backToBank s m).faults = s.faults ∧
    (backToBank s m).cmd = s.cmd := by
  unfold backToBank
  split
  · exact ⟨rfl, rfl, rfl⟩
  · dsimp only
    split
    · split <;> exact ⟨rfl, rfl, rfl⟩
    · exact ⟨rfl, rfl, rfl⟩
theorem refusedAt_kept (s : State) (m : Move) :
    let u := refusedAt s m
    u.crane.state = .idle ∧ u.crane.move = none ∧ u.crane.refusals = s.crane.refusals + 1 ∧
      hasBit u.faults.crane.flags fcREFUSED = true ∧ u.cmd = s.cmd ∧ ∀ b ∈ m.zones, zoneOf u b ≠ .crane := by
  obtain ⟨hrefusals, hfaults, hcmd⟩ := backToBank_kept (s := craneFlag s fcREFUSED) (m := m)
  refine ⟨by simp [refusedAt, craneRest_crane], by simp [refusedAt, craneRest_crane], by simp [refusedAt, hrefusals], ?_,
    by simp [refusedAt, hcmd], fun b hb => ?_⟩
  · have hsame : (refusedAt s m).faults = (craneFlag s fcREFUSED).faults := by simp [refusedAt, hfaults]
    rw [hsame]
    exact raise_crane _ (by decide)
  · exact craneRest_zones hb
theorem refusedAt_host {i : Nat} (h : m.req = .host i) : ∀ o ∈ (refusedAt s m).crane.stock, o.idx = i → o.stage = .queued := by
  intro o ho hi
  have hstock : (refusedAt s m).crane.stock = s.crane.stock.map (fun o => if o.idx == i then { o with stage := .queued } else o) := by
    simp [refusedAt, craneRest_crane, backToBank, h, setOrder]
  rw [hstock] at ho
  obtain ⟨x, -, rfl⟩ := List.mem_map.1 ho
  by_cases hx : x.idx = i
  · simp [hx]
  · simp [hx] at hi
theorem craneFaulted_crane (h : s.crane.move = none) (hstate : s.crane.state ≠ .faulted) :
    craneFaulted s = setCrane s { s.crane with state := .faulted, faulted := s.crane.faulted + 1 } := by
  simp [craneFaulted, h, hstate]
/-- What follows of a refusal: FAULTED at the third, and the host's queued orders returned at a halt. -/
theorem refused_eq : refused s m =
    let u := if 3 ≤ s.crane.refusals + 1 then craneFaulted (refusedAt s m) else refusedAt s m
    if s.cmd.mode == .halting then haltCrane u else u := by
  obtain ⟨-, -, hcount, -, hcmd, -⟩ := refusedAt_kept s m
  have heq : refused s m =
      let u := if Config.refusals ≤ (refusedAt s m).crane.refusals then craneFaulted (refusedAt s m) else refusedAt s m
      if u.cmd.mode == .halting then haltCrane u else u := rfl
  have hmode : ∀ p : Prop, [Decidable p] → (if p then craneFaulted (refusedAt s m) else refusedAt s m).cmd = s.cmd := fun p _ => by
    split <;> simp [hcmd]
  rw [heq]
  dsimp only
  rw [hmode, hcount]
  rfl

theorem craneRefuse_refused (hstate : s.crane.state = .dispatched) (hreset : s.crane.resetAt = none) (h : m.abort = false) :
    craneRefuse s m = refused s m := by
  simp [craneRefuse, hstate, h, resetting, hreset]
theorem refused_first {i : Nat} (hreq : m.req = .host i) (h : s.crane.refusals + 1 < 3) :
    let u := refused s m
    u.crane.state = .idle ∧ u.crane.move = none ∧ u.crane.refusals = s.crane.refusals + 1 ∧
      hasBit u.faults.crane.flags fcREFUSED = true ∧
      (∀ o ∈ u.crane.stock, o.idx = i → o.stage = if s.cmd.mode = .halting then .returning else .queued) ∧
      ∀ b ∈ m.zones, zoneOf u b ≠ .crane := by
  obtain ⟨hstate, hmove, hcount, hflag, -, hzones⟩ := refusedAt_kept s m
  have hqueued := refusedAt_host (s := s) hreq
  have heq : refused s m = if s.cmd.mode == .halting then haltCrane (refusedAt s m) else refusedAt s m := by
    rw [refused_eq]
    dsimp only
    rw [if_neg (show ¬3 ≤ s.crane.refusals + 1 by omega)]
  rw [heq]
  by_cases hmode : s.cmd.mode = .halting
  · obtain ⟨gstate, gmove, gcount, gfaults, gzones, gstock⟩ := ordersHalted_haltCrane (refusedAt s m)
    rw [if_pos (by simpa using hmode)]
    refine ⟨gstate.trans hstate, gmove.trans hmove, gcount.trans hcount, by rw [gfaults]; exact hflag, fun o ho hi => ?_, fun b hb => ?_⟩
    · rw [if_pos hmode]
      refine (gstock o ho).resolve_right fun ho' => ?_
      exact haltCrane_kept.2.2 o ho (hqueued o ho' hi)
    · rw [zoneOf, gzones]
      exact hzones b hb
  · rw [if_neg (by simpa using hmode)]
    exact ⟨hstate, hmove, hcount, hflag, fun o ho hi => by rw [if_neg hmode]; exact hqueued o ho hi, hzones⟩
theorem refused_third (h : 3 ≤ s.crane.refusals + 1) :
    (refused s m).crane.state = .faulted ∧ (refused s m).crane.move = none ∧
      hasBit (refused s m).faults.crane.flags fcREFUSED = true := by
  obtain ⟨hstate, hmove, -, hflag, -⟩ := refusedAt_kept s m
  have heq : refused s m = if s.cmd.mode == .halting then haltCrane (craneFaulted (refusedAt s m)) else craneFaulted (refusedAt s m) := by
    rw [refused_eq, if_pos h]
  have hfaulted : craneFaulted (refusedAt s m) = _ := craneFaulted_crane hmove (by simp [hstate])
  rw [heq, hfaulted]
  split
  · obtain ⟨gstate, gmove, -, gfaults, -⟩ := ordersHalted_haltCrane
      (setCrane (refusedAt s m) { (refusedAt s m).crane with state := .faulted, faulted := (refusedAt s m).crane.faulted + 1 })
    exact ⟨gstate.trans rfl, gmove.trans hmove, by rw [gfaults]; exact hflag⟩
  · exact ⟨rfl, hmove, hflag⟩

/-! ## LIFTED (R145) -/

theorem stockLift_table {i id : Nat} (h : holds s i id = true) :
    (stockLift s i id).stock.table = s.stock.table.set i { plateAt s i with loc := .crane } := by
  simp [stockLift, h]
theorem stockTurnBack_table (h : holds s m.ix m.plate = true) :
    (stockTurnBack s m).stock.table = s.stock.table.set m.ix { plateAt s m.ix with loc := .crane } := by
  have hreserve : ∀ (u : State) (q : ReqId) (p : Nat) (l : Loc), (reserve u q p l).stock.table = u.stock.table := fun u q p l => by
    cases l <;> rfl
  have hrelease : ∀ u : State, (releaseRes u m.req).stock.table = u.stock.table := fun _ => rfl
  unfold stockTurnBack
  dsimp only
  rw [hreserve, apply_ite (fun u : State => u.stock.table), hrelease, ite_self, stockLift_table h]
section
variable {mass : Nat} (hst : s.crane.state = .dispatched ∨ s.crane.state = .lifting) (hreset : s.crane.resetAt = none)
  (hh : holds s m.ix m.plate = true) (ha : m.abort = false)
include hst hreset hh ha

theorem craneLifted_goes (hmass : outsideTolerance s m mass = false) :
    let u := craneLifted s m mass
    u.crane.state = .travelling ∧ u.crane.lk.load = .present ∧
      u.crane.move = some { m with measured := some mass, lifted := true } ∧
      u.stock.table = s.stock.table.set m.ix { plateAt s m.ix with loc := .crane } := by
  have hwaits : ¬(s.crane.state != .dispatched && s.crane.state != .lifting) = true := by
    rcases hst with h | h <;> simp [h]
  have hbad : outsideTolerance (setLoad s .present) m mass = false := hmass
  have heq : craneLifted s m mass =
      craneTo (setMove (stockLift (setLoad s .present) m.ix m.plate) { m with measured := some mass, lifted := true }) .travelling := by
    unfold craneLifted
    dsimp only
    rw [if_neg hwaits, if_neg (by simp [resetting, setLoad, hreset]), if_pos (by simp [hbad, ha])]
  rw [heq]
  refine ⟨rfl, ?_, rfl, stockLift_table (s := setLoad s .present) hh⟩
  simp [craneTo, setMove, setLoad]
theorem craneLifted_turns (hlive : s.crane.lk.live = true) (hmass : outsideTolerance s m mass = true) :
    let u := craneLifted s m mass
    u.crane.state = .returning ∧
      u.crane.move = some { m with measured := some mass, lifted := true, abort := true, turned := true, massBad := true } ∧
      u.stock.table = s.stock.table.set m.ix { plateAt s m.ix with loc := .crane } ∧
      hasBit u.faults.crane.flags fcMASS = true ∧ u.crane.mismatched = s.crane.mismatched + 1 ∧ Output.craneAbort m.id ∈ u.out := by
  have hwaits : ¬(s.crane.state != .dispatched && s.crane.state != .lifting) = true := by
    rcases hst with h | h <;> simp [h]
  have hbad : outsideTolerance (setLoad s .present) m mass = true := hmass
  let v := stockTurnBack (sendCrane (setLoad s .present) (.craneAbort m.id)) { m with measured := some mass, lifted := true }
  have heq : craneLifted s m mass =
      craneTo (setMove (setCrane (craneFlag v fcMASS) { (craneFlag v fcMASS).crane with mismatched := (craneFlag v fcMASS).crane.mismatched + 1 })
        { m with measured := some mass, lifted := true, abort := true, turned := true, massBad := true }) .returning := by
    unfold craneLifted
    dsimp only
    rw [if_neg hwaits, if_neg (by simp [resetting, setLoad, hreset]), if_neg (by simp [hbad]), if_pos hbad, if_neg (by simp [ha]),
      hbad]
  rw [heq]
  refine ⟨rfl, rfl, ?_, raise_crane _ (by decide), ?_, ?_⟩
  · have htable := stockTurnBack_table (s := sendCrane (setLoad s .present) (.craneAbort m.id))
      (m := { m with measured := some mass, lifted := true }) (by simpa using hh)
    simpa [craneTo, setMove, v] using htable
  · simp [craneTo, setMove, v, setLoad]
  · simp [craneTo, setMove, v, sendCrane, setLoad, hlive]
end

end Sys2Proof.Machine
end

/-! # SET, RETURNING and DROPPED (R142, R146 to R150, R155) -/

section
namespace Sys2Proof.Machine

variable {s : State} {m : Move}

/-! ## What the ends of a move leave of the crane -/

theorem returnHost_crane_eq {i n k : Nat} {l : Loc} {a : Bool} : ∃ bank c, (returnHost s i n l k a).crane =
    { s.crane with stock := bank, cancelled := c } := by
  cases h : s.crane.stock.find? (·.idx == i) with
  | none => exact ⟨s.crane.stock, s.crane.cancelled, by simp [returnHost, h]⟩
  | some o => exact ⟨_, _, returnHost_crane h⟩
theorem endHost_crane_eq {o n : Nat} {l : Loc} : ∃ bank c, (endHost s m o l n).crane = { s.crane with stock := bank, cancelled := c } := by
  unfold endHost
  split
  · split
    · exact returnHost_crane_eq
    · exact ⟨s.crane.stock, s.crane.cancelled, rfl⟩
  · exact ⟨s.crane.stock, s.crane.cancelled, rfl⟩
theorem dropBedReq_crane_eq {b : BedId} : ∃ bank, (dropBedReq s b).1.crane = { s.crane with bank := bank } := by
  unfold dropBedReq
  dsimp only
  split
  · split
    · exact ⟨_, rfl⟩
    · exact ⟨s.crane.bank, rfl⟩
  · exact ⟨s.crane.bank, rfl⟩
theorem dropBedReq_head {b : BedId} {q : BedReq} {rest : List BedReq} (hbank : s.crane.bank.get b = q :: rest) (hq : q.inFlight = true) :
    dropBedReq s b = (setCrane s { s.crane with bank := s.crane.bank.set b rest }, !q.orphan) := by
  simp only [dropBedReq, hbank]
  exact if_pos hq
theorem reportDone_crane_eq : ∃ bank, (reportDone s m).crane = { s.crane with bank := bank } := by
  unfold reportDone
  split
  · split
    · exact dropBedReq_crane_eq
    · exact ⟨s.crane.bank, rfl⟩
  · exact ⟨s.crane.bank, rfl⟩
theorem returnOrder_crane_eq {b : BedId} {o : Outcome} {c : Nat} {p : Option (Nat × Nat)} {k : Bool} :
    ∃ bank inbox, (returnOrder s b o c p k).crane = { s.crane with bank := bank, inbox := inbox } := by
  unfold returnOrder
  dsimp only
  split
  · exact ⟨s.crane.bank, s.crane.inbox, rfl⟩
  · refine ⟨(withdrawAll s b).crane.bank, (withdrawAll s b).crane.inbox, ?_⟩
    split <;> simp [withdrawAll]
theorem returnOrder_crane {b : BedId} {o : Outcome} {c : Nat} {p : Option (Nat × Nat)} {k : Bool} :
    (returnOrder s b o c p k).crane.state = s.crane.state ∧ (returnOrder s b o c p k).crane.move = s.crane.move := by
  obtain ⟨bank, inbox, hcrane⟩ := returnOrder_crane_eq (s := s) (b := b) (o := o) (c := c) (p := p) (k := k)
  simp [hcrane]
theorem reportBack_crane {k : Bool} : (reportBack s m k).crane.state = s.crane.state ∧ (reportBack s m k).crane.move = s.crane.move := by
  unfold reportBack
  split
  · exact ⟨rfl, rfl⟩
  case h_2 b _ _ _ =>
    obtain ⟨bank, hdrop⟩ := dropBedReq_crane_eq (s := s) (b := b)
    dsimp only
    split
    · simp
    · split
      · simp [hdrop]
      · split
        · split <;> simp [rejectOrder, returnOrder_crane, hdrop]
        · simp [postRequest, hdrop]

/-! ## SET at the destination (R146) -/

/-- The state with the piece set down, its reservation converted and the move counted. -/
def setDown (s : State) (m : Move) : State :=
  let u := convertRes (stockSet s m.ix m.plate m.dst) m.req m.dst
  setCrane u { u.crane with moved := u.crane.moved + 1 }
theorem setDown_crane : (setDown s m).crane = { s.crane with moved := s.crane.moved + 1 } := by simp [setDown]
theorem setDown_table (h : holds s m.ix m.plate = true) :
    (setDown s m).stock.table = s.stock.table.set m.ix (placedPlate s m.ix m.dst) := by
  simp [setDown, convertRes_kept, stockSet_table h]
theorem setAtDestination_eq (h : s.crane.resetAt = none) : setAtDestination s m =
    craneRest (reportDone (endHost (setDown s m) m 0 (whereIs (setDown s m) m) (measuredOf m)) m) m := by
  have hreset : ¬resetting (convertRes (stockSet s m.ix m.plate m.dst) m.req m.dst) = true := by simp [resetting, h]
  exact if_neg hreset

/-- Crane, plate table and zones after a SET at the destination. -/
theorem setAtDestination_kept (hreset : s.crane.resetAt = none) (hh : holds s m.ix m.plate = true) :
    let u := setAtDestination s m
    u.crane.state = .idle ∧ u.crane.move = none ∧ u.crane.lk = s.crane.lk ∧ u.crane.moved = s.crane.moved + 1 ∧
      u.stock.table = s.stock.table.set m.ix (placedPlate s m.ix m.dst) ∧ ∀ b ∈ m.zones, zoneOf u b ≠ .crane := by
  obtain ⟨orders, c, hend⟩ := endHost_crane_eq (s := setDown s m) (m := m) (o := 0) (n := measuredOf m) (l := whereIs (setDown s m) m)
  obtain ⟨bank, hdone⟩ := reportDone_crane_eq (s := endHost (setDown s m) m 0 (whereIs (setDown s m) m) (measuredOf m)) (m := m)
  rw [setAtDestination_eq hreset]
  dsimp only
  rw [craneRest_crane, hdone, hend, setDown_crane]
  refine ⟨rfl, rfl, rfl, rfl, ?_, fun b hb => craneRest_zones hb⟩
  simp [endHost_table, setDown_table hh]
theorem endHost_infeedRes {o n : Nat} {l : Loc} (h : s.stock.infeedRes ≠ some m.req) :
    (endHost s m o l n).stock.infeedRes = s.stock.infeedRes := by
  unfold endHost
  split
  case h_1 i hreq =>
    split
    case isTrue =>
      cases hfind : s.crane.stock.find? (·.idx == i) with
      | none => simp [returnHost, hfind]
      | some x =>
        rw [returnHost_stock hfind]
        have hne : ¬(s.stock.infeedRes == some (.host i)) = true := by simpa [hreq] using h
        exact if_neg hne
    case isFalse => rfl
  case h_2 => rfl
theorem setAtDestination_infeed {n : Nat} (hreset : s.crane.resetAt = none) (hdst : m.dst = .infeed n) :
    (setAtDestination s m).stock.infeedRes = if s.stock.infeedRes = some m.req then none else s.stock.infeedRes := by
  have hset : (stockSet s m.ix m.plate m.dst).stock.infeedRes = s.stock.infeedRes := by
    rw [hdst, stockSet]
    split <;> simp
  have hdown : (setDown s m).stock.infeedRes = if s.stock.infeedRes = some m.req then none else s.stock.infeedRes := by
    rw [← hset]
    simp [setDown, hdst, convertRes]
  have hne : (setDown s m).stock.infeedRes ≠ some m.req := by
    rw [hdown]
    split
    · simp
    case isFalse hne => exact hne
  rw [setAtDestination_eq hreset, ← hdown]
  simp [endHost_infeedRes hne]
/-- Where the piece of a move lies once it is set down. -/
theorem whereIs_placed {t : State} {l : Loc} (hh : holds s m.ix m.plate = true) (hst : (plateAt s m.ix).st ≠ .lost)
    (hlen : m.ix < s.stock.table.length) (h : t.stock.table = s.stock.table.set m.ix (placedPlate s m.ix l)) :
    whereIs t m = placedLoc s l := by
  by_cases hl : l = .scrap
  · subst hl
    have hat : plateAt t m.ix = .blank := by simp [plateAt, h, hlen, placedPlate]
    have hfree : holds t m.ix m.plate = false := by simp [holds, hat, Plate.blank]
    simp [whereIs, hfree, placedLoc]
  · obtain ⟨hat, hholds⟩ := placedPlate_holds hh hl hlen h
    simp [whereIs, hholds, hat, placedPlate, hl, hst]
theorem setDown_releases : (setDown s m).stock.releases = s.stock.releases := by
  have hconvert : ∀ (u : State) (q : ReqId) (l : Loc), (convertRes u q l).stock.releases = u.stock.releases := fun u q l => by cases l <;> rfl
  have hset : (stockSet s m.ix m.plate m.dst).stock.releases = s.stock.releases := by
    unfold stockSet
    split
    · rfl
    · cases m.dst <;> simp [tellWaiters]
  exact (hconvert _ _ _).trans hset
/-- The host order of a move that is done is returned, and its LIFT claim released. -/
theorem setAtDestination_host {i : Nat} {o : StockOrder} (hreset : s.crane.resetAt = none) (hh : holds s m.ix m.plate = true)
    (hlen : m.ix < s.stock.table.length) (hreq : m.req = .host i) (hlive : m.live = true)
    (ho : s.crane.stock.find? (·.idx == i) = some o) (hst : (plateAt s m.ix).st ≠ .lost) :
    let u := setAtDestination s m
    craneReturned u o 0 (placedLoc s m.dst) (measuredOf m) ∧
      u.crane.stock = s.crane.stock.map (fun x => if x.idx = i then { x with stage := .returning } else x) ∧
      u.stock.releases = s.stock.releases ++ [⟨o.ix, crPlate o.order, .lift i⟩] := by
  have hidx : o.idx = i := by simpa using List.find?_some ho
  subst hidx
  have hfind : (setDown s m).crane.stock.find? (·.idx == o.idx) = some o := by rw [setDown_crane]; exact ho
  have hwhere : whereIs (setDown s m) m = placedLoc s m.dst := whereIs_placed hh hst hlen (setDown_table hh)
  have hend : endHost (setDown s m) m 0 (whereIs (setDown s m) m) (measuredOf m) =
      returnHost (setDown s m) o.idx 0 (placedLoc s m.dst) (measuredOf m) true := by simp [endHost, hreq, hlive, hwhere]
  have hreturned := craneReturned_returnHost (n := 0) (m := measuredOf m) (l := placedLoc s m.dst) (k := true) hfind (by decide)
  rw [setAtDestination_eq hreset, (report_host hreq false).2.1, hend]
  refine ⟨by simpa [craneReturned] using hreturned, ?_, ?_⟩
  · simp [craneRest_crane, returnHost_crane hfind, setDown_crane]
  · have hstock := returnHost_stock (n := 0) (m := measuredOf m) (l := placedLoc s m.dst) (k := true) hfind
    simp [hstock, releaseClaim, releaseRes, setDown_releases]
/-- The request of a bed leaves its bank. -/
theorem setAtDestination_bed {b : BedId} {k : ReqKind} {id : Nat} {q : BedReq} {rest : List BedReq} (hreset : s.crane.resetAt = none)
    (hreq : m.req = .bed b k id) (hlive : m.live = true) (hbank : s.crane.bank.get b = q :: rest) (hq : q.inFlight = true) :
    (setAtDestination s m).crane.bank = s.crane.bank.set b rest ∧ (setAtDestination s m).crane.stock = s.crane.stock := by
  have hend : endHost (setDown s m) m 0 (whereIs (setDown s m) m) (measuredOf m) = setDown s m := by simp [endHost, hreq]
  have hbank' : (setDown s m).crane.bank.get b = q :: rest := by rw [setDown_crane]; exact hbank
  have hdone : (reportDone (setDown s m) m).crane = { s.crane with moved := s.crane.moved + 1, bank := s.crane.bank.set b rest } := by
    simp [reportDone, hreq, hlive, dropBedReq_head hbank' hq, setDown_crane]
  rw [setAtDestination_eq hreset, hend, craneRest_crane, hdone]
  exact ⟨rfl, rfl⟩

/-! ## The end of the crane's part of a hall reset (R155) -/

/-- A piece hangs at CRANE. -/
def pieceAtCrane (s : State) : Bool := s.stock.table.any (fun p => p.located && p.loc == .crane)
/-- The move's own piece hangs there. -/
def pieceHangs (s : State) (m : Move) : Bool := holds s m.ix m.plate && (plateAt s m.ix).located && (plateAt s m.ix).loc == .crane
/-- The crane's fields after its part of a hall reset, with these orders in the bank. -/
def resetCrane (s : State) (orders : List StockOrder) : Crane :=
  { s.crane with
    stock := orders, bank := .const [], inbox := .const [], refusals := 0, resetAt := none, resetEnded := true
    move := s.crane.move.bind fun m =>
      if pieceHangs s m then some { m with live := false, phase := m.phase.or (some s.crane.state) } else none
    state := if !pieceAtCrane s && s.crane.lk.live then .idle else .faulted, loadedStands := pieceAtCrane s
    taken := 0, returned := 0, raised := 0, moved := 0, cancelled := 0, faulted := 0, mismatched := 0 }
theorem craneResetEnd_kept (s : State) : (∃ orders, (craneResetEnd s).crane = resetCrane s orders) ∧
    (craneResetEnd s).stock.table = s.stock.table ∧
    (pieceAtCrane s = true → hasBit (craneResetEnd s).faults.crane.flags fcRESET_LOADED = true) := by
  have hlast : ∀ (v : State) (a l : Bool),
      (if a then craneFlag v fcRESET_LOADED else if l then v else craneFlag v fcLINK_LOST).crane = v.crane ∧
      (if a then craneFlag v fcRESET_LOADED else if l then v else craneFlag v fcLINK_LOST).stock = v.stock ∧ (a = true →
      hasBit (if a then craneFlag v fcRESET_LOADED else if l then v else craneFlag v fcLINK_LOST).faults.crane.flags fcRESET_LOADED = true) :=
    fun v a l => by
      cases a
      · cases l <;> simp
      · exact ⟨rfl, rfl, fun _ => raise_crane _ (by decide)⟩
  cases hmove : s.crane.move with
  | none =>
    obtain ⟨hcrane, hstock, hflag⟩ := hlast (setCrane s (resetCrane s s.crane.stock)) (pieceAtCrane s) s.crane.lk.live
    have heq : craneResetEnd s = if pieceAtCrane s then craneFlag (setCrane s (resetCrane s s.crane.stock)) fcRESET_LOADED
        else if s.crane.lk.live then setCrane s (resetCrane s s.crane.stock)
        else craneFlag (setCrane s (resetCrane s s.crane.stock)) fcLINK_LOST := by
      simp only [craneResetEnd, resetCrane, hmove]
      rfl
    rw [heq]
    exact ⟨⟨_, hcrane⟩, congrArg Stock.table hstock, hflag⟩
  | some m =>
    obtain ⟨orders, c, hend⟩ := endHost_crane_eq (s := s) (m := m) (o := cABORTED_RESET) (n := measuredOf m) (l := whereIs s m)
    have htable := endHost_table (s := s) (m := m) (o := cABORTED_RESET) (n := measuredOf m) (l := whereIs s m)
    have hhangs : pieceHangs (endHost s m cABORTED_RESET (whereIs s m) (measuredOf m)) m = pieceHangs s m := by
      simp only [pieceHangs, holds_of_table htable, plateAt_of_table htable]
    have hat : pieceAtCrane (endHost s m cABORTED_RESET (whereIs s m) (measuredOf m)) = pieceAtCrane s := by
      simp only [pieceAtCrane, htable]
    obtain ⟨u, hu⟩ : ∃ u, endHost s m cABORTED_RESET (whereIs s m) (measuredOf m) = u := ⟨_, rfl⟩
    rw [hu] at hend htable hhangs hat
    obtain ⟨v, hv⟩ : ∃ v, (if pieceHangs u m then u else freeZones u m.zones) = v := ⟨_, rfl⟩
    have hvu : v.crane = u.crane ∧ v.stock = u.stock := by
      rw [← hv]
      split <;> simp
    have hreset : { v.crane with
        bank := .const [], inbox := .const [], refusals := 0, resetAt := none, resetEnded := true
        move := if pieceHangs u m then (some m).map (fun m => { m with live := false, phase := m.phase.or (some v.crane.state) }) else none
        state := if !pieceAtCrane u && v.crane.lk.live then .idle else .faulted, loadedStands := pieceAtCrane u
        taken := 0, returned := 0, raised := 0, moved := 0, cancelled := 0, faulted := 0, mismatched := 0 } = resetCrane s orders := by
      rw [hvu.1, hend, hhangs, hat, resetCrane, hmove]
      rfl
    have heq : craneResetEnd s = if pieceAtCrane u then craneFlag (setCrane v (resetCrane s orders)) fcRESET_LOADED
        else if v.crane.lk.live then setCrane v (resetCrane s orders)
        else craneFlag (setCrane v (resetCrane s orders)) fcLINK_LOST := by
      rw [← hreset, ← hv]
      simp only [craneResetEnd, hmove, hu]
      rfl
    obtain ⟨hcrane, hstock, hflag⟩ := hlast (setCrane v (resetCrane s orders)) (pieceAtCrane u) v.crane.lk.live
    rw [heq]
    exact ⟨⟨_, hcrane⟩, (congrArg Stock.table (hstock.trans hvu.2)).trans htable, hat ▸ hflag⟩

/-! ## RETURNING and SET at the source (R147, R149, R150, R155) -/

theorem craneFaulted_kept (s : State) : (craneFaulted s).crane.state = .faulted ∧ (craneFaulted s).faults = s.faults := by
  refine ⟨?_, by simp⟩
  unfold craneFaulted
  split
  case isTrue h => simpa using h
  case isFalse =>
    dsimp only
    split
    · split <;> simp [setOrder]
    · simp
theorem craneReturning_confirms (hstate : s.crane.state = .returning) (hreset : s.crane.resetAt = none) :
    craneReturning s m = setCrane s { s.crane with move := some { m with confirmed := true } } := by
  simp [craneReturning, resetting, hreset, hstate, setMove]
section
variable (hstate : s.crane.state = .returning)
include hstate

theorem craneSet_unconfirmed (hreset : s.crane.resetAt = none) (h : m.confirmed = false) :
    (craneSet s m).crane.state = .faulted ∧ hasBit (craneSet s m).faults.crane.flags fcREFUSED = true := by
  have heq : craneSet s m = disobeyed (setLoad s .absent) := by simp [craneSet, hstate, h, resetting, hreset]
  obtain ⟨hfaulted, hfaults⟩ := craneFaulted_kept (craneFlag (setLoad s .absent) fcREFUSED)
  rw [heq, disobeyed]
  exact ⟨hfaulted, by rw [hfaults]; exact raise_crane _ (by decide)⟩
theorem craneSet_confirmed (h : m.confirmed = true) : craneSet s m = setAtSource (setLoad s .absent) m := by
  simp [craneSet, hstate, h]
end
/-- The state with the piece back at its source, its reservation converted and its mass judged. -/
def setBack (s : State) (m : Move) : State :=
  let u := convertRes (stockSet s m.ix m.plate m.src) m.req m.src
  if m.massBad then setSuspect u m.ix m.plate else u
theorem setBack_kept {n : Nat} (hsrc : m.src = .rack n) (hh : holds s m.ix m.plate = true) (hlen : m.ix < s.stock.table.length) :
    (setBack s m).crane = s.crane ∧ (plateAt (setBack s m) m.ix).loc = .rack n ∧
      (plateAt (setBack s m) m.ix).suspect = (m.massBad || (plateAt s m.ix).suspect) := by
  have htable : (convertRes (stockSet s m.ix m.plate m.src) m.req m.src).stock.table =
      s.stock.table.set m.ix (placedPlate s m.ix m.src) := convertRes_kept.1.trans (stockSet_table hh)
  have hcrane : (convertRes (stockSet s m.ix m.plate m.src) m.req m.src).crane = s.crane := convertRes_kept.2.trans stockSet_crane
  obtain ⟨hat, hholds⟩ := placedPlate_holds hh (by simp [hsrc]) hlen htable
  have hlen' : m.ix < (convertRes (stockSet s m.ix m.plate m.src) m.req m.src).stock.table.length := by simpa [htable] using hlen
  obtain ⟨hsuspect, hsame⟩ := setSuspect_kept hholds hlen'
  have hplaced : placedPlate s m.ix m.src = { plateAt s m.ix with loc := .rack n } := by simp [placedPlate, placedLoc, hsrc]
  rw [hplaced] at hat
  unfold setBack
  dsimp only
  generalize convertRes (stockSet s m.ix m.plate m.src) m.req m.src = u at *
  cases hm : m.massBad
  · simp [hat, hcrane]
  · simp [hsuspect, hat, hcrane]
theorem setAtSource_eq : setAtSource s m =
    if resetting (setBack s m) then craneResetEnd (setBack s m) else
      reportBack (craneRest (endHost (setBack s m) m (if m.massBad then cMASS_MISMATCH else cCANCELLED) (whereIs (setBack s m) m)
        (measuredOf m)) m) m true := rfl
theorem setAtSource_rests {n : Nat} (hreset : s.crane.resetAt = none) (hsrc : m.src = .rack n) (hh : holds s m.ix m.plate = true)
    (hlen : m.ix < s.stock.table.length) :
    let u := setAtSource s m
    u.crane.state = .idle ∧ u.crane.move = none ∧ (plateAt u m.ix).loc = .rack n ∧
      (plateAt u m.ix).suspect = (m.massBad || (plateAt s m.ix).suspect) := by
  obtain ⟨hcrane, hloc, hsuspect⟩ := setBack_kept hsrc hh hlen
  have hno : ¬resetting (setBack s m) = true := by simp [resetting, hcrane, hreset]
  have hplate : ∀ v : State, v.stock.table = (setBack s m).stock.table → plateAt (reportBack (craneRest v m) m true) m.ix =
      plateAt (setBack s m) m.ix := fun v hv => plateAt_of_table (reportBack_table.trans (by simpa using hv)) _
  rw [setAtSource_eq, if_neg hno]
  dsimp only
  rw [hplate _ endHost_table]
  obtain ⟨hidle, hnone⟩ := reportBack_crane (s := craneRest (endHost (setBack s m) m (if m.massBad then cMASS_MISMATCH else cCANCELLED)
    (whereIs (setBack s m) m) (measuredOf m)) m) (m := m) (k := true)
  exact ⟨hidle.trans (by simp [craneRest_crane]), hnone.trans (by simp [craneRest_crane]), hloc, hsuspect⟩
theorem setAtSource_resets {n : Nat} {t : Word} (hreset : s.crane.resetAt = some t) (hsrc : m.src = .rack n)
    (hh : holds s m.ix m.plate = true) (hlen : m.ix < s.stock.table.length) :
    let u := setAtSource s m
    u.crane.resetAt = none ∧ u.crane.resetEnded = true ∧ (plateAt u m.ix).loc = .rack n ∧
      (plateAt u m.ix).suspect = (m.massBad || (plateAt s m.ix).suspect) := by
  obtain ⟨hcrane, hloc, hsuspect⟩ := setBack_kept hsrc hh hlen
  obtain ⟨⟨orders, hend⟩, htable, -⟩ := craneResetEnd_kept (setBack s m)
  rw [setAtSource_eq, if_pos (by simp [resetting, hcrane, hreset])]
  dsimp only
  rw [hend, plateAt_of_table htable]
  exact ⟨rfl, rfl, hloc, hsuspect⟩

/-! ## DROPPED after a cancel (R149) -/

theorem craneDropped_cancels (hstate : s.crane.state = .dispatched ∨ s.crane.state = .lifting) (hreset : s.crane.resetAt = none)
    (ha : m.abort = true) : craneDropped s m = cancelDropped (setLoad s .absent) m := by
  have hwaits : ((s.crane.state == .dispatched || s.crane.state == .lifting) && m.abort) = true := by
    rcases hstate with h | h <;> simp [h, ha]
  unfold craneDropped
  rw [if_pos hwaits]
  exact if_neg (by simp [resetting, setLoad, hreset])
theorem cancelDropped_kept {i : Nat} (hreq : m.req = .host i) (hlive : m.live = true) :
    let u := cancelDropped s m
    u.crane.state = .idle ∧ u.crane.move = none ∧ u.crane.lk = s.crane.lk ∧ ∀ o ∈ u.crane.stock, o.idx = i → o.stage = .returning := by
  obtain ⟨orders, c, hend⟩ := endHost_crane_eq (s := s) (m := m) (o := cCANCELLED) (n := 0) (l := whereIs s m)
  unfold cancelDropped
  dsimp only
  rw [craneRest_crane]
  refine ⟨rfl, rfl, by rw [hend], fun o ho hi => ?_⟩
  simp only [endHost, hreq, hlive, if_true] at ho
  exact (mem_returnHost ho).resolve_right fun h => h.2 hi

end Sys2Proof.Machine
end

/-! # The messages of a move in flight (R142, R144 to R150, R155) -/

section
namespace Sys2Proof.Proofs
open Sys2Proof.Machine

section
variable {s : State} {m : Move}

/-- ACCEPT and REFUSE of a move DISPATCHED (R142, R144). -/
theorem dispatched_answered (h : craneHears s m .dispatched) :
    (exec (.craneAccept m.id) s = .next (settle s (setCrane (craneHeardAt s)
      { (craneHeardAt s).crane with state := .lifting, phaseSince := s.clock, refusals := 0 }))) ∧
    (∀ i, m.abort = false → m.req = .host i → s.crane.refusals + 1 < 3 →
      ∃ u, exec (.craneRefuse m.id) s = .next (settle s u) ∧ u.crane.state = .idle ∧ u.crane.move = none ∧
        u.crane.refusals = s.crane.refusals + 1 ∧ hasBit u.faults.crane.flags fcREFUSED = true ∧
        (∀ o ∈ u.crane.stock, o.idx = i → o.stage = if s.cmd.mode = .halting then .returning else .queued) ∧
        (∀ b ∈ m.zones, zoneOf u b ≠ .crane)) ∧
    (m.abort = false → 3 ≤ s.crane.refusals + 1 →
      ∃ u, exec (.craneRefuse m.id) s = .next (settle s u) ∧ u.crane.state = .faulted ∧ u.crane.move = none ∧
        hasBit u.faults.crane.flags fcREFUSED = true) := by
  obtain ⟨hlive, hmove, hstate, hreset⟩ := h
  have hrefuse : m.abort = false → exec (.craneRefuse m.id) s = .next (settle s (refused (craneHeardAt s) m)) := fun ha => by
    rw [exec_craneRefuse hlive hmove, craneRefuse_refused (s := craneHeardAt s) hstate hreset ha]
  refine ⟨?_, fun i ha hreq hlt => ⟨_, hrefuse ha, refused_first (s := craneHeardAt s) hreq hlt⟩,
    fun ha hle => ⟨_, hrefuse ha, refused_third (s := craneHeardAt s) hle⟩⟩
  rw [exec_craneAccept hlive hmove, craneAccept_lifts (s := craneHeardAt s) hstate hreset]
  rfl
/-- LIFTED, its mass inside or outside the tolerance (R145). -/
theorem lifted_answered {mass : Word} (h : craneHears s m .dispatched ∨ craneHears s m .lifting) (hh : holds s m.ix m.plate = true)
    (ha : m.abort = false) :
    (outsideTolerance s m mass.toNat = false →
      ∃ u, exec (.craneLifted m.id mass) s = .next (settle s u) ∧ u.crane.state = .travelling ∧ u.crane.lk.load = .present ∧
        u.crane.move = some { m with measured := some mass.toNat, lifted := true } ∧
        u.stock.table = s.stock.table.set m.ix { plateAt s m.ix with loc := .crane }) ∧
    (outsideTolerance s m mass.toNat = true →
      ∃ u, exec (.craneLifted m.id mass) s = .next (settle s u) ∧ u.crane.state = .returning ∧
        u.crane.move = some { m with measured := some mass.toNat, lifted := true, abort := true, turned := true, massBad := true } ∧
        u.stock.table = s.stock.table.set m.ix { plateAt s m.ix with loc := .crane } ∧
        hasBit u.faults.crane.flags fcMASS = true ∧ u.crane.mismatched = s.crane.mismatched + 1 ∧
        Output.craneAbort m.id ∈ u.out) := by
  have hears : s.crane.lk.live = true ∧ s.crane.move = some m ∧ (s.crane.state = .dispatched ∨ s.crane.state = .lifting) ∧
      s.crane.resetAt = none := by
    rcases h with ⟨hl, hm, hst, hr⟩ | ⟨hl, hm, hst, hr⟩
    · exact ⟨hl, hm, .inl hst, hr⟩
    · exact ⟨hl, hm, .inr hst, hr⟩
  obtain ⟨hlive, hmove, hstate, hreset⟩ := hears
  exact ⟨fun hmass => ⟨_, exec_craneLifted hlive hmove, craneLifted_goes (s := craneHeardAt s) hstate hreset hh ha hmass⟩,
    fun hmass => ⟨_, exec_craneLifted hlive hmove, craneLifted_turns (s := craneHeardAt s) hstate hreset hh ha hlive hmass⟩⟩
/-- SET at the destination (R146). -/
theorem set_answered (h : craneHears s m .travelling ∨ craneHears s m .setting) (hh : holds s m.ix m.plate = true)
    (hlen : m.ix < s.stock.table.length) :
    (∀ l, m.dst = l → ((∃ n, l = .rack n) ∨ l = .overflow ∨ ∃ b, l = .bed b) →
      ∃ u, exec (.craneSet m.id) s = .next (settle s u) ∧ u.crane.state = .idle ∧ u.crane.move = none ∧
        u.crane.lk.load = .absent ∧ u.crane.moved = s.crane.moved + 1 ∧
        u.stock.table = s.stock.table.set m.ix { plateAt s m.ix with loc := l } ∧ (∀ b ∈ m.zones, zoneOf u b ≠ .crane)) ∧
    (m.dst = .scrap →
      ∃ u, exec (.craneSet m.id) s = .next (settle s u) ∧ u.crane.state = .idle ∧ u.crane.moved = s.crane.moved + 1 ∧
        u.stock.table = s.stock.table.set m.ix .blank ∧ (∀ b ∈ m.zones, zoneOf u b ≠ .crane)) ∧
    (∀ n, m.dst = .infeed n →
      ∃ u, exec (.craneSet m.id) s = .next (settle s u) ∧ u.crane.state = .idle ∧ u.crane.moved = s.crane.moved + 1 ∧
        u.stock.table = s.stock.table.set m.ix { plateAt s m.ix with loc := .infeed (locatedInfeed s + 1) } ∧
        u.stock.infeedRes = (if s.stock.infeedRes = some m.req then none else s.stock.infeedRes) ∧
        (∀ b ∈ m.zones, zoneOf u b ≠ .crane)) ∧
    (∀ i o, m.req = .host i → m.live = true → s.crane.stock.find? (·.idx == i) = some o → (plateAt s m.ix).st ≠ .lost →
      ∃ u, exec (.craneSet m.id) s = .next (settle s u) ∧ craneReturned u o 0 (placedLoc s m.dst) (measuredOf m) ∧
        u.crane.stock = s.crane.stock.map (fun x => if x.idx = i then { x with stage := .returning } else x) ∧
        u.stock.releases = s.stock.releases ++ [⟨o.ix, crPlate o.order, .lift i⟩]) ∧
    (∀ b k id q rest, m.req = .bed b k id → m.live = true → s.crane.bank.get b = q :: rest → q.inFlight = true →
      ∃ u, exec (.craneSet m.id) s = .next (settle s u) ∧ u.crane.bank = s.crane.bank.set b rest ∧
        u.crane.stock = s.crane.stock) := by
  have hears : exec (.craneSet m.id) s = .next (settle s (setAtDestination (setLoad (craneHeardAt s) .absent) m)) ∧
      s.crane.resetAt = none := by
    rcases h with ⟨hl, hm, hst, hr⟩ | ⟨hl, hm, hst, hr⟩
    all_goals
      refine ⟨?_, hr⟩
      have hst' : (craneHeardAt s).crane.state = _ := hst
      rw [exec_craneSet hl hm]
      simp only [craneSet, hst']
  obtain ⟨hexec, hreset⟩ := hears
  obtain ⟨hidle, hnone, hlk, hmoved, htable, hzones⟩ :=
    setAtDestination_kept (s := setLoad (craneHeardAt s) .absent) (m := m) hreset hh
  have htable' : (setAtDestination (setLoad (craneHeardAt s) .absent) m).stock.table =
      s.stock.table.set m.ix (placedPlate s m.ix m.dst) := htable
  refine ⟨fun l hl hplace => ⟨_, hexec, hidle, hnone, by rw [hlk]; rfl, hmoved, ?_, hzones⟩,
    fun hdst => ⟨_, hexec, hidle, hmoved, ?_, hzones⟩, fun n hdst => ⟨_, hexec, hidle, hmoved, ?_, ?_, hzones⟩,
    fun i o hreq hlive ho hst => ⟨_, hexec, setAtDestination_host (s := setLoad (craneHeardAt s) .absent) hreset hh hlen hreq hlive ho hst⟩,
    fun b k id q rest hreq hlive hbank hq =>
      ⟨_, hexec, setAtDestination_bed (s := setLoad (craneHeardAt s) .absent) hreset hreq hlive hbank hq⟩⟩
  · rw [htable', hl]
    rcases hplace with ⟨n, rfl⟩ | rfl | ⟨b, rfl⟩ <;> simp [placedPlate, placedLoc]
  · rw [htable', hdst]
    rfl
  · rw [htable', hdst]
    rfl
  · exact setAtDestination_infeed (s := setLoad (craneHeardAt s) .absent) hreset hdst
/-- RETURNING, and the SET of a piece turned back (R147, R149, R150). -/
theorem returning_answered (h : craneHears s m .returning) :
    (exec (.craneReturning m.id) s = .next (settle s (setCrane (craneHeardAt s)
      { (craneHeardAt s).crane with move := some { m with confirmed := true } }))) ∧
    (m.confirmed = false →
      ∃ u, exec (.craneSet m.id) s = .next (settle s u) ∧ u.crane.state = .faulted ∧
        hasBit u.faults.crane.flags fcREFUSED = true) ∧
    (m.confirmed = true → ∀ n, m.src = .rack n → holds s m.ix m.plate = true → m.ix < s.stock.table.length →
      ∃ u, exec (.craneSet m.id) s = .next (settle s u) ∧ u.crane.state = .idle ∧ u.crane.move = none ∧
        (plateAt u m.ix).loc = .rack n ∧ (plateAt u m.ix).suspect = (m.massBad || (plateAt s m.ix).suspect)) := by
  obtain ⟨hlive, hmove, hstate, hreset⟩ := h
  refine ⟨?_, fun hc => ⟨_, exec_craneSet hlive hmove, craneSet_unconfirmed (s := craneHeardAt s) hstate hreset hc⟩,
    fun hc n hsrc hh hlen => ⟨_, exec_craneSet hlive hmove, ?_⟩⟩
  · rw [exec_craneReturning hlive hmove, craneReturning_confirms (s := craneHeardAt s) hstate hreset]
  · rw [craneSet_confirmed (s := craneHeardAt s) hstate hc]
    exact setAtSource_rests (s := setLoad (craneHeardAt s) .absent) hreset hsrc hh hlen
/-- DROPPED after a cancel, and a REFUSE taken for it (R142, R149). -/
theorem dropped_answered {i : Nat} {c : Instr} (hc : (c = .craneDropped m.id ∧ (craneHears s m .dispatched ∨ craneHears s m .lifting)) ∨
    (c = .craneRefuse m.id ∧ craneHears s m .dispatched)) (ha : m.abort = true) (hreq : m.req = .host i) (hmlive : m.live = true) :
    ∃ u, exec c s = .next (settle s u) ∧ u.crane.state = .idle ∧ u.crane.move = none ∧
      u.crane.lk.load = .absent ∧ (∀ o ∈ u.crane.stock, o.idx = i → o.stage = .returning) := by
  have hexec : exec c s = .next (settle s (cancelDropped (setLoad (craneHeardAt s) .absent) m)) := by
    rcases hc with ⟨rfl, ⟨hl, hm, hst, hr⟩ | ⟨hl, hm, hst, hr⟩⟩ | ⟨rfl, hl, hm, hst, hr⟩
    · rw [exec_craneDropped hl hm, craneDropped_cancels (s := craneHeardAt s) (.inl hst) hr ha]
    · rw [exec_craneDropped hl hm, craneDropped_cancels (s := craneHeardAt s) (.inr hst) hr ha]
    · have hrefuse : craneRefuse (craneHeardAt s) m = craneDropped (craneHeardAt s) m := by
        have hst' : (craneHeardAt s).crane.state = _ := hst
        simp [craneRefuse, hst', ha]
      rw [exec_craneRefuse hl hm, hrefuse, craneDropped_cancels (s := craneHeardAt s) (.inl hst) hr ha]
  obtain ⟨hidle, hnone, hlk, hreturning⟩ := cancelDropped_kept (s := setLoad (craneHeardAt s) .absent) hreq hmlive
  exact ⟨_, hexec, hidle, hnone, by rw [hlk]; rfl, hreturning⟩
end

/-- Settles O53: selection by the first feasible of the lists in turn, and each message of a move by the crane's state. -/
theorem craneMove : Obligations.CraneMove := by
  refine ⟨fun s => ⟨craneSelect_busy, craneSelect_chooses s⟩, dispatch_does, fun s b q rest hbank => ?_, fun s o => ?_,
    fun s m => ⟨dispatched_answered, fun mass => lifted_answered, fun h => ?_, set_answered, returning_answered,
      fun t n hlive hmove hstate hreset hc hsrc hh hlen => ?_, fun i c => dropped_answered⟩⟩
  · obtain ⟨c, hcrane, hserved, hb, hstock, hreq⟩ := dispatchBed_crane q hbank
    dsimp only
    rw [hcrane]
    exact ⟨hserved, hb, hstock, hreq⟩
  · dsimp only
    rw [dispatchHost_crane, dispatch_crane]
    exact ⟨by simp, rfl, rfl⟩
  · obtain ⟨hlive, hmove, hstate, -⟩ := h
    rw [exec_craneArrived hlive hmove, craneArrived_sets (s := craneHeardAt s) hstate]
    rfl
  · refine ⟨_, exec_craneSet hlive hmove, ?_⟩
    rw [craneSet_confirmed (s := craneHeardAt s) hstate hc]
    exact setAtSource_resets (s := setLoad (craneHeardAt s) .absent) hreset hsrc hh hlen

end Sys2Proof.Proofs
end

/-! # READY, FAULT, the crane's timers and the end of its part of a hall reset (R15, R141 to R143, R151, R155) -/

section
namespace Sys2Proof.Machine

variable {s : State} {m : Move}

/-! ## READY (R141) -/

theorem craneReady_link {loaded : Bool} (h : s.crane.lk.seen = true ∨ loaded = false) : craneReady s loaded =
    setCrane s { s.crane with lk := ⟨true, s.clock, if loaded then .present else .absent, true⟩ } := by
  rcases h with h | h <;> simp [craneReady, h]
theorem craneReady_loaded (h : s.crane.lk.seen = false) : (craneReady s true).crane.state = .faulted ∧
    (craneReady s true).crane.lk.load = .present ∧ hasBit (craneReady s true).faults.crane.flags fcRESET_LOADED = true := by
  have heq : craneReady s true = craneFlag (setCrane s
      { s.crane with lk := ⟨true, s.clock, .present, true⟩, state := .faulted, loadedStands := true }) fcRESET_LOADED := by
    simp only [craneReady, h]
    rfl
  rw [heq]
  exact ⟨rfl, rfl, raise_crane _ (by decide)⟩

/-! ## FAULT (R142, R151) -/

/-- The FAULT is the move's in flight, or nobody's. -/
def faultNamed (s : State) (id : Byte) : Prop := id = 0 ∨ ∃ m, s.crane.move = some m ∧ m.id = id
/-- The state with the cause of a FAULT kept. -/
def causeKept (s : State) (c : CraneCause) : State :=
  setCrane (craneHeard s) { (craneHeard s).crane with lastFault := byte (CraneCause.num c) }
theorem craneFaultMessage_other {id : Byte} {c : CraneCause} (hid : id ≠ 0) (h : ∀ m, s.crane.move = some m → m.id ≠ id) :
    craneFaultMessage s id c = craneHeard s := by
  have hany : (craneHeard s).crane.move.any (·.id == id) = false := by
    cases hm : s.crane.move with
    | none => simp [craneHeard, hm]
    | some m => simpa [craneHeard, hm] using h m hm
  exact if_pos (by rw [hany]; simpa using hid)
theorem craneFaultMessage_named {id : Byte} {c : CraneCause} (h : faultNamed s id) : craneFaultMessage s id c =
    let u := if c == .loadDrop then loadDrop (craneFlag (causeKept s c) fcLOAD_DROP) else causeKept s c
    if resetting u then u else craneFaulted u := by
  have hno : ¬(id != 0 && !(craneHeard s).crane.move.any (·.id == id)) = true := by
    rcases h with rfl | ⟨m, hm, hid⟩
    · simp
    · simp [craneHeard, hm, hid]
  exact (if_neg hno).trans rfl

/-! ## LOAD_DROP (R15, R58, R151) -/

/-- The report of a lost piece does nothing, or drops the bed's request, or returns the bed's order too. -/
theorem reportLost_cases (s : State) (m : Move) : reportLost s m = s ∨ ∃ b, reportLost s m = (dropBedReq s b).1 ∨
    reportLost s m = enter (returnOrder (dropBedReq s b).1 b .faultAbort dPLATE_LOST none false) b .waiting := by
  unfold reportLost
  split
  · exact .inl rfl
  case h_2 b _ _ _ =>
    dsimp only
    split
    · exact .inl rfl
    · split
      · exact .inr ⟨b, .inr rfl⟩
      · exact .inr ⟨b, .inl rfl⟩
theorem reportLost_crane_eq : ∃ bank inbox, (reportLost s m).crane = { s.crane with bank := bank, inbox := inbox } := by
  rcases reportLost_cases s m with h | ⟨b, h | h⟩
  · exact ⟨s.crane.bank, s.crane.inbox, by rw [h]⟩
  · obtain ⟨bank, hdrop⟩ := dropBedReq_crane_eq (s := s) (b := b)
    exact ⟨bank, s.crane.inbox, by rw [h, hdrop]⟩
  · obtain ⟨bank, hdrop⟩ := dropBedReq_crane_eq (s := s) (b := b)
    obtain ⟨bank', inbox, hreturn⟩ := returnOrder_crane_eq (s := (dropBedReq s b).1) (b := b) (o := .faultAbort) (c := dPLATE_LOST)
      (p := none) (k := false)
    exact ⟨bank', inbox, by simp [h, hreturn, hdrop]⟩
/-- The LOAD_BED whose piece has dropped is told to its bed, and its move stands for no order. -/
def tellDropped (s : State) (i : Nat) : State :=
  match s.crane.move with
  | some m =>
    if m.kind == .loadBed && m.ix == i then setCrane (reportLost s m) { (reportLost s m).crane with move := some { m with live := false } }
    else s
  | none => s
theorem tellDropped_crane {i : Nat} : ∃ bank inbox move, (tellDropped s i).crane =
    { s.crane with bank := bank, inbox := inbox, move := move } ∧
    (move = s.crane.move ∨ move = s.crane.move.map fun m => { m with live := false }) := by
  unfold tellDropped
  split
  case h_1 m hm =>
    split
    · obtain ⟨bank, inbox, hlost⟩ := reportLost_crane_eq (s := s) (m := m)
      exact ⟨bank, inbox, some { m with live := false }, by simp [hlost], .inr (by simp [hm])⟩
    · exact ⟨s.crane.bank, s.crane.inbox, s.crane.move, rfl, .inl rfl⟩
  case h_2 => exact ⟨s.crane.bank, s.crane.inbox, s.crane.move, rfl, .inl rfl⟩
theorem loadDrop_eq : loadDrop s =
    let i := s.stock.table.findIdx (fun p => p.located && p.loc == .crane)
    if i < s.stock.table.length then tellDropped (makeLost s i (plateAt s i).id) i else s := rfl
theorem loadDrop_crane : ∃ bank inbox move, (loadDrop s).crane = { s.crane with bank := bank, inbox := inbox, move := move } ∧
    (move = s.crane.move ∨ move = s.crane.move.map fun m => { m with live := false }) := by
  rw [loadDrop_eq]
  dsimp only
  split
  · obtain ⟨bank, inbox, move, hcrane, hmove⟩ := tellDropped_crane
      (s := makeLost s (s.stock.table.findIdx (fun p => p.located && p.loc == .crane))
        (plateAt s (s.stock.table.findIdx (fun p => p.located && p.loc == .crane))).id)
      (i := s.stock.table.findIdx (fun p => p.located && p.loc == .crane))
    exact ⟨bank, inbox, move, by simpa using hcrane, by simpa using hmove⟩
  · exact ⟨s.crane.bank, s.crane.inbox, s.crane.move, rfl, .inl rfl⟩
section
variable {i : Nat} {p : Plate} (hp : s.stock.table[i]? = some p) (hl : p.located = true) (hc : p.loc = .crane)
include hp hl

theorem makeLost_hangs : makeLost s i p.id = tellWaiters (setPlate s i { p with st := .lost }) i := by
  have hat : plateAt s i = p := by simp [plateAt, List.getD, hp]
  have hst : p.st ≠ .empty ∧ p.st ≠ .lost := by
    constructor <;> intro h <;> simp [Plate.located, h] at hl
  have hdue : (holds s i p.id && (plateAt s i).st != .lost) = true := by simp [holds, hat, hst]
  rw [makeLost, if_pos hdue, hat]
include hc
theorem loadDrop_hangs (hone : ∀ j q, s.stock.table[j]? = some q → q.located = true → q.loc = .crane → j = i) :
    loadDrop s = tellDropped (tellWaiters (setPlate s i { p with st := .lost }) i) i := by
  obtain ⟨hlen, hget⟩ := List.getElem?_eq_some_iff.1 hp
  have hfind : s.stock.table.findIdx (fun p => p.located && p.loc == .crane) = i := by
    have hlt : s.stock.table.findIdx (fun p => p.located && p.loc == .crane) < s.stock.table.length :=
      List.findIdx_lt_length_of_exists ⟨p, hget ▸ List.getElem_mem hlen, by simp [hl, hc]⟩
    have hfound := List.findIdx_getElem (w := hlt)
    rw [Bool.and_eq_true, beq_iff_eq] at hfound
    exact hone _ _ (List.getElem?_eq_getElem hlt) hfound.1 hfound.2
  have hat : plateAt s i = p := by simp [plateAt, List.getD, hp]
  rw [loadDrop_eq]
  dsimp only
  rw [hfind, if_pos hlen, hat, makeLost_hangs hp hl]
end
theorem returnOrder_waiters {b : BedId} {o : Outcome} {c : Nat} {p : Option (Nat × Nat)} {k : Bool} :
    ∀ w ∈ (returnOrder s b o c p k).stock.waiters, w ∈ s.stock.waiters := by
  intro w hw
  have hdrop : (dropUnposted s b).stock.waiters = s.stock.waiters := by
    unfold dropUnposted
    dsimp only
    split
    · split <;> rfl
    · rfl
  cases e : (runOf s b).hand with
  | none => rwa [returnOrder_none _ _ _ _ _ _ e] at hw
  | some h =>
    obtain ⟨l, hstock⟩ := returnOrder_stock (s := s) o c p k e
    rw [hstock, giveUp_stock] at hw
    exact hdrop ▸ (List.mem_filter.1 hw).1
theorem tellDropped_stock {i : Nat} : (tellDropped s i).stock.table = s.stock.table ∧
    ∀ w ∈ (tellDropped s i).stock.waiters, w ∈ s.stock.waiters := by
  have hlost : ∀ m : Move, ∀ w ∈ (reportLost s m).stock.waiters, w ∈ s.stock.waiters := fun m w hw => by
    rcases reportLost_cases s m with h | ⟨b, h | h⟩
    · rwa [h] at hw
    · simpa [h] using hw
    · have hdrop : (dropBedReq s b).1.stock = s.stock := by simp
      have henter : ∀ (u : State) (t : BedState), (enter u b t).stock = u.stock := fun u t => by simp
      rw [h, henter] at hw
      have hwaits := returnOrder_waiters w hw
      rwa [hdrop] at hwaits
  unfold tellDropped
  split
  · split
    · exact ⟨reportLost_table, hlost _⟩
    · exact ⟨rfl, fun _ => id⟩
  · exact ⟨rfl, fun _ => id⟩
/-- The bed of a LOAD_BED whose piece has dropped returns its order FAULT_ABORT, PLATE_LOST (R58). -/
theorem tellDropped_bed {b : BedId} {i x : Nat} {q : BedReq} {rest : List BedReq} {h : Hand} (hm : s.crane.move = some m)
    (hkind : m.kind = .loadBed) (hix : m.ix = i) (hreq : m.req = .bed b .loadBed x) (hlive : m.live = true)
    (hbank : s.crane.bank.get b = q :: rest) (hq : q.inFlight = true) (horphan : q.orphan = false)
    (hstate : (runOf s b).state = .staging) (hhand : (runOf s b).hand = some h) :
    (runOf (tellDropped s i) b).state = .waiting ∧ returnsWith (tellDropped s i) b h 7 36 ∧
      (tellDropped s i).crane.move = some { m with live := false } := by
  let v := (dropBedReq s b).1
  have hrun : runOf v b = runOf s b := by simp [v, runOf]
  have hlost : reportLost s m = enter (returnOrder v b .faultAbort dPLATE_LOST none false) b .waiting := by
    unfold reportLost
    have hv : v = setCrane s { s.crane with bank := s.crane.bank.set b rest } := congrArg Prod.fst (dropBedReq_head hbank hq)
    simp only [hreq, hlive, dropBedReq_head hbank hq, horphan, hv]
    exact (if_neg (by simp)).trans (if_pos (by simp [hstate]))
  have heq : tellDropped s i = setCrane (reportLost s m) { (reportLost s m).crane with move := some { m with live := false } } := by
    simp only [tellDropped, hm]
    exact if_pos (by simp [hkind, hix])
  rw [heq, hlost]
  exact ⟨by simp, returnsWith_returnOrder v b .faultAbort dPLATE_LOST none false .waiting (by rw [hrun]; exact hhand) (by decide), rfl⟩

/-! ## FAULTED, and the timers (R141, R143, R151) -/

theorem craneFaulted_again (h : s.crane.state = .faulted) : craneFaulted s = s := if_pos (by simp [h])
theorem craneFaulted_lastFault : (craneFaulted s).crane.lastFault = s.crane.lastFault ∧ (craneFaulted s).crane.lk = s.crane.lk := by
  unfold craneFaulted
  split
  · exact ⟨rfl, rfl⟩
  · dsimp only
    split
    · split <;> exact ⟨rfl, rfl⟩
    · exact ⟨rfl, rfl⟩
theorem craneFaulted_first (h : s.crane.state ≠ .faulted) : (craneFaulted s).crane.faulted = s.crane.faulted + 1 ∧
    (craneFaulted s).crane.move = s.crane.move.map (fun m => { m with phase := some s.crane.state }) ∧
    ∀ m i, s.crane.move = some m → m.req = .host i →
      (craneFaulted s).crane.stock = s.crane.stock.map (fun o => if o.idx = i then { o with stage := .failed } else o) := by
  have hno : ¬(s.crane.state == .faulted) = true := by simpa using h
  unfold craneFaulted
  rw [if_neg hno]
  cases hm : s.crane.move with
  | none => exact ⟨rfl, rfl, fun m i e => by simp at e⟩
  | some m =>
    cases hreq : m.req with
    | host j =>
      refine ⟨by simp [hreq, setOrder], by simp [hreq, setOrder], fun m' i e hreq' => ?_⟩
      obtain rfl : m = m' := by simpa using e
      obtain rfl : j = i := by simpa [hreq] using hreq'
      simp [hreq, setOrder]
    | bed b k id =>
      refine ⟨by simp [hreq], by simp [hreq], fun m' i e hreq' => ?_⟩
      obtain rfl : m = m' := by simpa using e
      simp [hreq] at hreq'
/-- What a FAULT of any cause does to the crane before FAULTED. -/
theorem dropped_crane (s : State) (c : CraneCause) :
    let u := if c == .loadDrop then loadDrop (craneFlag (causeKept s c) fcLOAD_DROP) else causeKept s c
    ∃ bank inbox move, u.crane = { s.crane with
      lk := { s.crane.lk with since := s.clock }, lastFault := byte (CraneCause.num c), bank := bank, inbox := inbox, move := move } ∧
      (move = s.crane.move ∨ move = s.crane.move.map fun m => { m with live := false }) := by
  dsimp only
  split
  · obtain ⟨bank, inbox, move, hcrane, hmove⟩ := loadDrop_crane (s := craneFlag (causeKept s c) fcLOAD_DROP)
    exact ⟨bank, inbox, move, hcrane.trans rfl, hmove⟩
  · exact ⟨s.crane.bank, s.crane.inbox, s.crane.move, rfl, .inl rfl⟩

/-- FAULTED or not, what follows a LOAD_DROP leaves stock, beds, flags and requests, and the move standing for the orders it stood for. -/
theorem fault_follows (s : State) :
    let u := if resetting s then s else craneFaulted s
    u.stock = s.stock ∧ u.faults = s.faults ∧ (∀ b, runOf u b = runOf s b) ∧ u.engine = s.engine ∧
      u.crane.move.map (·.live) = s.crane.move.map (·.live) := by
  dsimp only
  split
  · exact ⟨rfl, rfl, fun _ => rfl, rfl, rfl⟩
  · refine ⟨by simp, by simp, by simp, by simp, ?_⟩
    by_cases hstate : s.crane.state = .faulted
    · rw [craneFaulted_again hstate]
    · rw [(craneFaulted_first hstate).2.1]
      simp [Function.comp_def]
theorem causeKept_kept (s : State) (c : CraneCause) : (causeKept s c).stock = s.stock ∧ (causeKept s c).crane.move = s.crane.move ∧
    (causeKept s c).crane.bank = s.crane.bank ∧ ∀ b, runOf (causeKept s c) b = runOf s b := ⟨rfl, rfl, rfl, fun _ => rfl⟩

end Sys2Proof.Machine

namespace Sys2Proof.Proofs
open Sys2Proof.Machine

section
variable {s : State}

/-- A FAULT taken outside a hall reset (R151). -/
theorem craneFault_faults {id : Byte} {cause : CraneCause} (hlive : s.crane.lk.live = true) (hreset : s.crane.resetAt = none)
    (hnamed : id = 0 ∨ ∃ m, s.crane.move = some m ∧ m.id = id) :
    ∃ u, exec (.craneFault id cause) s = .next (settle s u) ∧ u.crane.state = .faulted ∧
      u.crane.lastFault = byte (CraneCause.num cause) ∧
      (s.crane.state ≠ .faulted → u.crane.faulted = s.crane.faulted + 1 ∧
        (u.crane.move.map fun x => (x.id, x.phase)) = s.crane.move.map (fun m => (m.id, some s.crane.state)) ∧
        (∀ m i, s.crane.move = some m → m.req = .host i →
          u.crane.stock = s.crane.stock.map (fun o => if o.idx = i then { o with stage := .failed } else o))) ∧
      (s.crane.state = .faulted → u.crane.faulted = s.crane.faulted) ∧
      (cause ≠ .loadDrop → u.stock.table = s.stock.table ∧ u.faults = s.faults) ∧
      (cause = .loadDrop → hasBit u.faults.crane.flags fcLOAD_DROP = true) := by
  obtain ⟨v, hv⟩ : ∃ v, (if cause == .loadDrop then loadDrop (craneFlag (causeKept (fresh s) cause) fcLOAD_DROP)
      else causeKept (fresh s) cause) = v := ⟨_, rfl⟩
  obtain ⟨bank, inbox, move, hcrane, hmove⟩ := dropped_crane (fresh s) cause
  rw [hv] at hcrane
  have hreset' : resetting v = false := by
    rw [resetting, hcrane]
    simp [hreset]
  have heq : craneFaultMessage (fresh s) id cause = craneFaulted v := by
    rw [craneFaultMessage_named (s := fresh s) hnamed]
    dsimp only
    rw [hv, if_neg (by simp [hreset'])]
  have hstate : v.crane.state = s.crane.state := by rw [hcrane]; rfl
  have hvmove : v.crane.move = move := by rw [hcrane]
  refine ⟨_, exec_craneFault hlive, ?_⟩
  rw [heq]
  refine ⟨(craneFaulted_kept v).1, craneFaulted_lastFault.1.trans (by rw [hcrane]), fun hne => ?_, fun hf => ?_, fun hc => ?_, fun hc => ?_⟩
  · obtain ⟨hcount, hphase, horders⟩ := craneFaulted_first (s := v) (by rwa [hstate])
    refine ⟨hcount.trans (by rw [hcrane]; rfl), ?_, fun m i hm hreq => ?_⟩
    · rw [hphase, hvmove, hstate]
      rcases hmove with rfl | rfl <;> simp [Function.comp_def]
    · have hfail : ∀ m', v.crane.move = some m' → m'.req = .host i → (craneFaulted v).crane.stock =
          s.crane.stock.map (fun o => if o.idx = i then { o with stage := .failed } else o) := fun m' hm' hreq' =>
        (horders m' i hm' hreq').trans (by rw [hcrane]; rfl)
      rcases hmove with h | h
      · exact hfail m (by rw [hvmove, h]; exact hm) hreq
      · exact hfail { m with live := false } (by rw [hvmove, h]; simp [hm]) hreq
  · rw [craneFaulted_again (by rwa [hstate]), hcrane]
    rfl
  · have hno : v = causeKept (fresh s) cause := by rw [← hv, if_neg (by simpa using hc)]
    simp [hno, causeKept]
  · have hdrop : v = loadDrop (craneFlag (causeKept (fresh s) cause) fcLOAD_DROP) := by rw [← hv, if_pos (by simpa using hc)]
    simp [hdrop, craneFlag, fcLOAD_DROP]

/-- A LOAD_DROP of the one piece at CRANE (R11, R15, R58, R151). -/
theorem craneFault_drops {id : Byte} {i : Nat} {p : Plate} (hlive : s.crane.lk.live = true)
    (hnamed : id = 0 ∨ ∃ m, s.crane.move = some m ∧ m.id = id) (hp : s.stock.table[i]? = some p) (hl : p.located = true)
    (hc : p.loc = .crane) (hone : ∀ j q, s.stock.table[j]? = some q → q.located = true → q.loc = .crane → j = i) :
    ∃ u, exec (.craneFault id .loadDrop) s = .next (settle s u) ∧ hasBit u.faults.crane.flags fcLOAD_DROP = true ∧
      u.stock.table = s.stock.table.set i { p with st := .lost } ∧ (∀ w ∈ u.stock.waiters, w.1 ≠ i) ∧
      (∀ m b x q rest h, s.crane.move = some m → m.kind = .loadBed → m.ix = i → m.req = .bed b .loadBed x →
        m.live = true → s.crane.bank.get b = q :: rest → q.inFlight = true → q.orphan = false →
        (runOf s b).state = .staging → (runOf s b).hand = some h →
        (runOf u b).state = .waiting ∧ returnsWith u b h 7 36 ∧ (u.crane.move.map (·.live)) = some false) := by
  let w := craneFlag (causeKept (fresh s) .loadDrop) fcLOAD_DROP
  let x := tellWaiters (setPlate w i { p with st := .lost }) i
  have hdrop : loadDrop w = tellDropped x i := loadDrop_hangs (s := w) hp hl hc hone
  obtain ⟨htable, hwaiters⟩ := tellDropped_stock (s := x) (i := i)
  obtain ⟨hstock, hfaults, hrun, hengine, hmove⟩ := fault_follows (tellDropped x i)
  have heq : craneFaultMessage (fresh s) id .loadDrop =
      if resetting (tellDropped x i) then tellDropped x i else craneFaulted (tellDropped x i) := by
    rw [craneFaultMessage_named (s := fresh s) hnamed, ← hdrop]
    rfl
  refine ⟨_, exec_craneFault hlive, ?_⟩
  rw [heq]
  refine ⟨?_, ?_, fun v hv => ?_, fun m b y q rest h hm hkind hix hreq hmlive hbank hq horphan hstate hhand => ?_⟩
  · rw [hfaults, ← hdrop]
    simp [w, craneFlag, fcLOAD_DROP]
  · rw [hstock, htable]
    simp [x, w, tellWaiters, causeKept]
  · rw [hstock] at hv
    have hmem := hwaiters v hv
    simpa [x, tellWaiters] using (List.mem_filter.1 hmem).2
  · have hcrane : x.crane.move = s.crane.move ∧ x.crane.bank = s.crane.bank ∧ runOf x b = runOf s b := by
      simp [x, w, tellWaiters, causeKept_kept]
    obtain ⟨hxmove, hxbank, hxrun⟩ := hcrane
    rw [← hxrun] at hstate hhand
    obtain ⟨hst, ⟨hnone, hqueue⟩, hdead⟩ := tellDropped_bed (hxmove.trans hm) hkind hix hreq hmlive (by rw [hxbank]; exact hbank) hq horphan
      hstate hhand
    refine ⟨by rw [hrun]; exact hst, ⟨by rw [hrun]; exact hnone, by rw [hengine]; exact hqueue⟩, ?_⟩
    rw [hmove, hdead]
    rfl
/-- A RETURNING in a hall reset of a move that has not lifted its piece yet (R155). -/
theorem craneReturning_resets {m : Move} {t : Word} (hlive : s.crane.lk.live = true) (hreset : s.crane.resetAt = some t)
    (hmove : s.crane.move = some m) (hphase : m.phase = none) (hstate : s.crane.state = .dispatched ∨ s.crane.state = .lifting)
    (hh : holds s m.ix m.plate = true) (hlen : m.ix < s.stock.table.length) (hl : (plateAt s m.ix).located = true) :
    ∃ u, exec (.craneReturning m.id) s = .next (settle s u) ∧ u.crane.resetEnded = true ∧ u.crane.state = .faulted ∧
      (plateAt u m.ix).loc = .crane ∧ hasBit u.faults.crane.flags fcRESET_LOADED = true ∧
      (u.crane.move.map fun x => (x.id, x.phase, x.lifted)) = some (m.id, some .returning, true) := by
  let m' : Move := { m with lifted := true, confirmed := true }
  let v := craneTo (setMove (stockLift (setLoad (craneHeardAt s) .present) m.ix m.plate) m') .returning
  have heq : craneReturning (craneHeardAt s) m = craneResetEnd v := by
    have hstate' : (craneHeardAt s).crane.state = .dispatched ∨ (craneHeardAt s).crane.state = .lifting := hstate
    have hno : ¬(!resetting (craneHeardAt s)) = true := by simp [resetting_craneHeardAt, hreset]
    unfold craneReturning
    rw [if_neg hno]
    rcases hstate' with h | h <;> simp only [h] <;> rfl
  have htable : v.stock.table = s.stock.table.set m.ix { plateAt s m.ix with loc := .crane } :=
    stockLift_table (s := setLoad (craneHeardAt s) .present) hh
  have hat : plateAt v m.ix = { plateAt s m.ix with loc := .crane } := by simp [plateAt, htable, hlen]
  have hhangs : pieceHangs v m' = true := by
    have hholds : holds v m.ix m.plate = true := by
      rw [holds] at hh ⊢
      rw [hat]
      exact hh
    have hloc : (plateAt v m.ix).located = true := by rw [hat]; exact hl
    have hplace : (plateAt v m.ix).loc = .crane := by rw [hat]
    simp [pieceHangs, m', hholds, hloc, hplace]
  have hcrane : pieceAtCrane v = true := by
    refine List.any_eq_true.2 ⟨{ plateAt s m.ix with loc := .crane }, ?_, (Bool.and_eq_true _ _).mpr ⟨hl, rfl⟩⟩
    rw [htable]
    exact List.mem_set hlen _
  obtain ⟨⟨orders, hend⟩, htable', hflag⟩ := craneResetEnd_kept v
  refine ⟨_, exec_craneReturning hlive hmove, ?_⟩
  rw [heq]
  refine ⟨by rw [hend]; rfl, by rw [hend]; simp [resetCrane, hcrane], by rw [plateAt_of_table htable', hat], hflag hcrane, ?_⟩
  rw [hend]
  have hvmove : v.crane.move = some m' ∧ v.crane.state = .returning := ⟨rfl, rfl⟩
  simp only [resetCrane, hvmove, Option.bind_some, hhangs, if_true]
  simp [m', hphase]
end

/-- Settles O54: each message and timer by its own equation, and the hall reset's end by the piece at CRANE. -/
theorem craneFaults : Obligations.CraneFaults := by
  refine fun s => ⟨fun loaded h => ?_, fun h => ⟨_, exec_craneReady, craneReady_loaded (s := fresh s) h⟩,
    fun hdown id mass c i hi => ?_, fun id cause => craneFault_faults, fun id cause hlive hid hne => ?_,
    fun id i p => craneFault_drops, fun hlive hdue hreset => ?_, fun n hn hdue hreset => ?_, fun t ht hdue => ?_,
    fun t m hlive hreset hmove hphase hstate hh hlen hl => craneReturning_resets hlive hreset hmove hphase hstate hh hlen hl⟩
  · rw [exec_craneReady, craneReady_link (s := fresh s) h]
    rfl
  · simp only [craneMessages, List.mem_cons, List.not_mem_nil, or_false] at hi
    rcases hi with rfl | rfl | rfl | rfl | rfl | rfl | rfl | rfl
    all_goals
      rw [exec]
      exact takingIf_false hdown
  · rw [exec_craneFault hlive, craneFaultMessage_other (s := fresh s) hid hne]
    rfl
  · let v := craneFlag (setCrane (fresh s) { s.crane with lk := { s.crane.lk with live := false } }) fcLINK_LOST
    have heq : craneLinkLost (fresh s) = craneFaulted v := if_neg (by simp [resetting, hreset])
    refine ⟨_, exec_craneLinkTimeout hlive (due_iff.2 hdue), ?_⟩
    rw [heq]
    refine ⟨by rw [craneFaulted_lastFault.2]; rfl, (craneFaulted_kept v).1, ?_⟩
    rw [(craneFaulted_kept v).2]
    exact raise_crane _ (by decide)
  · have hover : due s s.crane.phaseSince n = true := due_iff.2 hdue
    have hdue' : phaseDue s = true := by simp [phaseDue, hn, hover]
    have hne : (craneFlag (fresh s) fcTIMEOUT).crane.state ≠ .faulted := fun h => by
      have h' : s.crane.state = .faulted := h
      simp [h', phaseLimit] at hn
    have heq : phaseOver (fresh s) = craneFaulted (craneFlag (fresh s) fcTIMEOUT) := if_neg (by simp [resetting, hreset])
    obtain ⟨hcount, hmove, -⟩ := craneFaulted_first hne
    refine ⟨_, exec_phaseLimit hdue', ?_⟩
    rw [heq]
    refine ⟨(craneFaulted_kept _).1, hcount, hmove, ?_⟩
    rw [(craneFaulted_kept _).2]
    exact raise_crane _ (by decide)
  · obtain ⟨⟨orders, hend⟩, -, -⟩ := craneResetEnd_kept (fresh s)
    refine ⟨_, exec_craneResetLimit ht (due_iff.2 hdue), ?_⟩
    rw [hend]
    exact ⟨rfl, rfl, rfl, rfl⟩

end Sys2Proof.Proofs
end

/-! # The host watch and the expiry of holds (R12, R170) -/

section
namespace Sys2Proof.Machine

variable {s : State}

theorem watchExpiry_first (h : hasBit s.faults.hall.flags fhHOST_SILENT = false) : watchExpiry s =
    let u := setFlag (setFaults s { s.faults with watch := some s.clock }) .hall fhHOST_SILENT
    if s.cmd.mode == .run then enterHold u .hostWatch else u := by
  have hno : ¬hasBit (setFaults s { s.faults with watch := some s.clock }).faults.hall.flags fhHOST_SILENT = true := by simp [h]
  exact if_neg hno
/-- The flag and the watch after the watch has run out, whatever the hall's mode. -/
theorem hostSilent_kept (s : State) :
    let u := setFlag (setFaults s { s.faults with watch := some s.clock }) .hall fhHOST_SILENT
    u.faults.watch = some s.clock ∧ hasBit u.faults.hall.flags fhHOST_SILENT = true ∧ u.cmd = s.cmd ∧ u.beds = s.beds := by
  refine ⟨by simp, raise_hall _ (by decide), rfl, rfl⟩
theorem enterHold_faults (o : Origin) : (enterHold s o).faults = s.faults := by
  simp [enterHold, bedIds]

theorem expires_hold {i : Nat} {t : BitVec 16} {e : Word} (hforce : s.loader.inForce.isSome = true) (hver : s.loader.ver = none)
    (hclaim : (plateAt s i).claim = .hold t e) : expires s i = holdDue s e := by
  simp [expires, hforce, hver, hclaim]
theorem holdExpiry_kept (s : State) (i : Nat) :
    (holdExpiry s i).stock.table = s.stock.table.set i { plateAt s i with claim := .none } ∧
      ((holdExpiry s i).engine.deferred.getLast?.map (·.act)) = some (.cause aHOLD_EXPIRED) ∧ (holdExpiry s i).faults = s.faults ∧
      queued (holdExpiry s i) (.writeBack (.plate i)) = true :=
  ⟨by simp [holdExpiry], by simp [holdExpiry, defer], by simp [holdExpiry], queued_setPlate_self ..⟩

end Sys2Proof.Machine

namespace Sys2Proof.Proofs
open Sys2Proof.Machine

/-- Settles O55: the watch that runs out, in RUN and in any other mode, and the hold that reaches its expiry. -/
theorem hostWatchAndHoldExpiry : Obligations.HostWatchAndHoldExpiry := by
  refine ⟨fun s t hwatch hdue hsilent => ?_, fun s i t e hforce hver hclaim hdue => ?_⟩
  · have hover : watchDue s = true := by
      have hover : due s t (watchMs (hallWindow s)) = true := due_iff.2 hdue
      simp [watchDue, hwatch, hover]
    let v := setFlag (setFaults (fresh s) { (fresh s).faults with watch := some s.clock }) .hall fhHOST_SILENT
    obtain ⟨hw, hflag, hcmd, hbeds⟩ := hostSilent_kept (fresh s)
    have heq : watchExpiry (fresh s) = if s.cmd.mode == .run then enterHold v .hostWatch else v := watchExpiry_first (s := fresh s) hsilent
    refine ⟨_, exec_hostWatchExpiry hover, ?_⟩
    rw [heq]
    by_cases hrun : s.cmd.mode = .run
    · rw [if_pos (by simp [hrun]), enterHold_faults]
      refine ⟨hw, hflag, fun _ => ?_, fun hne => absurd hrun hne⟩
      rw [enterHold_cmd]
      exact ⟨rfl, rfl, fun b hb => enterHold_active _ (by simpa [v] using hb)⟩
    · rw [if_neg (by simp [hrun])]
      exact ⟨hw, hflag, fun h => absurd h hrun, fun _ => ⟨rfl, rfl⟩⟩
  · have hover : expires s i = true := by
      rw [expires_hold hforce hver hclaim]
      exact decide_eq_true hdue
    obtain ⟨htable, hact, hfaults, hqueued⟩ := holdExpiry_kept (fresh s) i
    exact ⟨_, exec_holdExpiry hover, htable, hact, hfaults, hqueued⟩

end Sys2Proof.Proofs
end

/-! # The records as they are written, field by field (R217, R218, chapter 12) -/

section
namespace Sys2Proof.Machine

variable {s : State}

/-! ## Records of whole lines -/

/-- Two lines of a number hold its part below the second line, and the rest. -/
theorem linesOf_two {x y : Nat} (h : x < 2 ^ 512) : linesOf 2 (x + 2 ^ 512 * y) = [lineOf x, lineOf y] := by
  have hrest : ∀ m, x < m → (x + m * y) / m = y := fun m hm => by
    rw [Nat.add_mul_div_left _ _ (Nat.zero_lt_of_lt hm), Nat.div_eq_of_lt hm, Nat.zero_add]
  have hlines : linesOf 2 (x + 2 ^ 512 * y) = [lineOf (x + 2 ^ 512 * y), lineOf ((x + 2 ^ 512 * y) / 2 ^ 512)] := by
    rw [← Nat.shiftRight_eq_div_pow]
    rfl
  rw [hlines, hrest _ h, lineOf_add_high]
/-- The fields of the first line of a plate record. -/
def plateHead (p : Plate) : List (Nat × Nat × Nat) :=
  [(0, 1, p.st.num), (1, 1, p.remnant.toNat), (2, 1, p.loc.num.1), (3, 1, p.loc.num.2), (4, 1, p.claim.num), (5, 1, p.suspect.toNat),
   (6, 2, p.claim.holder), (8, 2, p.id), (0xA, 2, p.parent), (0xC, 2, p.thickness), (0xE, 2, p.length), (0x10, 2, p.width),
   (0x12, 1, p.heatLen), (0x13, 1, p.outline.length), (0x14, 4, p.mass), (0x18, 4, p.claim.expiry), (0x1C, 4, p.regTime.toNat),
   (0x20, 8, p.grade.toNat), (0x28, 12, p.heat.toNat)]
theorem plateFields_eq (p : Plate) : plateFields p = plateHead p ++ vertexFields (p.outline.take 12) 0 := rfl
theorem plateLines_eq (p : Plate) : p.lines = [lineOf (sumOf (plateHead p)), lineOf (outlineNat (p.outline.take 12))] := by
  simp only [Plate.lines, plateHead, sumOf_cons, sumOf_nil, Nat.add_zero, Nat.add_assoc, outlineNat]
theorem sumOf_plateHead_lt (p : Plate) : sumOf (plateHead p) < 2 ^ 512 := by
  have hlt := sumOf_lt (o := 0) (n := 64) (fs := plateHead p) (by simp [laid, plateHead]) (by simp [within, plateHead])
  rwa [show 8 * 64 = 512 from rfl] at hlt
theorem composedOf_plate (p : Plate) : composedOf p.lines 2 (plateFields p) := by
  obtain ⟨hvertex, -⟩ := sumOf_vertexFields (p.outline.take 12) ((List.length_take_le 12 _).trans (by decide)) 0
  have hsum : sumOf (plateFields p) = sumOf (plateHead p) + 2 ^ 512 * outlineNat (p.outline.take 12) := by
    rw [plateFields_eq, sumOf_append, hvertex]
  have hlaid : laid 0 (plateFields p) := by
    have hrest : laid 0x34 (vertexFields (p.outline.take 12) 0) := laid_weaken (laid_vertexFields _ 0) (by decide)
    simpa [plateFields_eq, plateHead, laid] using hrest
  have hwithin : within (64 * 2) (plateFields p) := by
    intro f hf
    rw [plateFields_eq, List.mem_append] at hf
    rcases hf with hf | hf
    · have hhead : within (64 * 2) (plateHead p) := by simp [within, plateHead]
      exact hhead f hf
    · have hend := within_vertexFields _ 0 f hf
      have hlen := List.length_take_le 12 p.outline
      omega
  have hcomposed := composedOf_sumOf hlaid hwithin
  rwa [hsum, linesOf_two (sumOf_plateHead_lt p), ← plateLines_eq] at hcomposed
theorem composedOf_verdict (v : Verdict) : composedOf [verdictLine v] 1 (verdictFields v) := by
  have hline : [verdictLine v] = linesOf 1 (sumOf (verdictFields v)) := by
    simp [linesOf, verdictLine, verdictFields, Nat.add_assoc]
  rw [hline]
  exact composedOf_sumOf (by simp [laid, verdictFields]) (by simp [within, verdictFields])

/-! ## Packed records (R218) -/

theorem bedImage_fields (b : BedId) : layout 0 (bedImage s b) = bedFields s b := by
  have hrun : (bedOf s b).run = runOf s b := rfl
  simp [bedImage, bedFields, layout, flag, isLive, hrun, Bool.beq_eq_decide_eq]
theorem craneImage_fields : layout 0 (craneImage s) = craneFields s := by
  simp [craneImage, craneFields, layout, flag, bedOr, kindList, locItems, kindAt, List.range_succ, Function.comp_def, PerBed.get]
  unfold moveRequester
  cases s.crane.move with
  | none => rfl
  | some m => cases m.req <;> rfl
theorem faultImage_fields : layout 0 (faultImage s) = faultFields s := rfl

theorem hallBeds_eq (s : State) : (if s.cmd.mode == .halting then bedsNot s bedIdle else if s.cmd.mode == .resetting then bedsNot s bedReset
    else []) = bedIds.filter fun b =>
      decide (s.cmd.mode = .halting) && !bedIdle s b || decide (s.cmd.mode = .resetting) && !bedReset s b := by
  by_cases hhalt : s.cmd.mode = .halting
  · simp [hhalt, bedsNot]
  · by_cases hreset : s.cmd.mode = .resetting <;> simp [hhalt, hreset, bedsNot]
theorem hallImage_fields : layout 0 (hallImage s) = hallFields s := by
  rw [hallImage, hallBeds_eq]
  simp [hallFields, layout, flag, bedOr, bedList, bedSet_eq, bedAt, hallWindow, freeOf, List.range_succ, Bool.beq_eq_decide_eq]
theorem violationImage_fields : layout 0 (violationImage s) = violationFields s.path := by
  have hstart : ∀ l : List Violation, layout 5 (l.flatMap fun v => [.u32 v.addr.toNat, .u8 v.cause.num, .u32 v.time.toNat]) =
      layout (8 + 12 * 0) (l.flatMap fun v => [.u32 v.addr.toNat, .u8 v.cause.num, .u32 v.time.toNat]) := fun l => by
    cases l <;> rfl
  rw [violationImage, violationFields, ← layout_violations _ 0, ← hstart]
  rfl

/-! ## The wait cause of STAGING (R56) -/

theorem otherHere_iff {b : BedId} {id : Nat} :
    otherHere s b id = true ↔ ∃ q ∈ s.stock.table, q.located = true ∧ q.loc = .bed b ∧ q.id ≠ id := by
  simp [otherHere, locatedAt, and_assoc]
section
variable {b : BedId} {h : Hand} {k : Look}

theorem plateHere_iff (hk : h.look = some k) : plateHere s b h = true ↔
    (holds s k.ix (ordPlate h.order) = true ∧ (plateAt s k.ix).located = true) ∧ (plateAt s k.ix).loc = .bed b := by
  simp [plateHere, hk]
theorem buried_iff (hk : h.look = some k) : buried s h = true ↔
    (holds s k.ix (ordPlate h.order) = true ∧ (plateAt s k.ix).located = true) ∧
      ∃ n, (plateAt s k.ix).loc = .infeed n ∧ n < locatedInfeed s := by
  cases hloc : (plateAt s k.ix).loc <;> simp [buried, hk, hloc]
theorem waitCause_staging (hstate : (runOf s b).state = .staging) (hhand : (runOf s b).hand = some h) : waitCause s b =
    if !plateHere s b h then (if buried s h then 4 else 3)
    else if zoneOf s b != .free || otherHere s b (ordPlate h.order) then 5
    else if s.cmd.mode != .run then 6 else 0 := by
  simp only [waitCause, hstate, hhand]
end

end Sys2Proof.Machine

namespace Sys2Proof.Proofs
open Sys2Proof.Machine

/-- Each packed record is composed of its fields (R217, R218). -/
theorem packed_composed (s : State) :
    (∀ b, composedOf (recLines s (.bed b)) 2 (bedFields s b)) ∧ composedOf (recLines s .hall) 2 (hallFields s) ∧
      composedOf (recLines s .crane) 2 (craneFields s) ∧ composedOf (recLines s .fault) 2 (faultFields s) ∧
      (s.path.log.length ≤ Config.violationLog → composedOf (recLines s .violations) 2 (violationFields s.path)) ∧
      (s.cmd.snapshot.length ≤ 64 →
        composedOf (recLines s .stats) 4 (s.cmd.snapshot.zipIdx.map fun w => (4 * w.2, 4, w.1.toNat))) := by
  refine ⟨fun b => ?_, ?_, ?_, ?_, fun hlog => ?_, fun hsnap => ?_⟩
  · rw [← bedImage_fields]
    exact composedOf_pack (by rw [bedImage_fields]; simp [within, bedFields])
  · rw [← hallImage_fields]
    exact composedOf_pack (by rw [hallImage_fields]; simp [within, hallFields])
  · rw [← craneImage_fields]
    exact composedOf_pack (by rw [craneImage_fields]; simp [within, craneFields])
  · rw [← faultImage_fields]
    exact composedOf_pack (by rw [faultImage_fields]; simp [within, faultFields])
  · rw [← violationImage_fields]
    refine composedOf_pack ?_
    rw [violationImage_fields]
    intro f hf
    simp only [violationFields, List.mem_cons, List.mem_flatMap, List.not_mem_nil, or_false] at hf
    rcases hf with rfl | rfl | ⟨⟨v, i⟩, hv, hf⟩
    · dsimp only
      omega
    · dsimp only
      omega
    · have hheld : s.path.log.length ≤ 8 := hlog
      have hi : i < 8 := by simpa using (List.snd_lt_of_mem_zipIdx hv).trans_le hheld
      rcases hf with rfl | rfl | rfl <;> dsimp only <;> omega
  · have hlayout : layout 0 (s.cmd.snapshot.map fun w => Item.u32 w.toNat) =
        s.cmd.snapshot.zipIdx.map fun w => (4 * w.2, 4, w.1.toNat) := layout_words _ 0
    rw [← hlayout]
    refine composedOf_pack ?_
    rw [hlayout]
    intro f hf
    obtain ⟨⟨w, i⟩, hw, rfl⟩ := List.mem_map.1 hf
    have hi : i < 64 := by simpa using (List.snd_lt_of_mem_zipIdx hw).trans_le hsnap
    dsimp only
    omega

/-- The wait cause shown in STAGING is the first of R56 that applies. -/
theorem waitCause_first (s : State) (b : BedId) (h : Hand) (k : Look) (hstate : (runOf s b).state = .staging)
    (hhand : (runOf s b).hand = some h) (hk : h.look = some k) :
    let p := plateAt s k.ix
    let found := holds s k.ix (ordPlate h.order) = true ∧ p.located = true
    let below := ∃ n, p.loc = .infeed n ∧ n < locatedInfeed s
    let here := found ∧ p.loc = .bed b
    let other := ∃ q ∈ s.stock.table, q.located = true ∧ q.loc = .bed b ∧ q.id ≠ ordPlate h.order
    (found → below → waitCause s b = 4) ∧ (¬(found ∧ below) → ¬here → waitCause s b = 3) ∧
    (here → zoneOf s b ≠ .free ∨ other → waitCause s b = 5) ∧
    (here → zoneOf s b = .free → ¬other → waitCause s b = if s.cmd.mode = .run then 0 else 6) := by
  have hplate := plateHere_iff (s := s) (b := b) hk
  have hburied := buried_iff (s := s) hk
  have hother := otherHere_iff (s := s) (b := b) (id := ordPlate h.order)
  dsimp only
  rw [waitCause_staging hstate hhand]
  refine ⟨fun hfound hbelow => ?_, fun hnot hno => ?_, fun hhere hwait => ?_, fun hhere hfree hnone => ?_⟩
  · obtain ⟨n, hloc, hn⟩ := hbelow
    have hno : plateHere s b h = false := by
      rw [← Bool.not_eq_true, hplate, hloc]
      simp
    rw [hno, hburied.2 ⟨hfound, n, hloc, hn⟩]
    rfl
  · have hno' : plateHere s b h = false := by rwa [← Bool.not_eq_true, hplate]
    have hnot' : buried s h = false := by rwa [← Bool.not_eq_true, hburied]
    rw [hno', hnot']
    rfl
  · rw [hplate.2 hhere, if_neg (by simp), if_pos (by simpa [hother] using hwait)]
  · have hnone' : otherHere s b (ordPlate h.order) = false := by rwa [← Bool.not_eq_true, hother]
    rw [hplate.2 hhere, if_neg (by simp), if_neg (by simp [hfree, hnone'])]
    by_cases hrun : s.cmd.mode = .run <;> simp [hrun]
/-- Settles O58: each record by its fields, where it lies, and the wait cause of STAGING by its conditions. -/
theorem recordImages : Obligations.RecordImages := by
  refine ⟨composedOf_plate, composedOf_verdict, fun s => ?_⟩
  obtain ⟨hbed, hhall, hcrane, hfault, hviol, hstats⟩ := packed_composed s
  refine ⟨fun i => rfl, fun v hv i => by simp [recLines, hv], fun v hv => ?_, hbed, hhall, hcrane, hfault, hviol, hstats,
    fun v a hv ha i => by simp [recAddr, candTable, hv, ha], fun a ha => ?_, waitCause_first s⟩
  · rcases hv with hv | ⟨hnone, hv⟩
    · simp [recLines, hv]
    · simp [recLines, hnone, hv]
  · simp [recAddr, param, verdictAddr, Config.verdictOffset, ha]

end Sys2Proof.Proofs
end
